-- ==== Sys2Proof/Word.lean ====
section
/-!
DEFINITION. The plain types the block's commands and state are written in: bytes, 64-bit registers,
128-bit ordered sets and engine words, byte strings, and tables of numbered items.
-/
namespace Sys2Proof

/-- One byte. -/
abbrev Byte := BitVec 8

/-- A 64-bit register or counter (R136, R182). -/
abbrev Word64 := BitVec 64

/-- A 128-bit engine word (R140) or ordered set (Table 2.1). -/
abbrev Word128 := BitVec 128

/-- Bytes at ascending addresses; multi-byte fields in them are little-endian (R7). -/
abbrev Bytes := List (BitVec 8)

/-- Numbered items, ascending numbers, items equal to a named default left out. -/
abbrev Table (α : Type) := List (Nat × α)

/-- Byte-addressed memory: the cells that differ from what an unlisted address reads as. -/
abbrev Memory := List Host.Cell

end Sys2Proof
end

