-- ==== Sys2Proof/Syntax.lean ====
section
/-!
DEFINITION. The commands of the block: one constructor for each row of the opcode table, with the row's
operands as they are encoded outside (ordered sets and words as 128 bits, payloads and messages as bytes).
-/
namespace Sys2Proof

/-- A command. -/
inductive Instr where
  /-- TICK_SEND (R38): The clapper sends the first copy of the tick ordered set for tick n at lead L before
  its own tick n. -/
  | tickSend
  /-- TICK_SECOND_COPY (R34): The sender sends the second copy of a tick ordered set 256 fc after the first,
  with its lead reduced by the same amount. -/
  | tickSecondCopy
  /-- TICK_ORDERED_SET (R36): A tick ordered set copy arrives; a good first copy on the parent port fixes the
  local tick time and is forwarded on every child port. -/
  | tickOrderedSet (port : Nat) (set : BitVec 128)
  /-- LOCAL_TICK (R30): The local tick is placed, and steps a to e of the frame boundary run in order. -/
  | localTick
  /-- TICK_MISSED (R39): No good copy has arrived 1 us before the predicted tick; the follower ticks on
  prediction and enters holdover. -/
  | tickMissed
  /-- TICK_LOST (R39): After 16 consecutive missed ticks every run on the device is halted. -/
  | tickLost
  /-- FRAME_IN_EDGE (R32): A rising edge on FRAME_IN is timestamped and steers the clapper's frame counter. -/
  | frameInEdge
  /-- FRAME_IN_MISSING (R32): After 4 consecutive missing edges the clapper enters holdover and sets HOLD. -/
  | frameInMissing
  /-- GUARD_BAND (R45): At the start of a run's guard band, unfinished segments are checked and scheduled
  slots close. -/
  | guardBand (tenant : Nat)
  /-- STRETCH_REQUEST (R47): A stretch request packet is received and queued for its target boundary. -/
  | stretchRequest
  /-- HALT_REQUEST_RECEIPT (R50): A SOURCE 4 stretch packet is received; the run halts at the named boundary. -/
  | haltRequestReceipt
  /-- BOUNDARY_PREPARATION (R388): At t = P - 1 us staged commits are evaluated, and the next boundary is
  prepared. -/
  | boundaryPreparation
  /-- COMMIT_EVALUATION_NO_TICK (R388): With no tick for 2 x P, or in minimal mode, a commit is evaluated
  every 1 ms and applied at once. -/
  | commitEvaluationNoTick
  /-- TEARDOWN_NO_TICK (R24): With no tick for 2 x P, a pending pre-run teardown takes effect within 1 ms. -/
  | teardownNoTick
  /-- CALIBRATION_ORDERED_SET (R35): A calibration request is answered, or a reply updates the filtered one-
  way delay. -/
  | calibrationOrderedSet (port : Nat) (set : BitVec 128)
  /-- ALU (R136): An R-format ALU instruction computes d = g[a] FN g[b]. -/
  | alu (tile : Nat)
  /-- ADDI (R136): d = g[a] + IMM. -/
  | addi (tile : Nat)
  /-- ANDI (R136): d = g[a] AND the zero-extended IMM. -/
  | andi (tile : Nat)
  /-- ORI (R136): d = g[a] OR the zero-extended IMM. -/
  | ori (tile : Nat)
  /-- XORI (R136): d = g[a] XOR the zero-extended IMM. -/
  | xori (tile : Nat)
  /-- SHLI (R136): d = g[a] shifted left by IMM[5:0]. -/
  | shli (tile : Nat)
  /-- SHRI (R136): d = g[a] shifted right logically by IMM[5:0]. -/
  | shri (tile : Nat)
  /-- SARI (R136): d = g[a] shifted right arithmetically by IMM[5:0]. -/
  | sari (tile : Nat)
  /-- INS (R136): INSj inserts IMM into 16-bit field j of g[a]. -/
  | ins (tile : Nat)
  /-- SLTI (R136): d = 1 if g[a] < IMM (signed), else 0. -/
  | slti (tile : Nat)
  /-- LDW (R136): Loads a 64-bit value from instruction memory. -/
  | ldw (tile : Nat)
  /-- BEQ (R136): Branches if g[a] equals g[b]. -/
  | beq (tile : Nat)
  /-- BNE (R136): Branches if g[a] differs from g[b]. -/
  | bne (tile : Nat)
  /-- BLT (R136): Branches on signed less-than. -/
  | blt (tile : Nat)
  /-- BGE (R136): Branches on signed greater-or-equal. -/
  | bge (tile : Nat)
  /-- BLTU (R136): Branches on unsigned less-than. -/
  | bltu (tile : Nat)
  /-- BGEU (R136): Branches on unsigned greater-or-equal. -/
  | bgeu (tile : Nat)
  /-- JAL (R136): Jumps pc-relative and writes the link. -/
  | jal (tile : Nat)
  /-- JALR (R136): Jumps to g[a] + IMM x 4 and writes the link. -/
  | jalr (tile : Nat)
  /-- CADD (R189): The core adds g[a] to a local or pool counter. -/
  | cadd (tile : Nat)
  /-- CWAIT (R191): The core waits until a counter reaches g[a]. -/
  | cwait (tile : Nat)
  /-- CWAITT (R191): The core waits on a counter with a timeout of g[d] cc. -/
  | cwaitt (tile : Nat)
  /-- CREAD (R136): The core reads a counter value into d. -/
  | cread (tile : Nat)
  /-- CWAIT_RELEASE (R151): A core wait is released in the cycle after the counter value satisfies it. -/
  | cwaitRelease (tile : Nat)
  /-- CWAITT_TIMEOUT (R191): A CWAITT times out, and d is set to 1. -/
  | cwaittTimeout (tile : Nat)
  /-- ISSUE (R142): The core snapshots an engine word and enqueues it in its engine's issue queue. -/
  | issue (tile : Nat)
  /-- ISSUE_RESUME (R138): An ISSUE held by a full queue proceeds when an entry frees. -/
  | issueResume (tile : Nat)
  /-- WAITE (R136): The core waits until every word issued to the masked engines has retired. -/
  | waite (tile : Nat)
  /-- WAITE_RELEASE (R136): A WAITE is released once the masked engines have retired their words. -/
  | waiteRelease (tile : Nat)
  /-- RSR (R134): The core reads a special register. -/
  | rsr (tile : Nat)
  /-- END (R135): The core ends the segment. -/
  | endSegment (tile : Nat)
  /-- ILLEGAL_INSTRUCTION (R155): An unlisted opcode, FN or RSR index, or a nonzero reserved field, raises
  CORE_ILLEGAL and ends the segment. -/
  | illegalInstruction (tile : Nat)
  /-- SEGMENT_FINISHED (R135): A segment is finished once END has executed and every word it issued has
  retired. -/
  | segmentFinished (tile : Nat)
  /-- CONTEXT_SWITCH (R331): During failover, a stalled core switches to the other ready rank context in 4 cc. -/
  | contextSwitch (tile : Nat)
  /-- MATRIX_COMPUTE (R61): A matrix-array compute word dispatches, loads weights, streams A rows and commits
  output rows. -/
  | matrixCompute (tile : Nat)
  /-- MATRIX_STRIDE_CONFIG (R144): A matrix-array stride configuration word writes the strides and the index
  base. -/
  | matrixStrideConfig (tile : Nat)
  /-- MATRIX_SCALE_CONFIG (R144): A matrix-array scale configuration word writes the scale addresses. -/
  | matrixScaleConfig (tile : Nat)
  /-- MV_COMPUTE (R67): A matrix-vector compute word loads x, streams W and commits rows. -/
  | mvCompute (tile : Nat)
  /-- MV_CONFIG (R144): A matrix-vector configuration word writes the strides and scale addresses. -/
  | mvConfig (tile : Nat)
  /-- OUTPUT_TO_SCRATCH (R96): An output word converts accumulator rows and writes them to scratch. -/
  | outputToScratch (tile : Nat)
  /-- OUTPUT_FUSED (R146): A fused output word hands converted rows to the network interface as a collective
  contribution. -/
  | outputFused (tile : Nat)
  /-- OUTPUT_SCALARS (R144): An output-stage word sets the scalars s and beta. -/
  | outputScalars (tile : Nat)
  /-- OUTPUT_CLIP (R144): An output-stage word sets the clip bounds lo and hi. -/
  | outputClip (tile : Nat)
  /-- OUTPUT_VECTORS (R144): An output-stage word sets the s and beta vector bases and the MX scale addresses. -/
  | outputVectors (tile : Nat)
  /-- VECTOR_LOAD (R109): A vector load fills a register from scratch, strided or broadcast. -/
  | vectorLoad (tile : Nat)
  /-- VECTOR_STORE (R109): A vector store writes a register to scratch. -/
  | vectorStore (tile : Nat)
  /-- VECTOR_FP32 (R111): An FP32 arithmetic vector operation runs on 128 lanes. -/
  | vectorFp32 (tile : Nat)
  /-- VECTOR_PACKED16 (R111): A packed 16-bit arithmetic operation runs on 256 lanes. -/
  | vectorPacked16 (tile : Nat)
  /-- VECTOR_INTEGER (R111): An integer or bitwise operation runs on raw 32-bit lanes. -/
  | vectorInteger (tile : Nat)
  /-- VECTOR_PERMUTE (R147): A permute, shift, interleave or de-interleave runs. -/
  | vectorPermute (tile : Nat)
  /-- VECTOR_REDUCTION (R112): A sum, min or max runs over 128 lanes in fixed order. -/
  | vectorReduction (tile : Nat)
  /-- VECTOR_FUNCTION (R114): An element-wise function runs in precise or coarse mode. -/
  | vectorFunction (tile : Nat)
  /-- VECTOR_CONVERT (R113): E elements are converted between formats, drawing generator lanes under
  stochastic rounding. -/
  | vectorConvert (tile : Nat)
  /-- SEQUENCER_RUN (R124): A sequencer word checks its cell record and reserves its resources for its steps. -/
  | sequencerRun (tile : Nat)
  /-- SEQUENCER_STEP (R126): One recurrent cell step runs after its step wait is satisfied. -/
  | sequencerStep (tile : Nat)
  /-- DMA_CHAIN (R168): A DMA chain word starts a chain of descriptors in scratch. -/
  | dmaChain (tile : Nat)
  /-- NI_PUT (R251): A network-interface put word dispatches a tracked put. -/
  | niPut (tile : Nat)
  /-- NI_GET (R251): A network-interface get word dispatches a tracked get. -/
  | niGet (tile : Nat)
  /-- NI_COUNTER_ADD (R194): A remote counter add word dispatches after earlier puts to the same rank
  complete. -/
  | niCounterAdd (tile : Nat)
  /-- NI_START_CHAIN (R305): A start-chain word starts a triggered-operation chain instance. -/
  | niStartChain (tile : Nat)
  /-- WORD_RETIRE (R143): An engine word retires and its header signal is added. -/
  | wordRetire (tile : Nat) (eng : Nat)
  /-- CUE_GRANT (R366): A waiting word is granted its cue from the float or from headroom. -/
  | cueGrant
  /-- DEFERRED_RAMP_RELEASE (R367): A grant deferred by the ramp-start limit is released, and the engine ramp
  begins. -/
  | deferredRampRelease
  /-- ARRAY_IDLE (R62): After 1,024 cc with no A row entering, the array becomes idle. -/
  | arrayIdle (tile : Nat)
  /-- POWER_MONITOR_SAMPLE (R368): The 10 us power average is sampled each 1 us, and grant holds begin or end. -/
  | powerMonitorSample (mw : Nat)
  /-- SENSOR_READ (R370): The junction sensors are read every 10 us. -/
  | sensorRead (die : Nat) (temps : List Int) (stackTemps : List Int)
  /-- COLLECTOR_REQUEST (R70): A request record arrives at a batch collector stream and is stamped. -/
  | collectorRequest (die : Nat) (tenant : Nat) (record : List (BitVec 8))
  /-- COLLECTOR_EVALUATION (R71): Every 8 fc the collector evaluates its streams and releases ready batches. -/
  | collectorEvaluation (die : Nat)
  /-- COLLECTOR_FLUSH (R71): A write to the tenant's collector flush entry flushes a stream. -/
  | collectorFlush (tr : Nat) (addr : Nat) (secured : Bool) (msg : List (BitVec 8))
  /-- DMA_COPY (R166): A copy descriptor moves its rows between spaces. -/
  | dmaCopy (engine : Nat)
  /-- DMA_FILL (R166): A fill descriptor writes the pattern to every 4-byte unit of the destination. -/
  | dmaFill (engine : Nat)
  /-- DMA_GUARDED_COPY (R356): A guarded copy checks each block against its ingest stream, then accepts or
  quarantines it. -/
  | dmaGuardedCopy (engine : Nat)
  /-- DMA_GATHER (R166): A gather descriptor reads rows from VAs listed in scratch. -/
  | dmaGather (engine : Nat)
  /-- DMA_DESCRIPTOR_COMPLETE (R168): A descriptor's writes meet their completion condition and its signal is
  added. -/
  | dmaDescriptorComplete (engine : Nat)
  /-- PATROL_SCRUB (R175): The patrol scrubber reads an HBM word in its period. -/
  | patrolScrub (addr : Nat)
  /-- INVALIDATE_RANGE (R418): An INV_CTL write with ALL clear submits a VA-range invalidation. -/
  | invalidateRange (fn : Nat) (value : Nat)
  /-- INVALIDATE_ALL (R418): An INV_CTL write with ALL set submits a whole-space invalidation. -/
  | invalidateAll (fn : Nat) (value : Nat)
  /-- INVALIDATION_COMPLETE (R172): An invalidation completes and INV_DONE increments. -/
  | invalidationComplete
  /-- PHASED_STEP (R404): A later phase of a phased object applies at a tick at which its stack meets Q4. -/
  | phasedStep
  /-- CADD_PACKET (R193): A remote counter add packet arrives and is checked and applied at the target. -/
  | caddPacket
  /-- WATCH_RELEASE (R192): A slice sends a release when a watched pool counter reaches its expected value. -/
  | watchRelease (counter : Nat)
  /-- REEL_OPEN (R204): CMD 1 opens a reel from its context fields. -/
  | reelOpen (reel : Nat)
  /-- REEL_CLOSE (R205): CMD 2 closes a reel. -/
  | reelClose (reel : Nat)
  /-- REEL_CLOSE_COMPLETE (R205): A closing reel reaches STATE 0 once nothing is in flight. -/
  | reelCloseComplete (reel : Nat)
  /-- REEL_RESUME (R218): CMD 3 resumes a stopped reel. -/
  | reelResume (fn : Nat) (index : Nat)
  /-- DOORBELL (R206): A doorbell write announces descriptors to a reel. -/
  | doorbell (fn : Nat) (index : Nat) (value : Nat) (spoilt : Bool)
  /-- DESCRIPTOR_FETCH (R208): An open reel fetches a descriptor from its ring. -/
  | descriptorFetch (reel : Nat) (spoil : Nat)
  /-- NOP (R211): A NOP descriptor completes when its wait is satisfied. -/
  | nop (reel : Nat)
  /-- WORD (R212): A WORD descriptor places its engine word in an issue queue. -/
  | word (reel : Nat)
  /-- TRANSFER (R213): A TRANSFER descriptor executes as a DMA descriptor, with indirect parameters if set. -/
  | transfer (reel : Nat)
  /-- COLLECT (R215): A COLLECT descriptor hands up to three requests to the batch collector. -/
  | collect (reel : Nat)
  /-- LOAD (R216): A LOAD descriptor checks a slate container and moves the run to Loaded. -/
  | load (reel : Nat)
  /-- ARM (R216): An ARM descriptor installs the rank table, loads images, seeds state and moves the run to
  Armed. -/
  | arm (reel : Nat)
  /-- TEARDOWN (R216): A TEARDOWN descriptor requests teardown of the run. -/
  | teardown (reel : Nat)
  /-- DESCRIPTOR_WAIT_TIMEOUT (R210): A descriptor wait unsatisfied within WAITTO completes with status 0x06. -/
  | descriptorWaitTimeout (reel : Nat)
  /-- DESCRIPTOR_COMPLETE (R217): Descriptors complete in order and a completion word is written. -/
  | descriptorComplete (reel : Nat)
  /-- INTERRUPT_MODERATION_EXPIRY (R219): At the end of an INTMOD interval, a deferred interrupt is sent. -/
  | interruptModerationExpiry (reel : Nat)
  /-- ROUTER_UNICAST (R235): A router routes a unicast packet by its epoch's bank in dimension order. -/
  | routerUnicast (port : Nat) (vc : Nat) (spoilt : Bool)
  /-- ROUTER_MULTICAST (R241): A router replicates a multicast copy in dimension order. -/
  | routerMulticast (port : Nat) (vc : Nat) (spoilt : Bool)
  /-- LINK_FLIT_TRANSMIT (R237): A flit is sent when a credit for its virtual channel is held. -/
  | linkFlitTransmit (port : Nat) (spoilt : Bool)
  /-- PKT_LIFETIME_SWEEP (R245): At each local tick, packets of age 2 or more are discarded from buffers. -/
  | pktLifetimeSweep
  /-- RANK_CACHE_FILL (R231): A rank-cache miss is filled from HBM. -/
  | rankCacheFill
  /-- WINDOW_CACHE_FILL (R254): A window-cache miss reads the peer record. -/
  | windowCacheFill
  /-- DRAIN_ROUND (R244): At t = 16k us, each device samples I and D and reports them upward. -/
  | drainRound (round : Nat)
  /-- DRAIN_REPORT (R244): A drain report is received; the clapper releases when I = D. -/
  | drainReport (port : Nat) (set : BitVec 128)
  /-- DRAIN_RELEASE (R243): A drain release makes the old bank idle and is forwarded. -/
  | drainRelease (port : Nat) (set : BitVec 128)
  /-- SLOT_WINDOW_OPEN (R239): A scheduled slot window opens, and VC-S injection for its context begins. -/
  | slotWindowOpen (tenant : Nat) (cctx : Nat)
  /-- SLOT_WINDOW_CLOSE (R239): A context's last window closes, and unsent packets move to VC-Q. -/
  | slotWindowClose (tenant : Nat) (cctx : Nat)
  /-- TXREQ_PUT (R256): A put request packet is classified and applied or suppressed. -/
  | txreqPut
  /-- TXREQ_GET (R257): A get request is answered with data packets and a TXRSP. -/
  | txreqGet
  /-- TXREQ_QUERY (R256): A query fences missing SEQs and answers with the applied count. -/
  | txreqQuery
  /-- TXRSP (R258): A transaction response arrives and advances its tracking entry. -/
  | txrsp
  /-- CACK (R258): A counter-add completion arrives for its tracking entry. -/
  | cack
  /-- RESPONSE_TIMEOUT (R259): T_rsp expires and the operation is replayed with the next ATTEMPT. -/
  | responseTimeout (tag : Nat)
  /-- TRANSACTION_DEADLINE (R258): The deadline passes; a put or add enters RESOLVE and sends a query. -/
  | transactionDeadline (tag : Nat)
  /-- QUERY_RESEND (R258): A resolving entry resends its query every T_rsp. -/
  | queryResend (tag : Nat)
  /-- RESOLVE_TIMEOUT (R258): T_res expires in RESOLVE, and the entry completes LINK_LOST_UNKNOWN. -/
  | resolveTimeout (tag : Nat)
  /-- LIFETIME_HOLD_EXPIRY (R260): The lifetime hold passes and a pending LINK_LOST_UNKNOWN completes. -/
  | lifetimeHoldExpiry (tag : Nat)
  /-- QUARANTINE_END (R263): At the fourth tick after completion, the entry returns to FREE. -/
  | quarantineEnd (tag : Nat)
  /-- TRAIN_NOW (R278): A write of 1 to the port's train entry starts training. -/
  | trainNow (tr : Nat) (addr : Nat) (secured : Bool) (msg : List (BitVec 8))
  /-- TRAINING_PHASE_TIMEOUT (R278): A training phase exceeds its limit. -/
  | trainingPhaseTimeout (port : Nat) (phase : Nat)
  /-- LINK_HANDSHAKE (R279): The phase-5 handshake exchanges peer identity and resume point, and the port
  comes up. -/
  | linkHandshake (port : Nat) (coord : Nat) (pcode : Nat) (serial : Nat) (resume : Nat) (held : List Nat) (snr : List Int) (t1 : Nat) (t2 : Nat) (t3 : Nat) (t4 : Nat)
  /-- LINK_FLIT_RECEIVE (R275): A link flit is received, checked by FEC and CRC, and committed or NAKed. -/
  | linkFlitReceive (port : Nat) (bytes : List (BitVec 8)) (errors : List Nat)
  /-- NAK_RECEIVE (R276): A NAK makes the sender resend every held flit after ACK. -/
  | nakReceive (port : Nat) (ack : Nat)
  /-- REPLAY_TIMER_EXPIRY (R276): The oldest held flit stays unacknowledged for the replay timer, and the
  flits are resent. -/
  | replayTimerExpiry (port : Nat)
  /-- RETRAIN_REQUEST (R280): A retrain request ordered set starts a retrain. -/
  | retrainRequest (port : Nat)
  /-- LOCK_LOSS (R280): A loss of block lock or lane alignment, or of codeword indices, starts a retrain. -/
  | lockLoss (port : Nat)
  /-- RETRAIN_TIMEOUT (R287): A retrain that has not completed in 2,000 us takes the port down. -/
  | retrainTimeout (port : Nat)
  /-- DOWN_TRAINING_RETRY (R287): A down port repeats initial training once every second. -/
  | downTrainingRetry (port : Nat)
  /-- WIDTH_CHANGE (R281): A width-change ordered set is received and scheduled. -/
  | widthChange (port : Nat) (set : BitVec 128)
  /-- WIDTH_CHANGE_APPLY (R281): The width change takes effect at the named PCS unit. -/
  | widthChangeApply (port : Nat) (tx : Bool)
  /-- WAKE_START (R283): The transmitter begins to wake 4 us before awake demand. -/
  | wakeStart (port : Nat)
  /-- SLEEP_START (R283): With no demand for 10 us, the port narrows and ramps its upper lanes down. -/
  | sleepStart (port : Nat)
  /-- DEMAND_WAKE (R283): Flits waiting past the demand-wake delay wake a narrow direction. -/
  | demandWake (port : Nat)
  /-- LANE_RAMP_STEP (R284): The drive amplitude steps every 31.25 ns. -/
  | laneRampStep (port : Nat) (lane : Nat)
  /-- LANE_ENERGY_DETECT (R284): A sleeping lane detects energy and starts its qualifier search. -/
  | laneEnergyDetect (port : Nat) (lane : Nat) (level : Int)
  /-- QUALIFIER_MATCH (R284): The qualifier is found and the lane relocks. -/
  | qualifierMatch (port : Nat) (lane : Nat) (q : BitVec 128)
  /-- QUALIFIER_TIMEOUT (R284): No qualifier within 2 us counts a false wake and returns to listening. -/
  | qualifierTimeout (port : Nat) (lane : Nat)
  /-- RELOCK_COMPLETE (R284): The lane becomes ACTIVE and joins the stripe. -/
  | relockComplete (port : Nat) (lane : Nat) (tx : Bool)
  /-- LANE_WAKE_LATE (R284): A lane not ACTIVE 4 us after its ramp began is retried once. -/
  | laneWakeLate (port : Nat) (lane : Nat)
  /-- NOISE_FLOOR_MEASURE (R286): Sleeping lanes measure their noise floor at t = P - 2 us. -/
  | noiseFloorMeasure (port : Nat) (lane : Nat) (value : Int)
  /-- SDATA (R297): Scheduled collective data arrives and is written to the exchange space. -/
  | sdata
  /-- COLLECTIVE_STEP (R298): A collective step runs once its operands are complete, folds and sends chunks. -/
  | collectiveStep (tenant : Nat) (rank : Nat) (cctx : Nat) (cseg : Nat) (fails : Nat)
  /-- COLLECTIVE_SEGMENT_COMPLETE (R302): A member completes a segment and adds 1 to DONE. -/
  | collectiveSegmentComplete (tenant : Nat) (rank : Nat) (cctx : Nat) (cseg : Nat)
  /-- CHAIN_PUT (R305): A PUT triggered operation issues a tracked put in scheduled slots. -/
  | chainPut (chain : Nat)
  /-- CHAIN_ADD (R305): An ADD triggered operation issues a tracked remote add. -/
  | chainAdd (chain : Nat)
  /-- CHAIN_HANDIN (R305): A HANDIN triggered operation hands in a collective contribution. -/
  | chainHandin (chain : Nat)
  /-- CHAIN_SIGNAL (R305): A SIGNAL triggered operation adds to a local pool counter. -/
  | chainSignal (chain : Nat)
  /-- CHAIN_MPUT (R305): An MPUT triggered operation issues an untracked multicast put. -/
  | chainMput (chain : Nat)
  /-- CHAIN_INSTANCE_END (R305): A chain instance ends once every operation has completed. -/
  | chainInstanceEnd (chain : Nat)
  /-- MIRROR_WRITE (R318): A write mirror record is journalled at the twin and acknowledged. -/
  | mirrorWrite
  /-- MIRROR_COUNTER_ADD (R318): A counter-add mirror record is journalled. -/
  | mirrorCounterAdd
  /-- MIRROR_STATE (R318): A control-state mirror record is journalled. -/
  | mirrorState
  /-- MIRROR_COMMIT (R319): A commit record applies the journal records up to run frame r. -/
  | mirrorCommit
  /-- MIRROR_ACK (R320): An ack record completes SYNC writes and frees journal space. -/
  | mirrorAck
  /-- REPAIR_REQUEST (R323): A repair request is answered with the line from the mirror store. -/
  | repairRequest
  /-- REPAIR_REPLY (R323): A repair reply rewrites and delivers the repaired line. -/
  | repairReply
  /-- MIRROR_SEED (R322): A seed record is written to the mirror store. -/
  | mirrorSeed
  /-- MIRROR_DIRECT (R318): A direct record carries a space-5 write to the twin's VA. -/
  | mirrorDirect
  /-- HEARTBEAT (R324): A heartbeat arrives from the partner. -/
  | heartbeat
  /-- MIRROR_RELEASE (R335): A release record makes the spare restore and resume the rank. -/
  | mirrorRelease
  /-- HEARTBEAT_SEND (R324): A heartbeat record is sent at t = 1 us of each frame. -/
  | heartbeatSend
  /-- HEARTBEAT_MISSED (R324): No heartbeat of frame n by P - 1 us counts as missed. -/
  | heartbeatMissed
  /-- SEED_SEND (R322): Seed records are sent within the seed share of T bandwidth. -/
  | seedSend
  /-- COMMIT_RECORD_SEND (R319): A commit record is sent once every tile's snapshot and the programs of r are
  done. -/
  | commitRecordSend
  /-- PROBE_REPLY (R326): A sideband probe reply is judged. -/
  | probeReply (count : Nat)
  /-- PROBE_TIMEOUT (R326): No probe reply within the probe timeout fails the probe. -/
  | probeTimeout
  /-- TENANT_SWITCH (R347): A tile saves the outgoing state, clears and restores the incoming state over 3,344
  cc. -/
  | tenantSwitch (tile : Nat)
  /-- WINDOW_START (R345): A windowed tile begins its tenant's segment at the window start. -/
  | windowStart (tile : Nat)
  /-- WINDOW_END (R345): At the window end an unfinished segment is cut. -/
  | windowEnd (tile : Nat)
  /-- PUBLICATION (R351): A publish-counter add publishes results, which are judged and get delivery records. -/
  | publication
  /-- RESULT_EXPIRY (R352): A pending linked result reaching origin + deadline is judged. -/
  | resultExpiry (tenant : Nat) (stream : Nat)
  /-- TABING_READ (R383): A Tabing READ is checked and answered with the value. -/
  | tabingRead (tr : Nat) (addr : Nat) (secured : Bool) (msg : List (BitVec 8))
  /-- TABING_WRITE (R384): A Tabing WRITE to an entry with no row of its own is checked and applied or staged. -/
  | tabingWrite (tr : Nat) (addr : Nat) (secured : Bool) (msg : List (BitVec 8))
  /-- LEASE_ACQUIRE (R385): Acquire grants the free lease and increments the epoch. -/
  | leaseAcquire (tr : Nat) (addr : Nat) (secured : Bool) (msg : List (BitVec 8))
  /-- LEASE_RENEW (R385): Renew restarts the 6 s lease. -/
  | leaseRenew (tr : Nat) (addr : Nat) (secured : Bool) (msg : List (BitVec 8))
  /-- LEASE_RELEASE (R385): Release frees the lease. -/
  | leaseRelease (tr : Nat) (addr : Nat) (secured : Bool) (msg : List (BitVec 8))
  /-- LEASE_FORCE (R385): Force takes the lease from any holder. -/
  | leaseForce (tr : Nat) (addr : Nat) (secured : Bool) (msg : List (BitVec 8))
  /-- LEASE_EXPIRY (R385): A lease not renewed for 6 s expires. -/
  | leaseExpiry
  /-- NOTIFY_ACK (R390): A notification response from the holder removes it from the queue. -/
  | notifyAck (tr : Nat) (addr : Nat) (secured : Bool) (msg : List (BitVec 8))
  /-- NOTIFY_RESEND (R390): Unacknowledged notifications are resent every 100 ms. -/
  | notifyResend
  /-- COMMIT (R387): A write of the commit record freezes the shadow set and starts a commit. -/
  | commit (tr : Nat) (addr : Nat) (secured : Bool) (msg : List (BitVec 8))
  /-- SHADOW_DISCARD (R384): A write of 1 to 0x1400:0x04 discards the shadow set. -/
  | shadowDiscard (tr : Nat) (addr : Nat) (secured : Bool) (msg : List (BitVec 8))
  /-- HALT_REQUEST (R50): A write of the tenant's halt request multicasts a SOURCE 4 request and applies it
  locally. -/
  | haltRequest (tr : Nat) (addr : Nat) (secured : Bool) (msg : List (BitVec 8))
  /-- MANAGEMENT_STRETCH (R47): A write of the tenant's stretch request sends a SOURCE 3 request. -/
  | managementStretch (tr : Nat) (addr : Nat) (secured : Bool) (msg : List (BitVec 8))
  /-- SMBUS_BLOCK_WRITE (R381): An SMBus block write fragment of a Tabing message is received. -/
  | smbusBlockWrite (block : List (BitVec 8)) (atOnce : Bool)
  /-- SMBUS_FRAGMENT_TIMEOUT (R381): A message not completed within 35 ms is discarded. -/
  | smbusFragmentTimeout
  /-- SMBUS_RETRY (R391): A controller that lost arbitration retries after the idle time and backoff. -/
  | smbusRetry (lost : Bool)
  /-- SPDM_MESSAGE (R392): An SPDM request is answered as a DSP0274 responder. -/
  | spdmMessage (tr : Nat) (secured : Bool) (msg : List (BitVec 8))
  /-- GET_MEASUREMENTS (R445): GET_MEASUREMENTS returns measurement blocks 1 to 5. -/
  | getMeasurements (tr : Nat) (secured : Bool) (msg : List (BitVec 8))
  /-- SET_ENDPOINT_ID (R380): The MCTP control command Set Endpoint ID. -/
  | setEndpointId (tr : Nat) (id : Nat) (op : Nat) (eid : Nat)
  /-- GET_ENDPOINT_ID (R380): The MCTP control command Get Endpoint ID. -/
  | getEndpointId (tr : Nat) (id : Nat)
  /-- GET_ENDPOINT_UUID (R380): The MCTP control command Get Endpoint UUID. -/
  | getEndpointUuid (tr : Nat) (id : Nat)
  /-- GET_MCTP_VERSION_SUPPORT (R380): The MCTP control command Get MCTP Version Support. -/
  | getMctpVersionSupport (tr : Nat) (id : Nat) (typ : Nat)
  /-- GET_MESSAGE_TYPE_SUPPORT (R380): The MCTP control command Get Message Type Support. -/
  | getMessageTypeSupport (tr : Nat) (id : Nat)
  /-- GET_VENDOR_DEFINED_MESSAGE_SUPPORT (R380): The MCTP control command Get Vendor Defined Message Support. -/
  | getVendorDefinedMessageSupport (tr : Nat) (id : Nat) (selector : Nat)
  /-- ENTDAA (R380): The I3C dynamic address assignment. -/
  | entdaa (addr : Nat)
  /-- IMAGE_DATA (R441): A piece of image data is written into the target slot. -/
  | imageData (tr : Nat) (addr : Nat) (secured : Bool) (msg : List (BitVec 8))
  /-- UPDATE_ERASE (R441): Update control 1 erases the target slot. -/
  | updateErase (tr : Nat) (addr : Nat) (secured : Bool) (msg : List (BitVec 8))
  /-- ERASE_COMPLETE (R441): The erase finishes, and the update state becomes writable. -/
  | eraseComplete
  /-- UPDATE_VERIFY (R441): Update control 2 starts verification of the target slot. -/
  | updateVerify (tr : Nat) (addr : Nat) (secured : Bool) (msg : List (BitVec 8))
  /-- VERIFY_COMPLETE (R441): Verification finishes as verified or failed. -/
  | verifyComplete
  /-- UPDATE_SELECT (R441): Update control 3 sets NEXT to the target slot. -/
  | updateSelect (tr : Nat) (addr : Nat) (secured : Bool) (msg : List (BitVec 8))
  /-- BOOT_CONTROL_WARM_RESET (R439): Boot control 1 performs a warm reset. -/
  | bootControlWarmReset (tr : Nat) (addr : Nat) (secured : Bool) (msg : List (BitVec 8))
  /-- BOOT_CONTROL_CLEAR (R440): Boot control 2 clears COUNT, REASON, MINLATCH and FALLBACK and warm-resets. -/
  | bootControlClear (tr : Nat) (addr : Nat) (secured : Bool) (msg : List (BitVec 8))
  /-- BOOT_CONTROL_COLD_RESET (R439): Boot control 3 performs a cold reset. -/
  | bootControlColdReset (tr : Nat) (addr : Nat) (secured : Bool) (flash : Bool) (msg : List (BitVec 8))
  /-- BOOT_CONTROL_MINIMAL (R439): Boot control 4 sets MINLATCH and warm-resets. -/
  | bootControlMinimal (tr : Nat) (addr : Nat) (secured : Bool) (msg : List (BitVec 8))
  /-- BOOT_CONTROL_RAISE_SVN (R439): Boot control 5 raises the SVN floor to the running slot's SVN. -/
  | bootControlRaiseSvn (tr : Nat) (addr : Nat) (secured : Bool) (msg : List (BitVec 8))
  /-- CLEAR_PERSISTENT_RING (R400): A write of 1 to 0x8000:0x04 clears the persistent ring and its count. -/
  | clearPersistentRing (tr : Nat) (addr : Nat) (secured : Bool) (msg : List (BitVec 8))
  /-- DIAGNOSTIC_WINDOW_READ (R401): A window read returns stored bits at a physical address. -/
  | diagnosticWindowRead (tr : Nat) (addr : Nat) (secured : Bool) (msg : List (BitVec 8))
  /-- DIAGNOSTIC_WINDOW_WRITE (R401): A window write stores data with ECC at a physical address. -/
  | diagnosticWindowWrite (tr : Nat) (addr : Nat) (secured : Bool) (msg : List (BitVec 8))
  /-- ERROR_INJECTION (R402): A write arms one injected error. -/
  | errorInjection (tr : Nat) (addr : Nat) (secured : Bool) (msg : List (BitVec 8))
  /-- REGISTER_WRITE (R413): A BAR write to a register with no row of its own takes effect under the access
  rules. -/
  | registerWrite (fn : Nat) (off : Nat) (bytes : List (BitVec 8)) (err : Nat) (flash : Bool)
  /-- VFVEC_WRITE (R415): A write of a VF's MSI-X vector count. -/
  | vfvecWrite (vf : Nat) (value : Nat)
  /-- EVENT_RING_ENABLE (R419): ENABLE going from 0 to 1 takes the ring settings and resets EVR_TAIL. -/
  | eventRingEnable (fn : Nat) (value : Nat)
  /-- OVERFLOW_CLEAR (R419): Writing 1 clears the event-ring OVERFLOW bit. -/
  | overflowClear (fn : Nat) (value : Nat)
  /-- MAILBOX_SUBMIT (R423): A SUBMIT write passes the request buffer to the Tabing endpoint. -/
  | mailboxSubmit (value : Nat) (flash : Bool)
  /-- MAILBOX_RESPONSE_RELEASE (R423): A release write clears RSP_VALID. -/
  | mailboxResponseRelease (flash : Bool)
  /-- MAILBOX_NOTIFICATION_RELEASE (R423): A release write clears NTF_VALID. -/
  | mailboxNotificationRelease
  /-- MSIX_UNMASK (R416): Clearing a mask sends one message for a pending vector. -/
  | msixUnmask (fn : Nat) (entry : Nat)
  /-- HOST_READ_COMPLETION (R422): A host read completes or fails. -/
  | hostReadCompletion (fn : Nat) (addr : Nat) (data : List (BitVec 8)) (status : Nat) (err : Nat)
  /-- FLR_VF (R424): An FLR of VF t closes its reels and requests its tenant's teardown. -/
  | flrVf (vf : Nat)
  /-- PF_RESET (R425): An FLR of the PF, a hot reset or a link-down reset resets every function. -/
  | pfReset
  /-- PERST_ASSERT (R425): PERST_L assertion resets the PCI Express controller, link and functions. -/
  | perstAssert
  /-- PERST_RELEASE (R435): PERST_L release starts link bring-up, with readiness within 100 ms. -/
  | perstRelease
  /-- POR_ASSERT (R473): POR_L low for at least 1 us gives a cold reset. -/
  | porAssert (ns : Nat)
  /-- POR_RELEASE (R434): POR_L release starts the boot ROM, which chooses and verifies the boot attempt. -/
  | porRelease (flash : Bool)
  /-- READY (R436): All start conditions hold and the device becomes ready. -/
  | ready (rate : Nat)
  /-- BOOT_WATCHDOG (R427): The boot watchdog expires, sets the pending reason and performs a warm reset. -/
  | bootWatchdog (flash : Bool)
  /-- BOOT_FAILURE (R437): A detected boot failure sets the pending reason and warm-resets. -/
  | bootFailure (reason : Nat) (flash : Bool)
  /-- WARM_RESET (R442): Everything outside the always-on domain is reset. -/
  | warmReset (flash : Bool)
  /-- RAIL_FAULT (R477): A board rail below its minimum for 5 us holds the device in cold reset. -/
  | railFault (rail : Nat) (us : Nat)
  /-- REFCLK_FAB_LOSS (R476): Loss of REFCLK_FAB takes every Canvas port down, and the frame counter enters
  holdover. -/
  | refclkFabLoss
  /-- REFCLK_AON_LOSS (R476): Loss of REFCLK_AON holds the device in cold reset until the clock returns. -/
  | refclkAonLoss
  /-- TRST (R480): TRST_L low resets the test access port. -/
  | trst (low : Bool)
  /-- BYPASS (R480): The JTAG BYPASS instruction. -/
  | bypass (shift : Nat)
  /-- IDCODE (R480): The JTAG IDCODE instruction. -/
  | idcode (shift : Nat)
  /-- SAMPLE_PRELOAD (R480): The JTAG SAMPLE/PRELOAD instruction. -/
  | samplePreload (shift : Nat)
  /-- EXTEST (R480): The JTAG EXTEST instruction, effective while POR_L is low. -/
  | extest (shift : Nat)
  /-- CLAMP (R480): The JTAG CLAMP instruction, effective while POR_L is low. -/
  | clamp (shift : Nat)
  /-- HIGHZ (R480): The JTAG HIGHZ instruction. -/
  | highz (shift : Nat)
  /-- PC_SAMPLE (R457): A tile takes a PC sample when its cycle counter is a multiple of 2^n. -/
  | pcSample (tile : Nat)
  /-- CAPTURE_COMPLETE (R454): A daily capture finishes reading, and its record is written to the dailies
  ring. -/
  | captureComplete (tile : Nat)
  /-- OBS_DRAIN (R451): The observation buffer drains records to the tenant's rings. -/
  | obsDrain (tile : Nat)
  /-- EVENT_COLLECT (R467): The event collector takes one record per mc, assigns SEQ and delivers it. -/
  | eventCollect
  /-- PERSISTENT_RING_WRITE (R467): A class 0x2 or 0x3 record is written to the persistent ring within 100 ms. -/
  | persistentRingWrite
  /-- REFCLK_AON_RETURN (R476): Once REFCLK_AON has been back for 1 ms, the device leaves the cold-reset hold
  that its loss caused and starts again. -/
  | refclkAonReturn (flash : Bool)
  /-- RAILS_IN_TOLERANCE (R477): Once every board rail has been in tolerance for 1 ms after a rail fault, the
  supervisor releases the cold-reset hold. -/
  | railsInTolerance (flash : Bool)
  /-- FRAME_OUT_FALL (R475): FRAME_OUT falls 1 us after each local tick. -/
  | frameOutFall
  /-- INJECTION_CAP_RELEASE (R348): An operation held by a tenant's injection cap or VC-C cap is injected once
  the token bucket has refilled enough. -/
  | injectionCapRelease (tenant : Nat)
  /-- PERSISTENT_VALUE_WRITE (R384): A persistent dictionary value that has taken effect is written to the
  flash journal within 2 s, after which a power loss keeps the new value. -/
  | persistentValueWrite
  /-- CONFIGURATION_WRITE (R410): A PCI Express configuration write changes VF Enable, NumVFs, Bus Master
  Enable, Memory Space Enable or MSI-X Enable, with the effects the manual states. -/
  | configurationWrite (fn : Nat) (field : Nat) (value : Nat)
  /-- REGISTER_READ (R413): A BAR read that crosses a register's natural boundary returns all ones and raises
  ACCESS_ALIGN. -/
  | registerRead (fn : Nat) (off : Nat) (len : Nat)
  deriving DecidableEq, Repr

end Sys2Proof
end

