-- ==== Sys2Proof/Decode.lean ====
section
/-!
DEFINITION. The words that the opcode table spells commands by. No row of the table gives its command any bits,
so no word spells one.
-/
namespace Sys2Proof

/-- The command a word of `nbits` bits spells by the table's bits: none, as no row gives bits. -/
def decodeTableWord (_nbits _w : Nat) : Option Instr := none

end Sys2Proof
end

