-- ==== Sys2Proof/Config.lean ====
section
/-!
DEFINITION. What one part fixes, and the free values: constants with no body, so that no proof can see
their values. Each has a row in the assumption log.
-/
namespace Sys2Proof.Config

/-- The n-th free value: what the spec leaves unstated, cut to the width the place needs (log entry 7). -/
opaque freeValue : Nat → Nat

/-- The value of SHA-384 over a message, as 48 little-endian bytes of this number (R392, R431, R445):
the spec names the standard and states no value (log entry 8). -/
opaque sha384 : List (BitVec 8) → Nat

/-- Whether an ECDSA P-384 signature over a digest verifies under a public key (R431) (log entry 8). -/
opaque ecdsaVerifies : List (BitVec 8) → List (BitVec 8) → List (BitVec 8) → Bool

/-- The ECDSA P-384 signature the device's leaf key gives a message (R392), n-th of those it makes (log entry 8). -/
opaque leafSignature : Nat → List (BitVec 8) → List (BitVec 8)

/-- The answer the DSP0274 responder gives the n-th request (R392), past what the spec states (log entry 9). -/
opaque spdmAnswer : Nat → List (BitVec 8) → List (BitVec 8)

/-- Whether the authentication, the signature or the MAC of the n-th SPDM message is good (R392) (log entry 9). -/
opaque spdmAccepts : Nat → List (BitVec 8) → Bool

/-- Whether the requester that the n-th message authenticates chains to the Isvas diagnostic root (R392) (log entry 9). -/
opaque spdmChainsToDiagnosticRoot : Nat → List (BitVec 8) → Bool

/-- The versions of an MCTP message type that the device answers with (R380), each 4 bytes (log entry 14). -/
opaque mctpVersions : Nat → List (BitVec 32)

/-- The stepping: 0 for A0, 1 for A1 (0x1000:0x05) (log entry 10). -/
opaque stepping : Nat

/-- The device serial number (0x1000:0x06) (log entry 10). -/
opaque serialNumber : Nat

/-- The device UUID, 16 bytes (0x1000:0x07) (log entry 10). -/
opaque deviceUuid : Nat

/-- The Ethernet MAC address (0x6800:0x06) (log entry 10). -/
opaque macAddress : Nat

/-- The boot ROM's own bytes, as measurement block 1 hashes them (R445) (log entry 8). -/
opaque bootRom : List (BitVec 8)

/-- The input buffers of port T in flits, which Table 10.6 does not give: 0 what each VC-C channel has reserved,
1 each other channel, 2 the shared pool (log entry 11). -/
opaque tBuffer : Nat → Nat

/-- The firmware signing key n of a boot record slot, 96 bytes, as the part's fuses fix it (R431) (log entry 8). -/
opaque firmwareKey : Nat → List (BitVec 8)

/-- The firmware signing keys whose revocation fuse is blown, one bit each (R431) (log entry 8). -/
opaque revokedKeys : Nat

/-- What the rail monitor measures of rail n when it is read at a time: [31:0] mV and [63:32] mA, as I32 (0x7001) (log entry 12). -/
opaque railReading : Nat → Nat → Nat

/-- What the boundary register captures (R480) of the pins that the state holds, at a time: the order of its cells and
the levels of the other pins are the BSDL file's and the board's (log entry 13). -/
opaque boundaryCells : Nat → Nat → Nat

end Sys2Proof.Config
end

