-- ==== Sys2Proof/Machine/Sparse.lean ====
section
/-!
DEFINITION. Tables of numbered items in one canonical form: numbers strictly rising, no item equal to the
default, so that equal tables are equal data. Every memory, register file and unit array of the model is one.
-/
namespace Sys2Proof.Machine

/-- The item numbered `k`; the default where none is listed. -/
def Sparse.get {α : Type} (dflt : α) : Table α → Nat → α
  | [], _ => dflt
  | (j, v) :: m, k => if j = k then v else Sparse.get dflt m k

/-- The table with item `k` left out. -/
def Sparse.erase {α : Type} : Table α → Nat → Table α
  | [], _ => []
  | (j, v) :: m, k => if j = k then Sparse.erase m k else (j, v) :: Sparse.erase m k

/-- The table with item `k` listed as `v`. -/
def Sparse.insert {α : Type} : Table α → Nat → α → Table α
  | [], k, v => [(k, v)]
  | (j, w) :: m, k, v =>
    if j = k then (k, v) :: m else if k < j then (k, v) :: (j, w) :: m else (j, w) :: Sparse.insert m k v

/-- Item `k` becomes `v`; writing the default removes the entry. -/
def Sparse.set {α : Type} [DecidableEq α] (dflt : α) (m : Table α) (k : Nat) (v : α) : Table α :=
  if v = dflt then Sparse.erase m k else Sparse.insert m k v

/-- Item `k` changed by `f`. -/
def Sparse.modify {α : Type} [DecidableEq α] (dflt : α) (m : Table α) (k : Nat) (f : α → α) : Table α :=
  Sparse.set dflt m k (f (Sparse.get dflt m k))

/-- Every listed number lies above `lo` and they rise strictly; no item is the default. -/
def Sparse.wfFrom {α : Type} [DecidableEq α] (dflt : α) : Option Nat → Table α → Bool
  | _, [] => true
  | lo, (k, v) :: m => (match lo with | none => true | some l => decide (l < k)) && decide (v ≠ dflt) &&
      Sparse.wfFrom dflt (some k) m

/-- The canonical form. -/
def Sparse.wf {α : Type} [DecidableEq α] (dflt : α) (m : Table α) : Bool := Sparse.wfFrom dflt none m

/-- The byte at address `a` (an unlisted address reads 0). -/
def Mem.get (m : Memory) (a : Nat) : Byte := Sparse.get 0 m a

/-- The byte at address `a` becomes `b`. -/
def Mem.set (m : Memory) (a : Nat) (b : Byte) : Memory := Sparse.set 0 m a b

/-- The `n` bytes from address `a`, ascending. -/
def Mem.readN (m : Memory) (a : Nat) : Nat → Bytes
  | 0 => []
  | n + 1 => Mem.get m a :: Mem.readN m (a + 1) n

/-- The bytes `bs` written from address `a`, ascending. -/
def Mem.writeN (m : Memory) (a : Nat) : Bytes → Memory
  | [] => m
  | b :: bs => Mem.writeN (Mem.set m a b) (a + 1) bs

/-- The canonical form of a memory (MEMORY): rising addresses, no zero byte listed. -/
def Memory.wf (m : Memory) : Bool := Sparse.wf (0 : Byte) m

/-- The little-endian number of a byte string (R7). -/
def leNat : Bytes → Nat
  | [] => 0
  | b :: bs => b.toNat + 256 * leNat bs

/-- The `n` little-endian bytes of a number (R7). -/
def leBytes : Nat → Nat → Bytes
  | 0, _ => []
  | n + 1, v => BitVec.ofNat 8 v :: leBytes n (v / 256)

/-- Bits [lo + len - 1 : lo] of a number (R6). -/
def bitsOf (n lo len : Nat) : Nat := n / 2 ^ lo % 2 ^ len

/-- Bit `i` of a number. -/
def bitOf (n i : Nat) : Bool := bitsOf n i 1 == 1

/-- A `w`-bit number read as two's complement. -/
def signedOf (w n : Nat) : Int :=
  let m := n % 2 ^ w
  if m < 2 ^ (w - 1) then (m : Int) else (m : Int) - 2 ^ w

/-- A two's complement number put into `w` bits. -/
def unsignedOf (w : Nat) (i : Int) : Nat := (i % (2 ^ w : Int)).toNat

/-- The field of `len` bytes at byte offset `off` of a byte string, as a number (R7). -/
def fieldAt (bs : Bytes) (off len : Nat) : Nat := leNat ((bs.drop off).take len)

/-- `n` bytes of value `b`. -/
def fillBytes (n : Nat) (b : Byte) : Bytes := List.replicate n b

/-- A byte string cut or zero-extended to `n` bytes. -/
def padTo (n : Nat) (bs : Bytes) : Bytes := bs.take n ++ fillBytes (n - bs.length) 0

/-- How many of the low `w` bits of a number are set. -/
def popCount (n : Nat) : Nat → Nat
  | 0 => 0
  | w + 1 => popCount n w + bitsOf n w 1

/-- The numbers below `w` whose bit is set, ascending. -/
def bitsSet (w n : Nat) : List Nat := (List.range w).filter (bitOf n)

/-- `n` rounded up to a multiple of `k`. -/
def roundUp (n k : Nat) : Nat := (n + k - 1) / k * k

/-- A number held below 2^`w` - 1: a count that saturates (R397). -/
def satAdd (w a b : Nat) : Nat := min (2 ^ w - 1) (a + b)

end Sys2Proof.Machine
end

