-- ==== Sys2Proof/Machine/Dict.lean ====
section
/-!
DEFINITION. The Tabing object dictionary as a table of rows (chapter 18): for each entry its length, access
profile, default, persistence, application class and quiesce class.
-/
namespace Sys2Proof.Machine

/-- The roles of Table 17.2. -/
inductive Role where
  | host | manager | twin
  deriving DecidableEq, Repr

/-- The access profiles of Table 18.1. -/
inductive Profile where
  | S | T | R | P | W | X | H | L
  deriving DecidableEq, Repr

/-- The application classes of chapter 18: immediate, staged, phased, read-only. -/
inductive App where
  | imm | staged | phased | ro
  deriving DecidableEq, Repr

/-- One row: the indices and subindices it covers, the value length, and the columns of its table. `text`
marks an STR, whose length is at most `len` (R378). -/
structure EntryRow where
  i0 : Nat
  i1 : Nat
  s0 : Nat
  s1 : Nat
  len : Nat
  prof : Profile
  app : App
  pers : Bool := false
  q : Nat := 0
  dflt : Nat := 0
  text : Bool := false
  deriving DecidableEq, Repr

/-- The key under which an entry's value is kept: index, then subindex. -/
def entryKey (idx sub : Nat) : Nat := idx * 256 + sub

/-- Tables 18.3 and 18.4: identity, slots, update, boot record, lease and staging. -/
def entryRowsA : List EntryRow := [
  ⟨0x1000, 0x1000, 0x01, 0x01, 2, .R, .ro, true, 0, 0x1F3A, false⟩,
  ⟨0x1000, 0x1000, 0x02, 0x02, 2, .R, .ro, true, 0, 0x0A10, false⟩,
  ⟨0x1000, 0x1000, 0x03, 0x04, 16, .R, .ro, true, 0, 0, true⟩,
  ⟨0x1000, 0x1000, 0x05, 0x05, 1, .R, .ro, true, 0, 0, false⟩,
  ⟨0x1000, 0x1000, 0x06, 0x06, 8, .R, .ro, true, 0, 0, false⟩,
  ⟨0x1000, 0x1000, 0x07, 0x07, 16, .R, .ro, true, 0, 0, false⟩,
  ⟨0x1001, 0x1001, 0x01, 0x01, 1, .R, .ro, false, 0, 0, false⟩,
  ⟨0x1001, 0x1001, 0x02, 0x03, 16, .R, .ro, true, 0, 0, false⟩,
  ⟨0x1010, 0x1010, 0x01, 0x01, 16777216, .X, .imm, false, 0, 0, false⟩,
  ⟨0x1010, 0x1010, 0x02, 0x02, 1, .X, .imm, false, 0, 0, false⟩,
  ⟨0x1010, 0x1010, 0x03, 0x03, 8, .P, .ro, false, 0, 0, false⟩,
  ⟨0x1100, 0x1100, 0x01, 0x01, 1, .R, .ro, false, 0, 0, false⟩,
  ⟨0x1100, 0x1100, 0x02, 0x02, 2, .R, .ro, false, 0, 0, false⟩,
  ⟨0x1100, 0x1100, 0x03, 0x03, 1, .R, .ro, true, 0, 0, false⟩,
  ⟨0x1100, 0x1100, 0x04, 0x04, 64, .R, .ro, true, 0, 0, false⟩,
  ⟨0x1100, 0x1100, 0x05, 0x05, 1, .X, .imm, false, 0, 0, false⟩,
  ⟨0x1200, 0x1200, 0x01, 0x01, 24, .R, .ro, false, 0, 0, false⟩,
  ⟨0x1200, 0x1200, 0x02, 0x02, 1, .H, .imm, true, 0, 0x01, false⟩,
  ⟨0x1200, 0x1200, 0x03, 0x03, 1, .S, .imm, false, 0, 0x1E, false⟩,
  ⟨0x1400, 0x1400, 0x01, 0x01, 16, .W, .imm, false, 0, 0, false⟩,
  ⟨0x1400, 0x1400, 0x02, 0x02, 24, .R, .ro, false, 0, 0, false⟩,
  ⟨0x1400, 0x1400, 0x03, 0x03, 2, .R, .ro, false, 0, 0, false⟩,
  ⟨0x1400, 0x1400, 0x04, 0x04, 1, .W, .imm, false, 0, 0, false⟩]

/-- Tables 18.5 to 18.8: clocks and frames, tiles, memory. -/
def entryRowsB : List EntryRow := [
  ⟨0x2000, 0x2000, 0x01, 0x01, 1, .S, .staged, false, 0, 8, false⟩,
  ⟨0x2000, 0x2000, 0x02, 0x02, 1, .S, .staged, false, 0, 0, false⟩,
  ⟨0x2000, 0x2000, 0x04, 0x04, 2, .S, .staged, false, 0, 64, false⟩,
  ⟨0x2000, 0x2000, 0x05, 0x05, 1, .S, .staged, false, 0, 0xFF, false⟩,
  ⟨0x2000, 0x2000, 0x06, 0x06, 2, .S, .staged, false, 0, 0, false⟩,
  ⟨0x2000, 0x2000, 0x07, 0x07, 1, .S, .staged, false, 0, 0, false⟩,
  ⟨0x2000, 0x2000, 0x08, 0x08, 8, .R, .ro, false, 0, 0, false⟩,
  ⟨0x2000, 0x2000, 0x09, 0x09, 1, .R, .ro, false, 0, 0, false⟩,
  ⟨0x2001, 0x2001, 0x01, 0x01, 1, .S, .staged, false, 0, 4, false⟩,
  ⟨0x2002, 0x2002, 0x01, 0x09, 4, .S, .staged, false, 0, 0, false⟩,
  ⟨0x2003, 0x2003, 0x01, 0x09, 4, .R, .ro, false, 0, 0, false⟩,
  ⟨0x2400, 0x2400, 0x01, 0x80, 2, .P, .ro, false, 0, 0, false⟩,
  ⟨0x2430, 0x2430, 0x01, 0x80, 24, .R, .ro, false, 0, 0, false⟩,
  ⟨0x2440, 0x2441, 0x01, 0x40, 32, .T, .staged, false, 2, 0, false⟩,
  ⟨0x2450, 0x2450, 0x03, 0x09, 132, .R, .ro, true, 0, 0, false⟩,
  ⟨0x2460, 0x2460, 0x01, 0x80, 32, .R, .ro, false, 0, 0, false⟩,
  ⟨0x2800, 0x2800, 0x01, 0x01, 8, .S, .staged, false, 3, 0, false⟩,
  ⟨0x2800, 0x2800, 0x02, 0x02, 8, .R, .ro, false, 0, 0, false⟩,
  ⟨0x2801, 0x2801, 0x01, 0x01, 1, .S, .phased, false, 4, 1, false⟩,
  ⟨0x2801, 0x2801, 0x02, 0x02, 1, .R, .ro, false, 0, 0, false⟩,
  ⟨0x2802, 0x2802, 0x01, 0x01, 2, .S, .imm, false, 0, 24, false⟩,
  ⟨0x2802, 0x2802, 0x02, 0x02, 8, .R, .ro, false, 0, 0, false⟩,
  ⟨0x2804, 0x2804, 0x01, 0x03, 8, .T, .staged, false, 0, 0, false⟩,
  ⟨0x2810, 0x2817, 0x01, 0x40, 32, .R, .ro, false, 0, 0, false⟩,
  ⟨0x2820, 0x2820, 0x01, 0x80, 72, .R, .ro, false, 0, 0, false⟩,
  ⟨0x2821, 0x2821, 0x01, 0x02, 48, .R, .ro, false, 0, 0, false⟩,
  ⟨0x2822, 0x2822, 0x01, 0x02, 32, .R, .ro, false, 0, 0, false⟩]

/-- Tables 18.9 to 18.11: power, ports and lanes, network interface, routing and multicast. The defaults of
the drive amplitude and wake threshold follow the port's kind; -1,800 is its two's complement. -/
def entryRowsC : List EntryRow := [
  ⟨0x3000, 0x3000, 0x01, 0x01, 2, .S, .staged, true, 0, 1400, false⟩,
  ⟨0x3000, 0x3000, 0x02, 0x02, 2, .S, .staged, true, 0, 380, false⟩,
  ⟨0x3000, 0x3000, 0x03, 0x03, 1, .S, .staged, false, 0, 100, false⟩,
  ⟨0x3000, 0x3000, 0x04, 0x04, 1, .S, .staged, false, 0, 103, false⟩,
  ⟨0x3000, 0x3000, 0x05, 0x05, 2, .S, .staged, false, 0, 64, false⟩,
  ⟨0x3000, 0x3000, 0x10, 0x10, 4, .R, .ro, false, 0, 0, false⟩,
  ⟨0x3000, 0x3000, 0x11, 0x11, 8, .R, .ro, false, 0, 0, false⟩,
  ⟨0x3000, 0x3000, 0x12, 0x12, 16, .R, .ro, false, 0, 0, false⟩,
  ⟨0x3001, 0x3001, 0x01, 0x02, 34, .R, .ro, false, 0, 0, false⟩,
  ⟨0x3002, 0x3002, 0x01, 0x08, 2, .R, .ro, false, 0, 0, false⟩,
  ⟨0x3003, 0x3003, 0x01, 0x01, 64, .R, .ro, false, 0, 0, false⟩,
  ⟨0x4000, 0x4008, 0x01, 0x01, 1, .S, .staged, false, 1, 0, false⟩,
  ⟨0x4000, 0x4008, 0x02, 0x02, 1, .S, .imm, false, 0, 0, false⟩,
  ⟨0x4000, 0x4008, 0x03, 0x03, 1, .R, .ro, false, 0, 0, false⟩,
  ⟨0x4000, 0x4003, 0x04, 0x04, 4, .S, .staged, false, 0, 2500, false⟩,
  ⟨0x4004, 0x4007, 0x04, 0x04, 4, .S, .staged, false, 0, 0xFFFFF8F8, false⟩,
  ⟨0x4008, 0x4008, 0x04, 0x04, 4, .S, .staged, false, 0, 2500, false⟩,
  ⟨0x4000, 0x4008, 0x05, 0x05, 2, .S, .staged, false, 0, 200, false⟩,
  ⟨0x4000, 0x4008, 0x06, 0x06, 1, .S, .staged, false, 0, 4, false⟩,
  ⟨0x4000, 0x4008, 0x07, 0x07, 1, .S, .staged, false, 0, 0, false⟩,
  ⟨0x4000, 0x4003, 0x08, 0x08, 2, .S, .staged, false, 1, 800, false⟩,
  ⟨0x4004, 0x4007, 0x08, 0x08, 2, .S, .staged, false, 1, 0, false⟩,
  ⟨0x4008, 0x4008, 0x08, 0x08, 2, .S, .staged, false, 1, 800, false⟩,
  ⟨0x4000, 0x4008, 0x10, 0x10, 16, .R, .ro, false, 0, 0, false⟩,
  ⟨0x4000, 0x4008, 0x11, 0x11, 80, .R, .ro, false, 0, 0, false⟩,
  ⟨0x4004, 0x4007, 0x12, 0x12, 160, .R, .ro, false, 0, 0, false⟩,
  ⟨0x4010, 0x4013, 0x01, 0x10, 43, .R, .ro, false, 0, 0, false⟩,
  ⟨0x4014, 0x4017, 0x01, 0x08, 43, .R, .ro, false, 0, 0, false⟩,
  ⟨0x4018, 0x4018, 0x01, 0x20, 43, .R, .ro, false, 0, 0, false⟩,
  ⟨0x4040, 0x4040, 0x01, 0x40, 288, .S, .staged, false, 0, 2 ^ 2304 - 1, false⟩,
  ⟨0x4800, 0x4800, 0x01, 0x02, 4, .S, .staged, false, 0, 0, false⟩,
  ⟨0x4800, 0x4800, 0x03, 0x03, 1, .S, .staged, false, 0, 0, false⟩,
  ⟨0x4800, 0x4800, 0x04, 0x04, 1, .R, .ro, false, 0, 0, false⟩,
  ⟨0x4801, 0x4802, 0x01, 0x01, 28, .S, .imm, false, 0, 0, false⟩,
  ⟨0x4801, 0x4802, 0x02, 0x02, 4, .S, .imm, false, 0, 0, false⟩,
  ⟨0x4801, 0x4802, 0x10, 0x1F, 8, .S, .imm, false, 0, 0, false⟩,
  ⟨0x4803, 0x4803, 0x01, 0x01, 64, .R, .ro, false, 0, 0, false⟩,
  ⟨0x4804, 0x4804, 0x01, 0x01, 32, .R, .ro, false, 0, 0, false⟩,
  ⟨0x4805, 0x4805, 0x01, 0x01, 72, .R, .ro, false, 0, 0, false⟩,
  ⟨0x4806, 0x4806, 0x01, 0x01, 49, .R, .ro, false, 0, 0, false⟩,
  ⟨0x4807, 0x4807, 0x01, 0x01, 2, .T, .staged, false, 0, 0x0101, false⟩,
  ⟨0x4807, 0x4807, 0x02, 0x02, 3, .T, .staged, false, 0, 0x100401, false⟩,
  ⟨0x4A00, 0x4A1F, 0x01, 0x80, 32, .T, .staged, false, 6, 0, false⟩]

/-- Table 18.12: a tenant's entries. -/
def entryRowsD : List EntryRow := [
  ⟨0x5000, 0x53FF, 0x01, 0x01, 1, .T, .staged, false, 0, 0, false⟩,
  ⟨0x5000, 0x53FF, 0x02, 0x02, 1, .P, .ro, false, 0, 0, false⟩,
  ⟨0x5000, 0x53FF, 0x03, 0x03, 1, .T, .staged, false, 0, 0, false⟩,
  ⟨0x5000, 0x53FF, 0x04, 0x04, 4, .T, .staged, false, 0, 0, false⟩,
  ⟨0x5000, 0x53FF, 0x05, 0x05, 8, .X, .imm, false, 0, 0, false⟩,
  ⟨0x5000, 0x53FF, 0x06, 0x06, 16, .X, .imm, false, 0, 0, false⟩,
  ⟨0x5000, 0x53FF, 0x07, 0x07, 1, .X, .imm, false, 0, 0, false⟩,
  ⟨0x5000, 0x53FF, 0x08, 0x08, 16, .T, .staged, false, 0, 0, false⟩,
  ⟨0x5000, 0x53FF, 0x09, 0x09, 2, .T, .staged, false, 0, 0xFF00, false⟩,
  ⟨0x5000, 0x53FF, 0x0A, 0x0A, 8, .T, .staged, false, 0, 0, false⟩,
  ⟨0x5000, 0x53FF, 0x0B, 0x0B, 4, .T, .staged, false, 0, 0, false⟩,
  ⟨0x5000, 0x53FF, 0x0C, 0x0C, 1, .T, .staged, false, 0, 8, false⟩,
  ⟨0x5000, 0x53FF, 0x0D, 0x0D, 8, .T, .staged, false, 0, 0, false⟩,
  ⟨0x5000, 0x53FF, 0x10, 0x10, 8, .T, .staged, false, 0, 0, false⟩,
  ⟨0x5000, 0x53FF, 0x20, 0x2F, 16, .T, .staged, false, 0, 0, false⟩,
  ⟨0x5000, 0x53FF, 0x30, 0x30, 128, .T, .staged, false, 0, 0, false⟩,
  ⟨0x5000, 0x53FF, 0x31, 0x31, 2, .T, .staged, false, 0, 0xFFFF, false⟩,
  ⟨0x5000, 0x53FF, 0x32, 0x32, 8, .T, .staged, false, 0, 0, false⟩,
  ⟨0x5000, 0x53FF, 0x33, 0x33, 2, .T, .staged, false, 0, 64, false⟩,
  ⟨0x5000, 0x53FF, 0x34, 0x34, 4, .T, .staged, false, 0, 1000, false⟩,
  ⟨0x5000, 0x53FF, 0x35, 0x35, 4, .T, .staged, false, 0, 20, false⟩,
  ⟨0x5000, 0x53FF, 0x38, 0x38, 32, .T, .staged, false, 0, 0, false⟩,
  ⟨0x5000, 0x53FF, 0x40, 0x4F, 64, .T, .staged, false, 5, 0, false⟩,
  ⟨0x5000, 0x53FF, 0x50, 0x5F, 32, .T, .staged, false, 5, 0, false⟩,
  ⟨0x5000, 0x53FF, 0x60, 0x60, 72, .P, .ro, false, 0, 0, false⟩]

/-- Tables 18.13 to 18.15: twin, transports, telemetry, observation, event log, locked diagnostics. -/
def entryRowsE : List EntryRow := [
  ⟨0x6000, 0x6000, 0x01, 0x01, 4, .S, .staged, false, 0, 0xFFFFFFFF, false⟩,
  ⟨0x6000, 0x6000, 0x02, 0x02, 1, .R, .ro, false, 0, 0, false⟩,
  ⟨0x6000, 0x6000, 0x03, 0x03, 2, .S, .staged, false, 0, 512, false⟩,
  ⟨0x6000, 0x6000, 0x04, 0x04, 1, .S, .staged, false, 0, 50, false⟩,
  ⟨0x6000, 0x6000, 0x05, 0x05, 2, .S, .staged, false, 0, 1000, false⟩,
  ⟨0x6000, 0x6000, 0x06, 0x06, 1, .T, .staged, false, 0, 0, false⟩,
  ⟨0x6000, 0x6000, 0x08, 0x08, 8, .R, .ro, false, 0, 0, false⟩,
  ⟨0x6001, 0x6001, 0x01, 0x01, 64, .R, .ro, false, 0, 0, false⟩,
  ⟨0x6800, 0x6800, 0x01, 0x01, 1, .S, .staged, true, 0, 1, false⟩,
  ⟨0x6800, 0x6800, 0x02, 0x02, 1, .S, .staged, true, 0, 31, false⟩,
  ⟨0x6800, 0x6800, 0x03, 0x03, 1, .S, .staged, true, 0, 32, false⟩,
  ⟨0x6800, 0x6800, 0x04, 0x04, 1, .S, .staged, true, 0, 0, false⟩,
  ⟨0x6800, 0x6800, 0x05, 0x05, 1, .S, .staged, true, 0, 32, false⟩,
  ⟨0x6800, 0x6800, 0x06, 0x06, 8, .R, .ro, true, 0, 0, false⟩,
  ⟨0x6800, 0x6800, 0x10, 0x10, 64, .R, .ro, false, 0, 0, false⟩,
  ⟨0x6801, 0x6801, 0x01, 0x01, 1, .S, .staged, false, 0, 1, false⟩,
  ⟨0x6801, 0x6801, 0x02, 0x02, 1, .R, .ro, false, 0, 0, false⟩,
  ⟨0x6802, 0x6802, 0x01, 0x01, 1, .R, .ro, false, 0, 0, false⟩,
  ⟨0x6803, 0x6803, 0x01, 0x01, 1, .R, .ro, false, 0, 0, false⟩,
  ⟨0x6803, 0x6803, 0x02, 0x02, 1, .S, .staged, true, 0, 2, false⟩,
  ⟨0x6803, 0x6803, 0x03, 0x03, 32, .R, .ro, false, 0, 0, false⟩,
  ⟨0x7000, 0x7000, 0x01, 0x01, 8, .R, .ro, false, 0, 0, false⟩,
  ⟨0x7000, 0x7000, 0x02, 0x02, 40, .R, .ro, false, 0, 0, false⟩,
  ⟨0x7000, 0x7000, 0x03, 0x03, 32, .R, .ro, false, 0, 0, false⟩,
  ⟨0x7001, 0x7001, 0x01, 0x0D, 8, .R, .ro, false, 0, 0, false⟩,
  ⟨0x7800, 0x7800, 0x01, 0x01, 1, .S, .staged, false, 0, 16, false⟩,
  ⟨0x7800, 0x7800, 0x02, 0x03, 16, .S, .staged, false, 0, 0, false⟩,
  ⟨0x7800, 0x7800, 0x04, 0x04, 1, .S, .staged, false, 0, 1, false⟩,
  ⟨0x7801, 0x7801, 0x01, 0x01, 32, .R, .ro, false, 0, 0, false⟩,
  ⟨0x8000, 0x8000, 0x01, 0x01, 24, .P, .ro, false, 0, 0, false⟩,
  ⟨0x8000, 0x8000, 0x02, 0x02, 131072, .P, .ro, false, 0, 0, false⟩,
  ⟨0x8000, 0x8000, 0x03, 0x03, 8192, .P, .ro, true, 0, 0, false⟩,
  ⟨0x8000, 0x8000, 0x04, 0x04, 1, .X, .imm, true, 0, 0, false⟩,
  ⟨0x8000, 0x8000, 0x05, 0x05, 8, .P, .ro, true, 0, 0, false⟩,
  ⟨0xF000, 0xF000, 0x01, 0x01, 8, .L, .imm, false, 0, 0, false⟩,
  ⟨0xF000, 0xF000, 0x02, 0x02, 65536, .L, .imm, false, 0, 0, false⟩,
  ⟨0xF001, 0xF001, 0x01, 0x01, 4, .L, .imm, false, 0, 0, false⟩]

/-- Every entry of the dictionary (R393). -/
def entryRows : List EntryRow := entryRowsA ++ entryRowsB ++ entryRowsC ++ entryRowsD ++ entryRowsE

/-- Whether a row covers index `idx`. -/
def EntryRow.hasIndex (r : EntryRow) (idx : Nat) : Bool := decide (r.i0 ≤ idx) && decide (idx ≤ r.i1)

/-- Whether a row covers subindex `sub`. -/
def EntryRow.hasSub (r : EntryRow) (sub : Nat) : Bool := decide (r.s0 ≤ sub) && decide (sub ≤ r.s1)

/-- The row of an entry. -/
def entryOf (idx sub : Nat) : Option EntryRow := entryRows.find? fun r => r.hasIndex idx && r.hasSub sub

/-- The highest subindex present at an index, which subindex 0x00 reads (R393). -/
def highestSub (idx : Nat) : Nat :=
  entryRows.foldl (fun m r => if r.hasIndex idx then max m r.s1 else m) 0

/-- The default of an entry; 0 where its table gives none. -/
def entryDefault (idx sub : Nat) : Nat :=
  match entryOf idx sub with
  | some r => r.dflt
  | none => 0

/-- Whether a role may read an entry of a profile (Table 18.1). -/
def Profile.canRead : Profile → Role → Bool
  | .S, _ => true
  | .T, .twin => false
  | .T, _ => true
  | .R, _ => true
  | .P, .twin => false
  | .P, _ => true
  | .W, _ => false
  | .X, _ => false
  | .H, _ => true
  | .L, .twin => false
  | .L, _ => true

/-- Whether a role may write an entry of a profile (Table 18.1). -/
def Profile.canWrite : Profile → Role → Bool
  | .S, _ => true
  | .T, .twin => false
  | .T, _ => true
  | .R, _ => false
  | .P, _ => false
  | .W, _ => true
  | .X, .twin => false
  | .X, _ => true
  | .H, .host => true
  | .H, _ => false
  | .L, .twin => false
  | .L, _ => true

/-- A streamed entry is a BLOB of more than 1,024 bytes (R378). -/
def EntryRow.streamed (r : EntryRow) : Bool := decide (r.len > 1024)

/-- The smallest quiesce timeout of a class [ms] (Table 18.2); class 0 has none. -/
def quiesceTimeout : Nat → Nat
  | 1 => 10
  | 2 => 1
  | 3 => 100
  | 4 => 1
  | 5 => 1
  | 6 => 10
  | _ => 0

end Sys2Proof.Machine
end

