-- ==== Sys2Proof/Machine/EventCodes.lean ====
section
/-!
DEFINITION. The event numbers of Table 22.5, one name each.
-/
namespace Sys2Proof.Machine

/-- FRAME_SLIP (class 4 stretch, 2 fault; R45). -/
def evFrameSlip : Nat := 0x001

/-- SLIP_OVERRUN (class 2; R46). -/
def evSlipOverrun : Nat := 0x002

/-- TICK_LATE (class 4; R37). -/
def evTickLate : Nat := 0x003

/-- TICK_MISSED (class 4; R39). -/
def evTickMissed : Nat := 0x004

/-- TICK_LOST (class 2; R39). -/
def evTickLost : Nat := 0x005

/-- TICK_SEQUENCE (class 2; R41). -/
def evTickSequence : Nat := 0x006

/-- PERIOD_MISMATCH (class 2; R41). -/
def evPeriodMismatch : Nat := 0x007

/-- TICK_OFF_TREE (class 4; R34). -/
def evTickOffTree : Nat := 0x008

/-- TICK_DEPTH (class 4; R51). -/
def evTickDepth : Nat := 0x009

/-- LINK_DELAY_STEP (class 4; R35). -/
def evLinkDelayStep : Nat := 0x00A

/-- FRAME_IN_MISSING (class 4; R32). -/
def evFrameInMissing : Nat := 0x00B

/-- STRETCH_LATE (class 2; R49). -/
def evStretchLate : Nat := 0x00C

/-- STRETCH_LIMIT (class 4; R47). -/
def evStretchLimit : Nat := 0x00D

/-- RUN_COMPLETE (class 4; Table 2.11). -/
def evRunComplete : Nat := 0x00E

/-- RUN_HALT_REQUESTED (class 2; R50). -/
def evRunHaltRequested : Nat := 0x00F

/-- MATRIX_SHAPE (class 1; Table 3.12, R80). -/
def evMatrixShape : Nat := 0x101

/-- MATRIX_ROW_RANGE (class 1; Table 3.12). -/
def evMatrixRowRange : Nat := 0x102

/-- MATRIX_OPERAND_RANGE (class 1; Table 3.12). -/
def evMatrixOperandRange : Nat := 0x103

/-- MATRIX_REUSE (class 1; R58). -/
def evMatrixReuse : Nat := 0x104

/-- SCRATCH_UE (class 2; Table 3.12). -/
def evScratchUe : Nat := 0x105

/-- WEIGHT_PARITY (class 2; Table 3.12). -/
def evWeightParity : Nat := 0x106

/-- COLLECTOR_REJECT (class 1; R70). -/
def evCollectorReject : Nat := 0x107

/-- COLLECTOR_BLOCKED (class 4; R74). -/
def evCollectorBlocked : Nat := 0x108

/-- COLLECTOR_DROP (class 4; R74). -/
def evCollectorDrop : Nat := 0x109

/-- OUTPUT_CONFIG (class 1; R104). -/
def evOutputConfig : Nat := 0x10A

/-- ACCUM_UE (class 2; Table 4.11). -/
def evAccumUe : Nat := 0x10B

/-- VECTOR_CONFIG (class 1; R130). -/
def evVectorConfig : Nat := 0x10C

/-- VREG_UE (class 2; Table 5.9). -/
def evVregUe : Nat := 0x10D

/-- RNN_CONFIG (class 1; R124). -/
def evRnnConfig : Nat := 0x10E

/-- RNN_CONFLICT (class 1; R125). -/
def evRnnConflict : Nat := 0x10F

/-- CORE_ILLEGAL (class 1; R136). -/
def evCoreIllegal : Nat := 0x110

/-- CORE_PC (class 1; R137). -/
def evCorePc : Nat := 0x111

/-- CORE_ADDR (class 1; R137). -/
def evCoreAddr : Nat := 0x112

/-- WORD_HEADER (class 1; R142). -/
def evWordHeader : Nat := 0x113

/-- WORD_FIELD (class 1; R143). -/
def evWordField : Nat := 0x114

/-- IMEM_CE (class 0; Table 6.15). -/
def evImemCe : Nat := 0x115

/-- IMEM_UE (class 2; Table 6.15). -/
def evImemUe : Nat := 0x116

/-- DMA_CONFIG (class 1; Table 7.12). -/
def evDmaConfig : Nat := 0x201

/-- XLATE_FAULT (class 1; R170). -/
def evXlateFault : Nat := 0x202

/-- SCRATCH_OWNER (class 1; R164). -/
def evScratchOwner : Nat := 0x203

/-- XLATE_WALK_UE (class 2; R174). -/
def evXlateWalkUe : Nat := 0x204

/-- HBM_CE (class 0; R174). -/
def evHbmCe : Nat := 0x205

/-- SRAM_CE (class 0; R176). -/
def evSramCe : Nat := 0x206

/-- MIRROR_REPAIR (class 0; R174). -/
def evMirrorRepair : Nat := 0x207

/-- HBM_UE (class 2; R174). -/
def evHbmUe : Nat := 0x208

/-- HBM_UE_LATENT (class 4; R175). -/
def evHbmUeLatent : Nat := 0x209

/-- MIRROR_STORE_UE (class 4; R174). -/
def evMirrorStoreUe : Nat := 0x20A

/-- COUNTER_DECREASE (class 1; R189). -/
def evCounterDecrease : Nat := 0x301

/-- COUNTER_WRAP (class 1; R190). -/
def evCounterWrap : Nat := 0x302

/-- COUNTER_RANGE (class 1; R139, R193). -/
def evCounterRange : Nat := 0x303

/-- COUNTER_UE (class 2; R199). -/
def evCounterUe : Nat := 0x304

/-- COUNTER_STALE (class 4; R195). -/
def evCounterStale : Nat := 0x305

/-- REEL_DESC (class 1; Table 9.12). -/
def evReelDesc : Nat := 0x306

/-- REEL_TIMEOUT (class 4; R210). -/
def evReelTimeout : Nat := 0x307

/-- DOORBELL_DROP (class 4; R206). -/
def evDoorbellDrop : Nat := 0x308

/-- QUEUE_PTR (class 2 items, 4 none; R222). -/
def evQueuePtr : Nat := 0x309

/-- QUEUE_UE (class 2; R223). -/
def evQueueUe : Nat := 0x30A

/-- FABRIC_HEADER (class 4; R234). -/
def evFabricHeader : Nat := 0x401

/-- ROUTE_UNREACHABLE (class 4; R235). -/
def evRouteUnreachable : Nat := 0x402

/-- PKT_LIFETIME (class 4; R245). -/
def evPktLifetime : Nat := 0x403

/-- EPOCH_STALE (class 4; R245). -/
def evEpochStale : Nat := 0x404

/-- FABRIC_UE (class 4; R248). -/
def evFabricUe : Nat := 0x405

/-- SLOT_CONFLICT (class 4; R239). -/
def evSlotConflict : Nat := 0x406

/-- SLOT_OVERRUN (class 4; R239). -/
def evSlotOverrun : Nat := 0x407

/-- MCAST_REJECT (class 4; R240). -/
def evMcastReject : Nat := 0x408

/-- RANK_MISDELIVERED (class 4; R232). -/
def evRankMisdelivered : Nat := 0x409

/-- RANK_INVALID (class 1; R231). -/
def evRankInvalid : Nat := 0x40A

/-- TX_FAILED (class 1 word or chain, 4 reel; R262, R306). -/
def evTxFailed : Nat := 0x40B

/-- TX_RECOVERED (class 4; R262). -/
def evTxRecovered : Nat := 0x40C

/-- LINK_CRC (class 0; R275). -/
def evLinkCrc : Nat := 0x501

/-- LINK_RETRAIN (class 4; R280). -/
def evLinkRetrain : Nat := 0x502

/-- LINK_DOWN (class 4; R287). -/
def evLinkDown : Nat := 0x503

/-- LINK_UP (class 4; R287). -/
def evLinkUp : Nat := 0x504

/-- LINK_MISCABLED (class 4; R279). -/
def evLinkMiscabled : Nat := 0x505

/-- LINK_TRAIN_FAIL (class 4; Table 12.9). -/
def evLinkTrainFail : Nat := 0x506

/-- LANE_WAKE_LATE (class 4; R284). -/
def evLaneWakeLate : Nat := 0x507

/-- LANE_FAULT (class 4; R284). -/
def evLaneFault : Nat := 0x508

/-- LANE_PLAN_MISSING (class 4; R282). -/
def evLanePlanMissing : Nat := 0x509

/-- NOISE_MARGIN (class 4; R286). -/
def evNoiseMargin : Nat := 0x50A

/-- COLL_NOT_MEMBER (class 1; R295). -/
def evCollNotMember : Nat := 0x601

/-- COLL_OVERFLOW (class 2; R296, R297). -/
def evCollOverflow : Nat := 0x602

/-- COLL_LATE (class 4 stretch, 2 fault; R310). -/
def evCollLate : Nat := 0x603

/-- COLL_REJECT (class 4; R311). -/
def evCollReject : Nat := 0x604

/-- CHAIN_CONFIG (class 1; R306). -/
def evChainConfig : Nat := 0x605

/-- REDUCE_RECOMPUTE (class 0; R309). -/
def evReduceRecompute : Nat := 0x606

/-- REDUCE_RESIDUE (class 4; R309). -/
def evReduceResidue : Nat := 0x607

/-- REDUCE_FENCED_ALL (class 3; R309). -/
def evReduceFencedAll : Nat := 0x608

/-- TWIN_SUSPECT (class 4; R325). -/
def evTwinSuspect : Nat := 0x701

/-- TWIN_LOST (class 4; R328). -/
def evTwinLost : Nat := 0x702

/-- TWIN_UNPROTECTED (class 4; R326). -/
def evTwinUnprotected : Nat := 0x703

/-- TWIN_LOSS_UNSEEDED (class 2; R326). -/
def evTwinLossUnseeded : Nat := 0x704

/-- TWIN_DEPOSED (class 2; R327). -/
def evTwinDeposed : Nat := 0x705

/-- TWIN_UNREACHABLE (class 1; Table 14.7). -/
def evTwinUnreachable : Nat := 0x706

/-- FAILOVER_SPLICE (class 4; R328). -/
def evFailoverSplice : Nat := 0x707

/-- REINTEGRATE_READY (class 4; R334). -/
def evReintegrateReady : Nat := 0x708

/-- REINTEGRATED (class 4; R335). -/
def evReintegrated : Nat := 0x709

/-- MIRROR_PROTECTED (class 4; R322). -/
def evMirrorProtected : Nat := 0x70A

/-- MIRROR_LATE (class 4 stretch, 2 fault; R320). -/
def evMirrorLate : Nat := 0x70B

/-- MIRROR_JOURNAL_FULL (class 4; R320). -/
def evMirrorJournalFull : Nat := 0x70C

/-- WINDOW_OVERRUN (class 2; R345). -/
def evWindowOverrun : Nat := 0x801

/-- DEADLINE_MISSED (class 4; R353). -/
def evDeadlineMissed : Nat := 0x802

/-- DEADLINE_STREAM_FAULT (class 1; R358). -/
def evDeadlineStreamFault : Nat := 0x803

/-- INGEST_QUARANTINE (class 4; 1 with halt flag; R356). -/
def evIngestQuarantine : Nat := 0x804

/-- INGEST_GAP (class 4; R356). -/
def evIngestGap : Nat := 0x805

/-- CUE_CHARGE (class 1; R365). -/
def evCueCharge : Nat := 0x811

/-- CUE_OVERDRAW (class 4; R366). -/
def evCueOverdraw : Nat := 0x812

/-- POWER_OVERCOMMIT (class 4; R364). -/
def evPowerOvercommit : Nat := 0x813

/-- POWER_HOLD (class 4; R368). -/
def evPowerHold : Nat := 0x814

/-- THERMAL_WARN (class 4; R371). -/
def evThermalWarn : Nat := 0x815

/-- THERMAL_EMERGENCY (class 4; R371). -/
def evThermalEmergency : Nat := 0x816

/-- SENSOR_FAULT (class 4; R370). -/
def evSensorFault : Nat := 0x817

/-- THERMAL_TRIP (class 3; R373). -/
def evThermalTrip : Nat := 0x818

/-- LEASE_FORCED (class 4; R385). -/
def evLeaseForced : Nat := 0x901

/-- LEASE_EXPIRED (class 4; R385). -/
def evLeaseExpired : Nat := 0x902

/-- COMMIT_DONE (class 4; R388). -/
def evCommitDone : Nat := 0x903

/-- COMMIT_REFUSED (class 4; R388, R389). -/
def evCommitRefused : Nat := 0x904

/-- NOTIFY_OVERFLOW (class 4; R390). -/
def evNotifyOverflow : Nat := 0x905

/-- SPDM_FAIL (class 4; R392). -/
def evSpdmFail : Nat := 0x906

/-- ACCESS_WIDTH (class 4; R413). -/
def evAccessWidth : Nat := 0x911

/-- ACCESS_ALIGN (class 4; R413). -/
def evAccessAlign : Nat := 0x912

/-- REG_REFUSED (class 4; R415, R418). -/
def evRegRefused : Nat := 0x913

/-- INV_OVERFLOW (class 4; R418). -/
def evInvOverflow : Nat := 0x914

/-- MBX_BUSY (class 4; R423, R426). -/
def evMbxBusy : Nat := 0x915

/-- HOST_READ_FAIL (class 1; R422). -/
def evHostReadFail : Nat := 0x916

/-- PCIE_CE (class 0; R426). -/
def evPcieCe : Nat := 0x917

/-- PCIE_UE (class 4; R426). -/
def evPcieUe : Nat := 0x918

/-- PCIE_INTERNAL (class 3; R426). -/
def evPcieInternal : Nat := 0x919

/-- BOOT_READY (class 4; R436). -/
def evBootReady : Nat := 0xA01

/-- BOOT_FAILED (class 4; R434). -/
def evBootFailed : Nat := 0xA02

/-- BOOT_FALLBACK (class 4; R436). -/
def evBootFallback : Nat := 0xA03

/-- HBM_RATE_REDUCED (class 4; R437). -/
def evHbmRateReduced : Nat := 0xA04

/-- MINIMAL_MODE (class 3; R438). -/
def evMinimalMode : Nat := 0xA05

/-- FW_VERIFY_FAIL (class 4; R441). -/
def evFwVerifyFail : Nat := 0xA06

/-- OBS_CONFIG (class 4; R449, R452). -/
def evObsConfig : Nat := 0xA11

/-- OBS_DROP (class 4; R450). -/
def evObsDrop : Nat := 0xA12

/-- OBS_HOLD (class 4; R455). -/
def evObsHold : Nat := 0xA13

/-- OBS_FAULT (class 4; R460). -/
def evObsFault : Nat := 0xA14

end Sys2Proof.Machine
end

