-- ==== Sys2Proof/Machine/State.lean ====
section
/-!
DEFINITION. The state of the block as plain data: every register, memory, queue, counter and mode that the
spec gives the Dravlis JX1, and the queue of commands that wait.
-/
namespace Sys2Proof.Machine

/-- Why a machine stops with a fault. The spec gives every command of the block an effect, so none does. -/
inductive Fault where
  /-- Raised by no command; kept so that a stop has a name if one is ever needed. Safe. -/
  | none
  deriving DecidableEq, Repr

/-- Why a command is refused. -/
inductive Refusal where
  /-- The command has no meaning yet. Safe: nothing is claimed of it. -/
  | notModelled (mnemonic : String)
  /-- The command names a unit the part does not have (a tile above 127, a port above 8, a reel above 1,151,
  a tenant above 1,023): no such command reaches the hardware. Safe. -/
  | noSuchUnit
  deriving DecidableEq, Repr

/-! ## Events (chapter 22) -/

/-- A raised event, with what its 32-byte record holds (Table 22.2). -/
structure Event where
  cls : Nat := 0
  num : Nat := 0
  tenant : Option Nat := none
  source : Nat := 0
  detail : Nat := 0
  halt : Bool := false
  taken : Bool := false
  frame : Nat := 0
  offset : Nat := 0
  raisedAt : Nat := 0
  repeats : Nat := 0
  seq : Nat := 0
  deriving DecidableEq, Repr

/-- What the collector remembers of one key CODE, TENANT, SOURCE (R468). -/
structure EventKey where
  lastRecorded : Option Nat := none
  unrecorded : Nat := 0
  deriving DecidableEq, Repr

/-- The event collector, the event log and the persistent ring (R467 to R469, R400). -/
structure Events where
  queue : List Event := []
  nextSeq : Nat := 0
  log : Table Event := []
  persistent : Table Event := []
  persistentCount : Nat := 0
  persistentWaiting : List Event := []
  keys : Table EventKey := []
  counts : Table Nat := []
  lastMc : Option Nat := none
  deriving DecidableEq, Repr

/-! ## The building clock (chapter 2) -/

/-- A tick that has been announced and whose local time is fixed (R36). -/
structure PlannedTick where
  frame : Nat
  time : Nat
  period : Nat
  hold : Bool
  hops : Nat
  late : Bool
  deriving DecidableEq, Repr

/-- The second copy of a tick ordered set that is still to leave (R34), and its LEAD. -/
structure SecondCopy where
  due : Nat
  frame : Nat
  period : Nat
  hold : Bool
  hops : Nat
  lead : Nat
  deriving DecidableEq, Repr

/-- The frame counter, the tick and the link-delay calibration (chapter 2). Times are in units of 50 ps. `edges`
holds each expected edge of FRAME_IN with the phase when it was announced; `phase` sums the corrections made and
`phaseError` is what is left of one. -/
structure Clock where
  frame : Nat := 0
  placed : Bool := false
  lastTick : Nat := 0
  resetAt : Nat := 0
  planned : List PlannedTick := []
  seconds : List SecondCopy := []
  missed : Nat := 0
  lost : Bool := false
  lastHops : Nat := 0
  ticksPlaced : Nat := 0
  depthRaised : Bool := false
  offTree : Nat := 0
  prepared : Bool := false
  stopped : Bool := false
  delays : Table (List Int) := []
  calSent : Table Nat := []
  edges : List (Nat × Int) := []
  edgeMissing : Nat := 0
  edgeIgnored : Nat := 0
  edgeHold : Bool := false
  edgeLocked : Bool := false
  phaseError : Int := 0
  phase : Int := 0
  freqMHz : Nat := 1800
  ccBase : Nat := 0
  ccAt : Nat := 0
  frameOut : Bool := false
  vcoreMv : Nat := 0
  stretchedFrames : Nat := 0
  slips : Nat := 0
  deriving DecidableEq, Repr

/-! ## Runs and tenants (chapters 1, 2, 15) -/

/-- The run states of Table 1.3; torn down is no run. -/
inductive RunState where
  | none | created | loaded | armed | running | halted
  deriving DecidableEq, Repr

/-- A stretch request waiting for its boundary (Table 2.8). -/
structure Stretch where
  target : Nat
  source : Nat
  logf : Nat
  fin : Bool
  deriving DecidableEq, Repr

/-- The header fields of the loaded container (Table 2.2), with its address. -/
structure Container where
  base : Nat := 0
  size : Nat := 0
  k : Nat := 0
  guard : Nat := 0
  margin : Nat := 0
  opp : Nat := 0
  notice : Nat := 0
  policy : Nat := 0
  start : Nat := 0
  prologue : Nat := 0
  cycle : Nat := 0
  rounds : Nat := 0
  frameTable : Nat := 0
  tileTable : Nat := 0
  tileMask : Nat := 0
  ifOff : Nat := 0
  ifSize : Nat := 0
  rankCount : Nat := 0
  peak : Nat := 0
  deriving DecidableEq, Repr

/-- A deadline stream's running state (R350 to R353). -/
structure DeadlineRun where
  base : Nat := 0
  judged : Nat := 0
  records : Nat := 0
  onTime : Nat := 0
  lastGood : Option Nat := none
  pending : List (Nat × Nat × Nat) := []
  dropped : List Nat := []
  missed : List Nat := []
  off : Bool := false
  deriving DecidableEq, Repr

/-- An ingest stream's running state as its check engine holds it (R354). -/
structure IngestRun where
  loaded : Bool := false
  off : Bool := false
  next : Nat := 0
  last : Nat := 0
  entries : Nat := 0
  tsv : Bool := false
  deriving DecidableEq, Repr

/-- One run's state on this device (chapters 1, 2, 13, 15, 16, 21). `entries` holds the entry addresses of the
segments as armed, under 65,536 tile + segment; `plan` the lane plan in force; `guarded` is one more than
the run frame whose guard band has begun, and `framesDue` the frames (rank context, index) whose entry is being read. -/
structure Run where
  state : RunState := .none
  haltPending : Bool := false
  teardownPending : Bool := false
  con : Container := {}
  entries : Table Nat := []
  rank : Nat := 0
  rankTable : Nat := 0
  index : Nat := 0
  spanLeft : Nat := 0
  factor : Nat := 1
  idle : Bool := false
  plan : Nat := 0xFFFFFFFF
  requests : List Stretch := []
  inForce : Table Nat := []
  slipLog : Nat := 0
  haltAt : Option Nat := none
  discarded : Nat := 0
  completeRaised : Bool := false
  guarded : Nat := 0
  framesDue : List (Nat × Nat) := []
  account : Nat := 0
  overdrawn : Bool := false
  deadline : Table DeadlineRun := []
  ingest : Table IngestRun := []
  onTime : Nat := 0
  late : Nat := 0
  droppedResults : Nat := 0
  substituted : Nat := 0
  discardedLate : Nat := 0
  accepted : Nat := 0
  quarantined : Nat := 0
  skipped : Nat := 0
  switches : Nat := 0
  deriving DecidableEq, Repr

/-! ## Tiles (chapters 3 to 6, 8) -/

/-- A segment begun or waiting to begin on a tile (R135). `ctx` 1 is a taken-over rank (R331). -/
structure Segment where
  tenant : Nat
  ctx : Nat
  rank : Nat
  index : Nat
  runFrame : Nat
  entry : Nat
  observed : Bool
  startedAt : Nat
  ended : Bool
  slipped : Bool
  deriving DecidableEq, Repr

/-- What holds a tile control core (R138, R191). -/
inductive CoreWait where
  | free
  | issueFull (a : Nat)
  | counter (pool : Bool) (index : Nat) (expected : Nat)
  | timed (pool : Bool) (index : Nat) (expected : Nat) (d : Nat) (deadline : Nat)
  | engines (mask : Nat)
  deriving DecidableEq, Repr

/-- How far an engine word has come (R143). `failed` retires without its signal. -/
inductive WordPhase where
  | queued | waitCue | deferred | granted | running | done | failed
  deriving DecidableEq, Repr

/-- An engine word with its snapshot (R142); `reel` names the reel and sequence number of a WORD descriptor. -/
structure QWord where
  word : BitVec 128
  snap : Nat
  tenant : Nat
  ctx : Nat
  reel : Option (Nat × Nat)
  local2 : Nat
  number : Nat
  phase : WordPhase
  status : Nat
  code : Nat := 0
  deriving DecidableEq, Repr

/-- A DMA descriptor of a chain or a reel TRANSFER, in flight (R168). -/
structure DmaRun where
  chain : Nat
  index : Nat
  desc : List (BitVec 8)
  started : Bool
  written : Bool
  failed : Bool
  waitMseq : Nat
  row : Nat
  held : Option (List (BitVec 8))
  deriving DecidableEq, Repr

/-- A DMA chain word in execution, or a reel TRANSFER (tile 128 + die for a complex). -/
structure Chain where
  tile : Nat
  tenant : Nat
  ctx : Nat
  base : Nat
  count : Nat
  nextIndex : Nat
  flight : List DmaRun
  reel : Option (Nat × Nat)
  number : Nat
  failed : Nat
  deriving DecidableEq, Repr

/-- A sequencer context that runs a word (R124 to R128). -/
structure SeqRun where
  number : Nat
  record : List (BitVec 8)
  base : Nat
  step : Nat
  left : Nat
  signalDue : Bool
  deriving DecidableEq, Repr

/-- The core registers of one rank context of a tile (R331). -/
structure CoreCtx where
  seg : Option Segment := none
  nextSegs : List Segment := []
  pc : Nat := 0
  wait : CoreWait := .free
  g : Table (BitVec 64) := []
  deriving DecidableEq, Repr

/-- One tile: core, engines, registers, counters. Its memories lie in the device's physical memory. `switchAt` is
the cycle at which a tenant switch began; `runCtx` the rank context the core runs, `other` the other one. -/
structure Tile where
  owner : Nat := 0xFFFF
  seg : Option Segment := none
  nextSegs : List Segment := []
  windowSegs : List Segment := []
  switchTo : Option Segment := none
  switchAt : Option Nat := none
  runCtx : Nat := 0
  pc : Nat := 0
  wait : CoreWait := .free
  stopped : Bool := false
  g : Table (BitVec 64) := []
  lc : Table (BitVec 64) := []
  lcPoison : Table Bool := []
  cfg : Table (BitVec 96) := []
  gen : Table (BitVec 32) := []
  queues : Table (List QWord) := []
  exec : Table (List QWord) := []
  issued : Nat := 0
  wActive : Table Nat := []
  wShadow : Table Nat := []
  wLoaded : Bool := false
  wParity : Bool := false
  xbuf : Table Nat := []
  xLoaded : Bool := false
  poison : Table Bool := []
  vr : List Host.Cell := []
  vrErr : Table Nat := []
  seqs : Table (Option SeqRun) := []
  seqLast : Option Nat := none
  arrayBusy : Bool := false
  arrayAt : Nat := 0
  mvBusy : Bool := false
  mvAt : Nat := 0
  other : CoreCtx := {}
  deriving DecidableEq, Repr

/-- Per-tile counts of the dictionary (0x2430, 0x2460, 0x2820). -/
structure TileCounts where
  saturated : Nat := 0
  nanWritten : Nat := 0
  toInf : Nat := 0
  ctrCorrected : Nat := 0
  ctrUncorrectable : Nat := 0
  ctrStale : Nat := 0
  ctrRemote : Nat := 0
  corrected : Table Nat := []
  deriving DecidableEq, Repr

/-! ## Batch collectors (chapter 3) -/

/-- A pending request: its record, tag and arrival time. -/
structure Request where
  row : Nat
  tag : Nat
  at_ : Nat
  frame : Nat
  offset : Nat
  deriving DecidableEq, Repr

/-- One stream's running state; its record lies in the dictionary (Table 3.7). -/
structure Stream where
  pending : List Request := []
  batch : Nat := 0
  dropped : Nat := 0
  blocked : Bool := false
  tickDue : Bool := false
  flush : Bool := false
  rejected : Nat := 0
  deriving DecidableEq, Repr

/-! ## Counters (chapter 8) -/

/-- Who waits on a pool counter (R192). -/
inductive Waiter where
  | core (tile : Nat)
  | seq (tile ctx : Nat)
  | collector (stream : Nat)
  | reel (reel : Nat)
  | chain (inst : Nat)
  deriving DecidableEq, Repr

/-- A watch at a counter slice (R192). -/
structure Watch where
  counter : Nat
  expected : Nat
  waiter : Waiter
  deriving DecidableEq, Repr

/-- The pool counters (R182 to R199). -/
structure Counters where
  pool : Table (BitVec 64) := []
  poison : Table Bool := []
  blockOwner : Table Nat := []
  watches : List Watch := []
  err : Table Nat := []
  reports : List (Nat × Nat × Nat) := []
  deriving DecidableEq, Repr

/-! ## Memories (chapter 7) -/

/-- An outstanding invalidation (R172, R418): function, tenant, range start, pages, all; `intr` asks for
entry 0 at its completion. -/
structure Invalidation where
  fn : Nat
  tenant : Nat
  va : Nat
  pages : Nat
  all : Bool
  intr : Bool
  deriving DecidableEq, Repr

/-- An entry of a TLB or of a walk cache (R171): the tenant, the size of what it covers in bits (16 and 21 for a page,
21 and 34 for a table entry that is not a leaf), the address divided by that size, and the entry's word. -/
structure Cached where
  tenant : Nat
  bits : Nat
  page : Nat
  word : Nat
  deriving DecidableEq, Repr

/-- Every memory of the device. `phys` is the 40-bit physical space: HBM and the tile windows (Table 7.2).
An error map gives each faulty 64-bit word 1 for a single-bit and 2 for an uncorrectable error. `tlbs` are the TLBs:
0 to 127 of a tile, 128 and 129 of a die, 130 of the network interface; `walks` the walk cache of each die. -/
structure Memories where
  phys : List Host.Cell := []
  imem : List Host.Cell := []
  host : List Host.Cell := []
  err : Table Nat := []
  imemErr : Table Nat := []
  hbmCounts : Table Nat := []
  hbmLast : Table Nat := []
  dieCounts : Table Nat := []
  tlbs : Table (List Cached) := []
  walks : Table (List Cached) := []
  refreshOld : Nat := 1
  refreshDone : Nat := 8
  refreshAt : Nat := 0
  scrubAt : Nat := 0
  scrubPasses : Nat := 0
  invalidations : List Invalidation := []
  repairs : List (Nat × Nat) := []
  armed : List Nat := []
  deriving DecidableEq, Repr

/-! ## Power (chapter 16) -/

/-- A cue request in a headroom queue (R366). -/
structure CueReq where
  tile : Nat
  eng : Nat
  number : Nat
  tenant : Nat
  charge : Nat
  deriving DecidableEq, Repr

/-- The power governor (chapter 16). Energies are in units of 0.25 uJ; a credit is 4,000 of them. -/
structure Power where
  pool : Nat := 0
  reserved : Nat := 0
  headroom : Int := 0
  haltCharge : Nat := 0
  floats : Table Nat := []
  fromAccount : List CueReq := []
  urgent : List CueReq := []
  planned : List CueReq := []
  bulk : List CueReq := []
  lastGrant : Option Nat := none
  deferred : List CueReq := []
  ramps : List (Nat × Nat) := []
  avgMw : Nat := 0
  energy : Nat := 0
  holdHeadroom : Bool := false
  holdAll : Bool := false
  belowSince : Option Nat := none
  holdRaised : Bool := false
  thermal : Nat := 0
  powerLevel : Nat := 0
  source1 : Nat := 0
  coolFrames : Nat := 0
  sensors : Table Int := []
  excluded : Table Bool := []
  tj : Option Int := none
  tjDie : Table Int := []
  thbm : Option Int := none
  stackTemps : Table Int := []
  hotSince : List (Nat × Nat) := []
  tripped : Bool := false
  counts : Table Nat := []
  deriving DecidableEq, Repr

/-! ## Reels (chapter 9) -/

/-- A descriptor fetched into a reel (R208), and how far it has come. -/
structure Desc where
  seq : Nat
  bytes : List (BitVec 8)
  atHead : Nat
  started : Bool
  status : Option Nat
  code : Nat
  signalled : Bool := false
  deriving DecidableEq, Repr

/-- One reel: the registers its context is written through (R420), the context taken at open (Table 9.2) and
its running state. `head` and `tail` count from the open without wrapping; `stopSaid` says that the stop has been
reported. -/
structure Reel where
  regs : Table Nat := []
  tenant : Nat := 0
  cls : Nat := 0
  ring : Nat := 0
  size : Nat := 0
  compl : Nat := 0
  vector : Nat := 0
  intmod : Nat := 0
  waitto : Nat := 0
  baseSeq : Nat := 0
  key : Nat := 0
  head : Nat := 0
  tail : Nat := 0
  lastSeq : Nat := 0
  state : Nat := 0
  openErr : Nat := 0
  closing : Bool := false
  descs : List Desc := []
  intLast : Option Nat := none
  intDue : Bool := false
  stopSaid : Bool := false
  deriving DecidableEq, Repr

/-! ## Management (chapters 17, 18) -/

/-- The write lease (R385): holder role 0 none, 1 host, 2 manager, 3 twin. -/
structure Lease where
  role : Nat := 0
  transport : Nat := 0
  address : Nat := 0
  epoch : Nat := 0
  expiry : Nat := 0
  deriving DecidableEq, Repr

/-- A remembered response (R379). -/
structure Answer where
  tid : Nat
  response : List (BitVec 8)
  at_ : Nat
  deriving DecidableEq, Repr

/-- One requester's idempotency window (R379). -/
structure Window where
  transport : Nat
  address : Nat
  used : Nat
  answers : List Answer
  deriving DecidableEq, Repr

/-- The last commit (Table 17.6, 0x1400:0x02) and, while it waits, what its record asks (Table 17.4). State:
0 none, 1 waiting, 2 applied, 3 refused, 4 phasing. `first` is the frame of its first evaluation, `polledAt` the
time of the last evaluation made without a tick, and `decided` the outcome that an evaluation has fixed for the
next tick: code (0 applies), index, subindex. -/
structure Commit where
  number : Nat := 0
  state : Nat := 0
  code : Nat := 0
  failIndex : Nat := 0
  failSub : Nat := 0
  tick : Nat := 0
  target : Nat := 0
  timeout : Nat := 0
  exact_ : Bool := false
  arrived : Nat := 0
  first : Nat := 0
  polledAt : Nat := 0
  decided : Option (Nat × Nat × Nat) := none
  deriving DecidableEq, Repr

/-- A notification in the queue of R390. -/
structure Notice where
  seq : Nat
  value : List (BitVec 8)
  sentAt : Option Nat
  deriving DecidableEq, Repr

/-- A Tabing message being assembled from SMBus blocks (R381). -/
structure Assembly where
  bytes : List (BitVec 8)
  next : Nat
  since : Nat
  deriving DecidableEq, Repr

/-- The Tabing endpoint, lease, dictionary and transports. `dict` holds the values in effect under
`entryKey`; an entry not listed has its default. `flash` holds the persistent values as flash does. -/
structure Mgmt where
  dict : Table (Option Nat) := []
  flash : Table (Option Nat) := []
  flashWaiting : List (Nat × Nat × Nat) := []
  lease : Lease := {}
  shadow : Table (Option Nat) := []
  frozen : Bool := false
  commit : Commit := {}
  commits : Nat := 0
  applied : Nat := 0
  notices : List Notice := []
  noticeSeq : Nat := 0
  windows : List Window := []
  counts : Table Nat := []
  smbus : Option Assembly := none
  smbusCounts : Table Nat := []
  smbusOut : List (List (BitVec 8)) := []
  smbusLost : Option Nat := none
  smbusIdleAt : Nat := 0
  eidI3c : Nat := 0
  eidPcie : Nat := 0
  i3cAddress : Nat := 0
  spdmSession : Bool := false
  diagnostic : Bool := false
  deriving DecidableEq, Repr

/-! ## What leaves the device -/

/-- Something the device has sent or driven, in the order it did so: what the other end of each interface
sees. No rule reads it back. -/
inductive Out where
  /-- An ordered set on a port with its OSTYPE (Table 12.2). -/
  | orderedSet (port ostype : Nat) (set : BitVec 128)
  /-- The qualifier on a waking lane (R284). -/
  | qualifier (port lane : Nat)
  /-- A link flit on a port. -/
  | flit (port : Nat) (bytes : List (BitVec 8))
  /-- An MSI-X message of a function's vector (R416). -/
  | msix (fn vector : Nat)
  /-- A Tabing response or notification on a transport (R377, R390). -/
  | tabing (transport address : Nat) (msg : List (BitVec 8))
  /-- An answer to an MCTP control or SPDM message. -/
  | mctp (transport : Nat) (msg : List (BitVec 8))
  /-- A register value returned to a PCI Express read. -/
  | regValue (fn addr value : Nat)
  /-- A host-memory read request the device has issued. -/
  | hostRead (fn addr len : Nat)
  /-- A message driven on the twin sideband (R391). -/
  | sideband (bytes : List (BitVec 8))
  /-- The half-swing or full drive of a lane, in sixteenths (R284). -/
  | drive (port lane step : Nat)
  /-- A value captured from the test access port. -/
  | jtag (value : Nat)
  deriving DecidableEq, Repr

/-! ## Canvas (chapter 10) -/

/-- A Canvas packet: the header fields of Table 10.4, the mask extension of Table 10.7 and the payload.
`window` is one more than the collective context whose slot windows a VC-S packet keeps to, 0 for none. -/
structure Packet where
  typ : Nat := 0
  cls : Nat := 0
  dl : Nat := 0
  ep : Nat := 0
  injf : Nat := 0
  mc : Bool := false
  mph : Nat := 0
  mdir : Nat := 0
  dst : Nat := 0
  src : Nat := 0
  tenant : Nat := 0
  srank : Nat := 0
  drank : Nat := 0
  mask : Nat := 0
  window : Nat := 0
  payload : List (BitVec 8) := []
  deriving DecidableEq, Repr

/-- Router, injection and drain state (chapter 10), slot windows (R239) and the fabric caps (R348). `inQ`
holds the packets arrived on port p, channel v under 8p + v; `outQ` the packets and mirror records that wait
at an output, as the time they joined and their bytes; `credits` the flits of that channel's buffer at the far end that are taken; `injected`
and `delivered` the delivery units of each epoch; `held` the packets a cap holds. -/
structure Net where
  bank0 : Nat := 1
  bank1 : Nat := 0
  inject : List Packet := []
  inQ : Table (List Packet) := []
  outQ : Table (List (Nat × List (BitVec 8))) := []
  credits : Table Nat := []
  local_ : List Packet := []
  injected : Table Nat := []
  delivered : Table Nat := []
  round : Nat := 0
  reports : Table (Nat × Nat) := []
  staleRaised : Bool := false
  counts : Table Nat := []
  rankCache : Table Nat := []
  pinned : Table Bool := []
  cacheCounts : Table Nat := []
  slotOpen : Table Bool := []
  overrun : Table Nat := []
  buckets : Table (Nat × Nat) := []
  held : List Packet := []
  fillWait : List (Nat × Nat) := []
  deficits : Table Nat := []
  drrAt : Nat := 0
  lastTenant : Table Nat := []
  deriving DecidableEq, Repr

/-! ## Remote transactions (chapter 11) -/

/-- Where a tracked operation came from, and so where its status goes (R262): a network-interface word of a
tile, or of a reel (tile 128), or an operation of a chain instance. -/
inductive Origin where
  | word (tile number : Nat)
  | chain (inst op : Nat)
  deriving DecidableEq, Repr

/-- The states of Table 11.5. -/
inductive TrackState where
  | free | send | wait | resolve | quar
  deriving DecidableEq, Repr

/-- A tracking entry (R258). `kind`: 0 put, 1 get, 2 add. `side`: 0 local scratch of a tile, 1 tenant VA. -/
structure Track where
  state : TrackState := .free
  tenant : Nat := 0
  srank : Nat := 0
  rank : Nat := 0
  kind : Nat := 0
  seq : Nat := 0
  count : Nat := 0
  attempt : Nat := 0
  side : Nat := 0
  tile : Nat := 0
  local_ : Nat := 0
  remote : Nat := 0
  len : Nat := 0
  counter : Nat := 0
  value : Nat := 0
  data : List (BitVec 8) := []
  sent : Nat := 0
  firstTx : Nat := 0
  attemptTx : Nat := 0
  lastTxFrame : Nat := 0
  queryAt : Nat := 0
  resolveAt : Nat := 0
  got : List Nat := []
  gotEnd : Bool := false
  unknown : Bool := false
  doneFrame : Nat := 0
  queryEpoch : Nat := 0
  window : Nat := 0
  origin : Origin := .chain 0 0
  deriving DecidableEq, Repr

/-- The network interface's tracking table and window cache (chapter 11). -/
structure Remote where
  track : Table Track := []
  windowCache : Table Bool := []
  windowPinned : Table Bool := []
  counts : Table Nat := []
  fillWait : List (Nat × Nat × Nat) := []
  failedPuts : List (Nat × Nat × Nat) := []
  answers : List (Nat × Packet) := []
  deriving DecidableEq, Repr
/-! ## Collectives (chapter 13) -/

/-- One held member's instance of one segment of a collective context (R295 to R302). `arrived` holds the
byte ranges (offset, length) of the exchange space that have been written; `heard` the positions a barrier
has heard from; `sent` what has gone out, as (destination position, offset, length), 65,536 for a multicast. -/
structure CollInst where
  tenant : Nat
  rank : Nat
  pos : Nat
  cctx : Nat
  cseg : Nat
  begun : Bool := false
  accepted : Nat := 0
  runFrame : Nat := 0
  arrived : List (Nat × Nat) := []
  heard : List Nat := []
  stepA : Nat := 0
  stepB : Nat := 0
  sent : List (Nat × Nat × Nat) := []
  late : Bool := false
  deriving DecidableEq, Repr

/-- A chain instance (R305). `op` is the next operation,
`waiting` the operations issued and not complete. `word` names a tile and word number. -/
structure ChainInst where
  number : Nat
  tenant : Nat
  rank : Nat
  body : Nat
  first : Nat
  count : Nat
  window : Nat
  op : Nat
  r : Nat
  auto : Bool
  word : Option (Nat × Nat)
  waiting : List Nat
  late : Bool
  deriving DecidableEq, Repr

/-- Collective and chain state of the network interface. `fence` is the mask of fenced adder units. -/
structure Coll where
  insts : List CollInst := []
  chains : List ChainInst := []
  waitingStarts : List (Nat × Nat × Nat × Nat) := []
  nextChain : Nat := 0
  fence : Nat := 0
  counts : Table Nat := []
  deriving DecidableEq, Repr

/-! ## The twin (chapter 14) -/

/-- A mirror record (Table 14.3) with its MSEQ, counted without wrapping; `data` is left empty in the copies
kept only for acknowledgement and journal space. -/
structure MirrorRec where
  kind : Nat := 0
  keep : Bool := false
  tenant : Nat := 0
  rank : Nat := 0
  rframe : Nat := 0
  region : Nat := 0
  addr : Nat := 0
  mseq : Nat := 0
  len : Nat := 0
  data : List (BitVec 8) := []
  deriving DecidableEq, Repr

/-- Space of the mirror store: `units` units from unit `unit` hold what `tenant` and `region` name from unit
`first` on. The journal has tenant 1,024. -/
structure Extent where
  unit : Nat
  units : Nat
  tenant : Nat
  region : Nat
  first : Nat
  deriving DecidableEq, Repr

/-- A region being seeded or protected (R322): bytes `next` to `size` are still to be sent. `target`: 0 the
twin's store, 1 the spare's memory (R334), 2 the partner's region as this device receives it, 4 one unit again
(R323). `lastMseq` is the MSEQ of the last seed, `commitMseq` that of the first commit sent after its
acknowledgement. -/
structure Seeding where
  tenant : Nat
  region : Nat
  target : Nat
  next : Nat
  size : Nat
  lastMseq : Option Nat := none
  acked : Bool := false
  commitMseq : Option Nat := none
  protected_ : Bool := false
  deriving DecidableEq, Repr

/-- A rank held for a lost partner (R328 to R335): its container and segment entries, and `first`, the run frame
it is executed from. -/
structure TakenOver where
  tenant : Nat
  rank : Nat
  first : Nat
  con : Container
  entries : Table Nat
  resumed : Bool
  deriving DecidableEq, Repr

/-- Pairing, the mirror stream in both directions, the journal and failover (chapter 14). Sending: `unacked`,
`held` (journal space taken), `queued`, `seeds`, `notCurrent` (units, as (16 tenant + region) 2^20 + unit),
`snapshots` (rank key, tile, run frame), the commits due and out. Receiving: `inQ`, `journal`, `control` (the
committed control state), `partner` (the partner's settings) and `committed` (one more than the committed run
frame of a rank key, modulo 65,536). `tag` is the run frame of the segment whose write is being made, by rank
context. -/
structure Twin where
  state : Nat := 0
  nextMseq : Nat := 0
  unacked : List MirrorRec := []
  held : List MirrorRec := []
  queued : List MirrorRec := []
  fullRaised : Bool := false
  received : Nat := 0
  inQ : List MirrorRec := []
  journal : List MirrorRec := []
  control : List MirrorRec := []
  committed : Table Nat := []
  extents : List Extent := []
  notCurrent : List Nat := []
  partner : Table Nat := []
  seeds : List Seeding := []
  seedCredit : Nat := 0
  commitsDue : List (Nat × Nat × Nat) := []
  commitsOut : List (Nat × Nat × Nat × Nat) := []
  snapshots : List (Nat × Nat × Nat) := []
  tag : List (Nat × Nat) := []
  sentBeat : Option Nat := none
  beats : Nat := 0
  gotBeat : Option Nat := none
  lastBeat : Nat := 0
  missed : Nat := 0
  missedAt : Option Nat := none
  partnerFatal : Bool := false
  suspect : Bool := false
  upAt : Option Nat := none
  downAtTick : Bool := false
  probeAt : Option Nat := none
  probeFailed : Bool := false
  deposed : Bool := false
  taken : List TakenOver := []
  failedFrom : Nat := 0
  reintegrateAt : Option Nat := none
  counts : Table Nat := []
  deriving DecidableEq, Repr

/-! ## Canvas links (chapter 12) -/

/-- One lane of a port: the state of its transmitter and of its receiver (Table 12.6, 0 OFF to 7 FAULT), the
wake under way and its counts. Floors are in 0.01 mV or 0.01 dBm, newest first. -/
structure Lane where
  tx : Nat := 0
  rx : Nat := 0
  snr : Int := 0
  floors : List Int := []
  marginRaised : Bool := false
  wakes : Nat := 0
  falseWakes : Nat := 0
  lateWakes : Nat := 0
  corrected : Nat := 0
  step : Nat := 0
  rampAt : Nat := 0
  energyAt : Nat := 0
  failures : Nat := 0
  deriving DecidableEq, Repr

/-- A data flit held for replay (R275): its FSEQ, channel, first and last marks, body and retakes. -/
structure HeldFlit where
  fseq : Nat
  vc : Nat
  sop : Bool
  eop : Bool
  body : List (BitVec 8)
  retakes : Nat
  deriving DecidableEq, Repr

/-- One port (chapter 12). `state` as 0x4000 + p:0x03; `wasDown` says that it is down until it comes up again.
Sending: `resend` is how many of the newest held flits are still to be sent again, `ackedTo` the last ACK, `txLeft`
the rest of a started packet with the time it was queued, `rrNext` a bit per class for the DL that is served next,
`turn` and `quota` the class and deficits of the VC-Q and VC-P shares. Receiving: `freed` and `reported` are the
cumulative flits freed here and the last such report of the far end. `txChange` and `rxChange` are width changes
waiting for their PCS unit: lanes and unit. `unitAt` and `unitCount` fix the count of PCS units of each direction. -/
structure Port where
  state : Nat := 0
  startAt : Nat := 0
  wasDown : Bool := false
  peerCoord : Nat := 0
  peerPort : Nat := 0
  peerSerial : Nat := 0
  fseq : Nat := 0
  replay : List HeldFlit := []
  timerAt : Nat := 0
  resend : Nat := 0
  expect : Nat := 0
  committedEop : Nat := 0xFFFF
  discarding : Bool := false
  nakDue : Bool := false
  partials : Table (List (BitVec 8)) := []
  freed : Table Nat := []
  reported : Table Nat := []
  txLeft : Table (Nat × List (List (BitVec 8))) := []
  rrNext : Nat := 0
  turn : Nat := 2
  quota : Table Nat := []
  ackedTo : Nat := 0xFFFF
  wide : Bool := true
  rxWide : Bool := true
  txChange : Option (Nat × Nat) := none
  rxChange : Option (Nat × Nat) := none
  unitAt : Nat := 0
  unitCount : Nat := 0
  rxUnitAt : Nat := 0
  rxUnitCount : Nat := 0
  demandWake : Bool := false
  emptySince : Nat := 0
  lanes : Table Lane := []
  counts : Table Nat := []
  fec : Table Nat := []
  deriving DecidableEq, Repr

/-! ## Observation (chapter 21) -/

/-- One ring of an observation area as snapshot at ARM, with the bytes written since (R449, R450). -/
structure ObsRing where
  base : Nat := 0
  log2 : Nat := 12
  prod : Nat := 0
  dropFrame : Option Nat := none
  deriving DecidableEq, Repr

/-- A watch as snapshot at ARM (Table 21.2): its 64 bytes, the STEP in force and whether it is enabled. -/
structure ObsWatch where
  entry : List (BitVec 8)
  step : Nat
  enabled : Bool
  deriving DecidableEq, Repr

/-- Observation of one tenant's run. -/
structure Obs where
  on : Bool := false
  enables : Nat := 0
  area : Nat := 0
  rings : Table ObsRing := []
  watches : List ObsWatch := []
  dailies : Nat := 0
  deriving DecidableEq, Repr

/-- A capture in progress on a tile: the watch's 64 bytes, the counter value, frame and stamp at the firing. -/
structure Capture where
  tenant : Nat
  ctx : Nat
  entry : List (BitVec 8)
  value : Nat
  runFrame : Nat
  frame : Nat
  stamp : List (BitVec 8)
  seq : Nat
  written : Bool := false
  deriving DecidableEq, Repr

/-- A record staged in the record half of a tile's observation buffer: where its bytes lie and whose ring
they go to. -/
structure Staged where
  tenant : Nat
  ring : Nat
  at_ : Nat
  len : Nat
  written : Bool := false
  deriving DecidableEq, Repr

/-- A tile's observation state: staged records and the place of the next, captures, the trace packet being
filled, the branch outcomes not yet in a token, lost tokens, the packets and the stall in progress, the activity
counts of R459, the frame of the last OBS_HOLD and one more than the cycle of the last sample. -/
structure TileObs where
  staged : List Staged := []
  next : Nat := 0
  captures : List Capture := []
  tokens : List Nat := []
  branches : List Bool := []
  lost : Nat := 0
  packets : Nat := 0
  stallFrom : Option (Nat × Nat) := none
  activity : Table Nat := []
  held : Option Nat := none
  sampledAt : Nat := 0
  deriving DecidableEq, Repr

/-! ## PCI Express (chapter 19) -/

/-- A function block (Table 19.4) with the ring settings taken at ENABLE. -/
structure FnBlock where
  invAddr : Nat := 0
  invSeq : Nat := 0
  invDone : Nat := 0
  evrBase : Nat := 0
  evrCtl : Nat := 0
  ringBase : Nat := 0
  ringLog2 : Nat := 0
  overflow : Bool := false
  tail : Nat := 0
  head : Nat := 0
  intLast : Option Nat := none
  intDue : Bool := false
  deriving DecidableEq, Repr

/-- An MSI-X table entry; a vector is masked after reset, as PCI Express has it. -/
structure MsixEntry where
  addr : Nat := 0
  data : Nat := 0
  control : Nat := 1
  deriving DecidableEq, Repr

/-- A host read the device has issued; `done` says whether it came back good. -/
structure HostRead where
  fn : Nat
  addr : Nat
  len : Nat
  done : Option Bool
  deriving DecidableEq, Repr

/-- The PCI Express function side. Function 0 is the PF, function t + 1 is VF t. Vectors are keyed by device
vector number, VF slot maps by 64t + k. -/
structure Pcie where
  linkUp : Bool := false
  vfEnable : Bool := false
  numVfs : Nat := 0
  busMaster : Table Bool := []
  memEnable : Table Bool := []
  msixEnable : Table Bool := []
  fnMask : Table Bool := []
  relaxed : Table Bool := []
  bar0 : Nat := 0
  vfBar0 : Nat := 0
  blocks : Table FnBlock := []
  vfvec : Table Nat := []
  msix : Table MsixEntry := []
  pending : Table Bool := []
  vfmap : Table Nat := []
  reqBuf : List Host.Cell := []
  rspBuf : List (BitVec 8) := []
  ntfBuf : List (BitVec 8) := []
  reqLen : Nat := 0
  reqBusy : Bool := false
  rspValid : Bool := false
  ntfValid : Bool := false
  rspLen : Nat := 0
  ntfLen : Nat := 0
  reads : List HostRead := []
  flrUntil : Table Nat := []
  aerCorrectable : Nat := 0
  aerUncorrectable : Nat := 0
  counts : Table Nat := []
  deriving DecidableEq, Repr

/-! ## Start-up (chapter 20) and pins (chapter 23) -/

/-- Boot state, the always-on domain and the flash. `state` as 0x1100:0x01. `flash` lists the bytes that are
not 0xFF, the erased value. -/
structure Boot where
  state : Nat := 0
  started : Bool := false
  romAt : Nat := 0
  slot : Nat := 0
  reason : Nat := 0
  pendingReason : Nat := 0
  tripLatch : Bool := false
  resetAt : Nat := 0
  version : Nat := 0
  svn : Nat := 0
  stage1Digest : Nat := 0
  runtimeDigest : Nat := 0
  measured : List (BitVec 8) := []
  hbmRate : Nat := 80
  slotState : Table Nat := []
  update : Nat := 0
  received : Nat := 0
  resetDue : Option (Nat × Nat) := none
  failCheck : Nat := 0
  holdAon : Bool := false
  holdRail : Bool := false
  fabLost : Bool := false
  flash : List Host.Cell := []
  deriving DecidableEq, Repr

/-- The pins the spec gives a level, and the test access port (R474, R475, R480). `alert` is true while
ALERT_L is driven low. -/
structure Pins where
  porLow : Bool := true
  perstLow : Bool := true
  vaonLow : Bool := false
  trip : Bool := false
  fatal3 : Bool := false
  alert : Bool := false
  trstLow : Bool := false
  tapCode : Nat := 0
  shift : Nat := 0
  boundary : Nat := 0
  driven : Option Nat := none
  highz : Bool := false
  deriving DecidableEq, Repr


/-! ## The device and the machine -/

/-- Everything the spec gives the device. `now` counts units of 50 ps; `freeUsed` counts the free values
taken so far (the model's own field). -/
structure Dev where
  now : Nat := 0
  freeUsed : Nat := 0
  ev : Events := {}
  clk : Clock := {}
  runs : Table Run := []
  tiles : Table Tile := []
  tcount : Table TileCounts := []
  streams : Table Stream := []
  chains : List Chain := []
  ctr : Counters := {}
  mem : Memories := {}
  pow : Power := {}
  reels : Table Reel := []
  reelLast : Table Nat := []
  mgmt : Mgmt := {}
  net : Net := {}
  rem : Remote := {}
  coll : Coll := {}
  twin : Twin := {}
  ports : Table Port := []
  obs : Table Obs := []
  tobs : Table TileObs := []
  obsCounts : Table Nat := []
  pcie : Pcie := {}
  boot : Boot := {}
  pins : Pins := {}
  fatal : Bool := false
  out : List Out := []
  deriving DecidableEq, Repr

/-- The machine: the queue of commands that wait, first in first out, and the device. -/
structure State where
  pending : List Instr
  dev : Dev
  deriving DecidableEq, Repr

/-- The device right after a cold reset with POR_L low: nothing boots, runs or is configured; every dictionary
entry has its default, every memory lists nothing. -/
def State.reset : State := { pending := [], dev := {} }

end Sys2Proof.Machine
end

