-- ==== Sys2Proof/Machine/Ops.lean ====
section
/-!
DEFINITION. The named operations every command is written in: settling the pins, units of time, the
dictionary in effect, raising events (chapter 22), runs and tiles, and the physical memory with its error
protection (chapter 7).
-/
namespace Sys2Proof.Machine

/-! ## A command's effect on the device -/

/-- Whether the device asserts ALERT_L (R474): from THERMAL_TRIP, or from another class 3 event other than
MINIMAL_MODE; not in minimal mode and not while VAON_1V8 is below its minimum. -/
def alertLevel (d : Dev) : Bool :=
  (d.pins.trip || d.pins.fatal3) && d.boot.state != 2 && !d.pins.vaonLow

/-- Every command leaves the pins that follow the state at their levels: ALERT_L (R474), and FRAME_OUT, which
stays low before ready and in minimal mode (R475). -/
def settle (d : Dev) : Dev :=
  { d with pins.alert := alertLevel d, clk.frameOut := d.clk.frameOut && d.boot.state == 1 }

/-- A command that acts on units the part has (`ok`) takes the device to `f` of it, with its pins settled; one
that names a unit it does not have is refused. -/
def onDev (ok : Bool) (f : Dev → Dev) (s : State) : Host.Outcome State Fault Refusal :=
  if ok then .next { s with dev := settle (f s.dev) } else .refused .noSuchUnit

/-! ## Time: units of 50 ps (R32) -/

/-- Time passes: `n` units of 50 ps. -/
def passTime (n : Nat) (d : Dev) : Dev := { d with now := d.now + n }

/-- One nanosecond. -/
def tNs : Nat := 20
/-- One cycle of the fabric clock, 0.8 ns. -/
def tFc : Nat := 16
/-- One cycle of the management clock, 10 ns. -/
def tMc : Nat := 200
/-- One microsecond. -/
def tUs : Nat := 20000
/-- One millisecond. -/
def tMs : Nat := 20000000

/-- The frequency of an operating point in MHz (Table 2.10). -/
def oppMHz : Nat → Nat
  | 0 => 600
  | 1 => 900
  | 2 => 1200
  | 3 => 1500
  | 4 => 1800
  | _ => 2000

/-- Core-clock cycles since reset; a trip stops the core clock (R373). -/
def ccNow (d : Dev) : Nat :=
  if d.clk.stopped then d.clk.ccBase else d.clk.ccBase + (d.now - d.clk.ccAt) * d.clk.freqMHz / tUs

/-- The length of `n` core-clock cycles in units of 50 ps, rounded up. -/
def ccTime (n : Nat) (d : Dev) : Nat := (n * tUs + d.clk.freqMHz - 1) / d.clk.freqMHz

/-! ## The dictionary in effect -/

/-- The value in effect of a stored entry (R384). -/
def dictGet (idx sub : Nat) (d : Dev) : Nat :=
  (Sparse.get none d.mgmt.dict (entryKey idx sub)).getD (entryDefault idx sub)

/-- An entry takes a value. -/
def dictPut (idx sub v : Nat) (d : Dev) : Dev :=
  { d with mgmt.dict := Sparse.set none d.mgmt.dict (entryKey idx sub) (some v) }

/-- An entry returns to its default. -/
def dictClear (idx sub : Nat) (d : Dev) : Dev :=
  { d with mgmt.dict := Sparse.set none d.mgmt.dict (entryKey idx sub) none }

/-- A tenant's entry 0x5000 + t. -/
def tenantGet (t sub : Nat) (d : Dev) : Nat := dictGet (0x5000 + t) sub d

/-- The period exponent k and the frame period P in units of 50 ps. -/
def periodK (d : Dev) : Nat := dictGet 0x2000 1 d
def framePeriod (d : Dev) : Nat := 2 ^ periodK d * tUs

/-! ## Free values -/

/-- The next free value below 2^w, and the device that has used it up (log entry 7). -/
def freshValue (w : Nat) (d : Dev) : Nat × Dev :=
  (Config.freeValue d.freeUsed % 2 ^ w, { d with freeUsed := d.freeUsed + 1 })

/-! ## Runs and tiles -/

/-- What is done for a taken-over rank: its events carry TAKEN (R470). -/
def forRank (taken : Bool) (f : Dev → Dev) (d : Dev) : Dev :=
  let d1 := f d
  if taken then
    let n := d.ev.queue.length
    { d1 with ev.queue := d1.ev.queue.take n ++ (d1.ev.queue.drop n).map fun e => { e with taken := e.tenant.isSome } }
  else d1

/-- Whether a rank is held here for a lost partner. -/
def takenRank (t rank : Nat) (d : Dev) : Bool := d.twin.taken.any fun x => x.tenant == t && x.rank == rank

/-- The run of tenant `t`. -/
def getRun (t : Nat) (d : Dev) : Run := Sparse.get {} d.runs t
/-- The run of tenant `t` becomes `r`. -/
def setRun (t : Nat) (r : Run) (d : Dev) : Dev := { d with runs := Sparse.set {} d.runs t r }
/-- The run of tenant `t` changed by `f`. -/
def modRun (t : Nat) (f : Run → Run) (d : Dev) : Dev := setRun t (f (getRun t d)) d

/-- Tile `t`. -/
def getTile (t : Nat) (d : Dev) : Tile := Sparse.get {} d.tiles t
/-- Tile `t` becomes `x`. -/
def setTile (t : Nat) (x : Tile) (d : Dev) : Dev := { d with tiles := Sparse.set {} d.tiles t x }
/-- Tile `t` changed by `f`. -/
def modTile (t : Nat) (f : Tile → Tile) (d : Dev) : Dev := setTile t (f (getTile t d)) d

/-- The run frames of the segments on a tile, by rank context. -/
def segFrames (tile : Nat) (d : Dev) : List (Nat × Nat) :=
  let x := getTile tile d
  (x.seg.map fun g => (x.runCtx, g.runFrame)).toList ++ (x.other.seg.map fun g => (1 - x.runCtx, g.runFrame)).toList

/-- The run frames that the mirror records of the work in hand carry. -/
def tagWork (l : List (Nat × Nat)) (d : Dev) : Dev := { d with twin.tag := l }

/-- An effect made for the segments of a tile: its mirror records carry their run frames (Table 14.3). -/
def asTile (tile : Nat) (f : Dev → Dev) (d : Dev) : Dev := tagWork [] (f (tagWork (segFrames tile d) d))

/-- A command that acts on one tile. -/
def onTile (tile : Nat) (f : Dev → Dev) (s : State) : Host.Outcome State Fault Refusal :=
  onDev (decide (tile < 128)) (asTile tile f) s

/-- The counts of tile `t`. -/
def getTCount (t : Nat) (d : Dev) : TileCounts := Sparse.get {} d.tcount t
/-- The counts of tile `t` changed by `f`. -/
def modTCount (t : Nat) (f : TileCounts → TileCounts) (d : Dev) : Dev :=
  { d with tcount := Sparse.set {} d.tcount t (f (getTCount t d)) }

/-- Reel `r`. -/
def getReel (r : Nat) (d : Dev) : Reel := Sparse.get {} d.reels r
/-- Reel `r` becomes `x`. -/
def setReel (r : Nat) (x : Reel) (d : Dev) : Dev := { d with reels := Sparse.set {} d.reels r x }
/-- Reel `r` changed by `f`. -/
def modReel (r : Nat) (f : Reel → Reel) (d : Dev) : Dev := setReel r (f (getReel r d)) d

/-- Whether a run is Running, and whether it is Armed, Running or Halted. -/
def Run.running (r : Run) : Bool := r.state == .running
def Run.live (r : Run) : Bool := r.state == .armed || r.state == .running || r.state == .halted
/-- Whether a context exists (R340). -/
def Run.present (r : Run) : Bool := r.state != .none

/-- The tenants that hold a run. -/
def runTenants (d : Dev) : List Nat := (d.runs.filter fun p => p.2.present).map (·.1)

/-- The tenants whose entry `sub` holds a value of its own. -/
def tenantsWith (sub : Nat) (d : Dev) : List Nat :=
  (d.mgmt.dict.filter fun p => decide (0x5000 ≤ p.1 / 256) && decide (p.1 / 256 ≤ 0x53FF) && p.1 % 256 == sub).map
    fun p => p.1 / 256 - 0x5000

/-- Adds 1 to the count numbered `i`, saturating as a U64 count (R397). -/
def bumpTable (m : Table Nat) (i n : Nat) : Table Nat := Sparse.modify 0 m i (satAdd 64 n)

/-- Something sent or driven. -/
def emit (o : Out) (d : Dev) : Dev := { d with out := d.out ++ [o] }

/-! ## SOURCE values (Table 22.3) -/

def srcTile (t : Nat) : Nat := 0x1000 + t
def srcDie (n : Nat) : Nat := 0x2000 + n
def srcPort (p : Nat) : Nat := 0x3000 + p
def srcLane (p l : Nat) : Nat := 0x4000 + p * 256 + l
def srcChannel (p : Nat) : Nat := 0x5000 + p
def srcNi (u : Nat) : Nat := 0x6000 + u
def srcFn (f : Nat) : Nat := 0x7000 + f
def srcReel (r : Nat) : Nat := 0x8000 + r
def srcTransport (r : Nat) : Nat := 0x9000 + r
def srcSensor (die s : Nat) : Nat := 0xA000 + die * 16 + s

/-! ## Raising an event (R463 to R469) -/

/-- FRAME and OFFSET of an event raised now (R466). -/
def eventStamp (d : Dev) : Nat × Nat :=
  if d.clk.placed then (d.clk.frame, (d.now - d.clk.lastTick) / tNs)
  else (2 ^ 48 - 1, min (2 ^ 32 - 1) ((d.now - d.clk.resetAt) / tUs))

/-- The 16-bit TENANT field of a record (Table 22.2). -/
def tenantField : Option Nat → Nat
  | none => 0
  | some t => 0x8000 + t

/-- The key of R468: CODE, TENANT, SOURCE. -/
def eventKey (e : Event) : Nat := ((e.cls * 4096 + e.num) * 65536 + tenantField e.tenant) * 65536 + e.source

/-- Whether R468 leaves an event of this key unrecorded when it is raised at `at_`. -/
def suppressed (e : Event) (k : EventKey) : Bool :=
  (e.cls == 0 || e.cls == 4) && e.num != evCommitDone &&
    (match k.lastRecorded with
      | none => false
      | some l => decide (e.raisedAt < l + tMs))

/-- A class 3 event latches the cause of ALERT_L (R474) and sets the FATAL bit of BAR0 offset 0x004. -/
def latchAlert (e : Event) (d : Dev) : Dev :=
  if e.cls = 3 then
    { d with
      pins.trip := d.pins.trip || e.num == evThermalTrip
      pins.fatal3 := d.pins.fatal3 || (e.num != evThermalTrip && e.num != evMinimalMode)
      fatal := d.fatal || e.num != evMinimalMode }
  else d

/-- One event is raised: counted by class, then queued for the collector, or added to REPEAT of its key where
R468 or a full queue leaves it unrecorded (R469: one of the 512 places is kept for class 3). -/
def raiseEvent (e0 : Event) (d0 : Dev) : Dev :=
  let d := latchAlert e0 d0
  let st := eventStamp d
  let e : Event := { e0 with frame := st.1, offset := st.2, raisedAt := d.now }
  let ev := { d.ev with counts := bumpTable d.ev.counts e.cls 1 }
  let k := Sparse.get {} ev.keys (eventKey e)
  let cap : Nat := if e.cls = 3 then 512 else 511
  if suppressed e k || decide (cap ≤ ev.queue.length) then
    { d with ev := { ev with keys := Sparse.set {} ev.keys (eventKey e) { k with unrecorded := k.unrecorded + 1 } } }
  else { d with ev := { ev with queue := ev.queue ++ [e] } }

/-- An event of the device, with no run concerned. -/
def raise (cls num source : Nat) (d : Dev) (detail : Nat := 0) : Dev :=
  raiseEvent { cls := cls, num := num, source := source, detail := detail } d

/-- An event that concerns tenant `t` and changes no run. -/
def raiseT (cls num source t : Nat) (d : Dev) (detail : Nat := 0) : Dev :=
  raiseEvent { cls := cls, num := num, source := source, tenant := some t, detail := detail } d

/-- A tenant-contained or run-contained event: a Running run moves to Halted at the next tick, and FLAGS[0]
shows it (Table 22.1). A run in any other state keeps its state. -/
def faultRun (cls num source t : Nat) (d : Dev) (detail : Nat := 0) : Dev :=
  let r := getRun t d
  let d1 := raiseEvent { cls := cls, num := num, source := source, tenant := some t, detail := detail,
                         halt := r.running } d
  if r.running then setRun t { r with haltPending := true } d1 else d1

/-- R465: on a device-fatal event every engine stops and every run moves to Halted at once. -/
def fatalStop (d : Dev) : Dev :=
  { d with
    fatal := true
    runs := d.runs.map fun p => (p.1, if p.2.present then { p.2 with state := .halted, haltPending := false } else p.2) }

/-- The counts of queue items, by die: 0 pointer resets, 1 rewinds, 2 uncorrectable, 3 doorbells (0x2822). -/
def bumpQueue (die which : Nat) (d : Dev) : Dev :=
  { d with mem.dieCounts := bumpTable d.mem.dieCounts (100 + die * 4 + which) 1 }

/-! ## Physical memory (R159, R160, R174, R176) -/

/-- The tile window's base (Table 7.2). -/
def tileBase (t : Nat) : Nat := 0xF000000000 + t * 0x1000000
/-- The physical address of a tile's scratch, accumulator, index plane and observation buffer. -/
def scratchAddr (t off : Nat) : Nat := tileBase t + off
def accAddr (t off : Nat) : Nat := tileBase t + 0x800000 + off
def idxAddr (t off : Nat) : Nat := tileBase t + 0x900000 + off
def obsAddr (t off : Nat) : Nat := tileBase t + 0xA00000 + off
/-- The end of HBM. -/
def hbmEnd : Nat := 0x4800000000
/-- Bytes of scratch. -/
def scratchSize : Nat := 0x600000

/-- Whether a physical address lies in a range that Table 7.2 does not reserve. -/
def physExists (a : Nat) : Bool :=
  decide (a < hbmEnd) ||
  (decide (0xF000000000 ≤ a) && decide (a < 0xF080000000) &&
    (let o := a % 0x1000000
     decide (o < 0x600000) || (decide (0x800000 ≤ o) && decide (o < 0x900000)) ||
     (decide (0x900000 ≤ o) && decide (o < 0x980000)) || (decide (0xA00000 ≤ o) && decide (o < 0xA10000))))

/-- The pseudo-channel of an HBM address (R161): 64 * stack + group. -/
def pseudoChannel (a : Nat) : Nat :=
  let g := a / 0x120000000
  let l := a % 0x120000000 / 256
  let s := (bitsOf l 0 3) ^^^ (bitsOf l 3 3) ^^^ (bitsOf l 6 3)
  64 * s + g

/-- The field of 0x2820 that counts corrections of a tile-window address. -/
def sramField (a : Nat) : Nat :=
  let o := a % 0x1000000
  if o < 0x800000 then 0 else if o < 0x900000 then 1 else if o < 0xA00000 then 2 else 7

/-- One corrected word: counted, and HBM_CE or SRAM_CE raised (R174, R176). -/
def countCorrected (a : Nat) (d : Dev) : Dev :=
  if a < hbmEnd then
    let p := pseudoChannel a
    raise 0 evHbmCe (srcChannel p)
      { d with mem.hbmCounts := bumpTable d.mem.hbmCounts (p * 4) 1,
               mem.hbmLast := Sparse.set 0 d.mem.hbmLast p a } (a / 64)
  else
    let t := (a - 0xF000000000) / 0x1000000
    raise 0 evSramCe (srcTile t)
      (modTCount t (fun c => { c with corrected := bumpTable c.corrected (sramField a) 1 }) d)

/-- One uncorrectable HBM word in the count of its pseudo-channel. -/
def countUncorrectable (a : Nat) (d : Dev) : Dev :=
  if a < hbmEnd then
    let p := pseudoChannel a
    { d with mem.hbmCounts := bumpTable d.mem.hbmCounts (p * 4 + 1) 1, mem.hbmLast := Sparse.set 0 d.mem.hbmLast p a }
  else d

/-- The faulty words among the 8-byte words that bytes a to a + n - 1 touch, as (word, 1 or 2). -/
def errsIn (m : Table Nat) (a n : Nat) : List (Nat × Nat) :=
  m.filter fun p => decide (a / 8 ≤ p.1) && decide (p.1 < (a + n + 7) / 8) && decide (0 < n)

/-- The error state of a word is set. -/
def setErr (w v : Nat) (d : Dev) : Dev := { d with mem.err := Sparse.set 0 d.mem.err w v }

/-- A read of `n` bytes: single-bit words are corrected, rewritten and counted. The flag says whether a word
was uncorrectable. -/
def physRead (a n : Nat) (d : Dev) : Bytes × Bool × Dev :=
  let es := errsIn d.mem.err a n
  let d1 := es.foldl (fun d p => if p.2 = 1 then countCorrected (p.1 * 8) (setErr p.1 0 d) else d) d
  (Mem.readN d.mem.phys a n, es.any fun p => p.2 == 2, d1)

/-- A write of bytes: a word covered whole loses its error; a partly covered single-bit word is corrected and
counted; a partly covered uncorrectable word stays so, and the flag says it (R159). -/
def physWrite (a : Nat) (bs : Bytes) (d : Dev) : Bool × Dev :=
  let n := bs.length
  let es := errsIn d.mem.err a n
  let whole (w : Nat) : Bool := decide (a ≤ w * 8) && decide (w * 8 + 8 ≤ a + n)
  let d1 := es.foldl (fun d p =>
    if whole p.1 then setErr p.1 0 d
    else if p.2 = 1 then countCorrected (p.1 * 8) (setErr p.1 0 d) else d) d
  (es.any fun p => p.2 == 2 && !whole p.1, { d1 with mem.phys := Mem.writeN d1.mem.phys a bs })

/-- Bytes written with every error of the words they cover cleared: the device's own clears. -/
def physFill (a n : Nat) (d : Dev) : Dev :=
  { d with mem.phys := d.mem.phys.filter (fun c => !(decide (a ≤ c.1) && decide (c.1 < a + n)))
           mem.err := d.mem.err.filter (fun p => !(decide (a ≤ p.1 * 8) && decide (p.1 * 8 + 8 ≤ a + n))) }

/-! ## Injected errors (R402) -/

/-- Whether an armed error acts on the next link flit of a port (target 2) or the next addition of an adder unit
(target 3); it is used up. -/
def takeArmed (target unit : Nat) (d : Dev) : Bool × Dev :=
  let v := target + unit * 256
  if d.mem.armed.contains v then (true, { d with mem.armed := d.mem.armed.erase v }) else (false, d)

/-! ## Checks and codes -/

/-- CRC-16 of R481 over bytes: polynomial 0x1021, initial 0xFFFF, most significant bit first. -/
def crc16Byte (crc : BitVec 16) (b : Byte) : BitVec 16 :=
  (List.range 8).foldl (fun c _ => if c.getLsbD 15 then (c <<< 1) ^^^ 0x1021#16 else c <<< 1)
    (crc ^^^ (b.zeroExtend 16 <<< 8))
def crc16 (bs : Bytes) : Nat := (bs.foldl crc16Byte 0xFFFF#16).toNat

/-- CRC-32C: reflected polynomial 0x82F63B78, initial and final inversion. -/
def crc32cByte (crc : BitVec 32) (b : Byte) : BitVec 32 :=
  (List.range 8).foldl (fun c _ => if c.getLsbD 0 then (c >>> 1) ^^^ 0x82F63B78#32 else c >>> 1)
    (crc ^^^ b.zeroExtend 32)
def crc32c (bs : Bytes) : Nat := (~~~(bs.foldl crc32cByte 0xFFFFFFFF#32)).toNat

/-- The 128-bit ordered set with its CRC-16 over bits [111:0] filled in (R481). -/
def withCrc16 (low : Nat) : BitVec 128 :=
  BitVec.ofNat 128 (low % 2 ^ 112 + crc16 (leBytes 14 low) * 2 ^ 112)

/-- Whether an ordered set's CRC-16 passes. -/
def crc16Good (set : BitVec 128) : Bool :=
  decide (crc16 (leBytes 14 set.toNat) = bitsOf set.toNat 112 16)

end Sys2Proof.Machine
end

