-- ==== Sys2Proof/Machine/Mirror.lean ====
section
/-!
DEFINITION. The mirror stream to the twin (chapter 14): declared regions, records and their MSEQ, the space
they take in the twin's journal, and the writes and counter adds they carry.
-/
namespace Sys2Proof.Machine

/-- The function that issues a tenant's host requests (R339): VF t while it exists, else the PF. -/
def tenantFn (t : Nat) (d : Dev) : Nat := if d.pcie.vfEnable && decide (t < d.pcie.numVfs) then t + 1 else 0

/-! ## Regions -/

/-- A declared mirrored region (R179). -/
structure Region where
  index : Nat
  base : Nat
  units : Nat
  frameMode : Bool
  deriving DecidableEq, Repr

/-- 2 MiB. -/
def unitSize : Nat := 2097152

/-- The region a 16-byte declaration gives; none where its size is 0. -/
def regionOf (i v : Nat) : Option Region :=
  if bitsOf v 64 32 = 0 then none
  else some { index := i, base := bitsOf v 0 48, units := bitsOf v 64 32, frameMode := bitsOf v 96 8 == 1 }

/-- The regions in force of tenant `t`. -/
def regions (t : Nat) (d : Dev) : List Region :=
  (List.range 16).filterMap fun i => regionOf i (tenantGet t (0x20 + i) d)

/-- A setting of the partner as its control-state records gave it (Table 14.4, item 5). -/
def partnerGet (idx sub : Nat) (d : Dev) : Nat := (Sparse.get 0 d.twin.partner (entryKey idx sub))

/-- The regions the partner has declared for tenant `t`. -/
def partnerRegions (t : Nat) (d : Dev) : List Region :=
  (List.range 16).filterMap fun i => regionOf i (partnerGet (0x5000 + t) (0x20 + i) d)

/-- Whether a virtual address lies in a region. -/
def Region.covers (r : Region) (va : Nat) : Bool := decide (r.base ≤ va) && decide (va < r.base + r.units * unitSize)

/-- The region of tenant `t` that covers an address. -/
def regionAt (t va : Nat) (d : Dev) : Option Region := (regions t d).find? fun r => r.covers va

/-! ## Records -/

/-- A packet or record joins the output queue of a port and virtual channel. -/
def toOutput (p v : Nat) (bs : Bytes) (d : Dev) : Dev :=
  { d with net.outQ := Sparse.modify [] d.net.outQ (8 * p + v) (· ++ [(d.now, bs)]) }

/-- Whether records are sent to the partner: PROTECTED, SUSPECT or REINTEGRATING (R321). -/
def mirroring (d : Dev) : Bool := d.twin.state == 2 || d.twin.state == 3 || d.twin.state == 6

/-- The header of a record (Table 14.3). -/
def recordHeader (r : MirrorRec) : Nat :=
  r.kind % 16 + (if r.keep then 16 else 0) + r.tenant % 1024 * 2 ^ 8 + r.rank % 2 ^ 20 * 2 ^ 18 +
  r.rframe % 2 ^ 16 * 2 ^ 38 + r.region % 16 * 2 ^ 54 + r.addr % 2 ^ 48 * 2 ^ 64 + r.data.length % 512 * 2 ^ 112

/-- A record as it travels: its header and its payload (R318). -/
def recordBytes (r : MirrorRec) : Bytes := leBytes 16 (recordHeader r) ++ r.data

/-- The record that bytes spell, or none where the payload length makes none. -/
def parseRecord (bs : Bytes) : Option MirrorRec :=
  let h := leNat (bs.take 16)
  let n := bitsOf h 112 9
  if bs.length < 16 + n ∨ 256 < n then none
  else some {
    kind := bitsOf h 0 4, keep := bitOf h 4, tenant := bitsOf h 8 10, rank := bitsOf h 18 20,
    rframe := bitsOf h 38 16, region := bitsOf h 54 4, addr := bitsOf h 64 48, len := n,
    data := (bs.drop 16).take n }

/-- Bytes of the journal (0x6000:0x03). -/
def journalSize (d : Dev) : Nat := dictGet 0x6000 3 d * unitSize

/-- Whether a record is journalled at the twin: writes, counter adds and state (R319). -/
def journalled (k : Nat) : Bool := decide (k ≤ 2)

/-- Whether the twin acknowledges a record: all but acknowledgements, repairs, heartbeats and releases. -/
def acknowledged (k : Nat) : Bool := decide (k ≤ 3) || k == 7 || k == 8

/-- Bytes of the twin's journal that this device's records take. -/
def journalUsed (d : Dev) : Nat := d.twin.held.foldl (fun n r => n + 16 + r.len) 0

/-- Whether the twin's journal is full, so that new records and the writes that produce them wait (R320). -/
def journalFull (d : Dev) : Bool := mirroring d && decide (journalSize d ≤ journalUsed d)

/-- MIRROR_JOURNAL_FULL, once per frame in which a record waits. -/
def raiseJournalFull (d : Dev) : Dev :=
  if d.twin.fullRaised then d
  else raise 4 evMirrorJournalFull (srcPort 8) { d with twin.fullRaised := true }

/-- A record is put on the T port with the next MSEQ. -/
def sendRecord (r0 : MirrorRec) (d : Dev) : Dev :=
  let r : MirrorRec := { r0 with mseq := d.twin.nextMseq, len := r0.data.length }
  let light : MirrorRec := { r with data := [] }
  toOutput 8 7 (recordBytes r)
    { d with
      twin.nextMseq := d.twin.nextMseq + 1
      twin.unacked := if acknowledged r.kind then d.twin.unacked ++ [light] else d.twin.unacked
      twin.held := if journalled r.kind then d.twin.held ++ [light] else d.twin.held
      twin.counts := bumpTable d.twin.counts 0 1 }

/-- A record that the stream carries in order: behind those that wait for journal space. -/
def mirrorSend (r : MirrorRec) (d : Dev) : Dev :=
  if d.twin.queued.isEmpty && !(journalled r.kind && journalFull d) then sendRecord r d
  else raiseJournalFull { d with twin.queued := d.twin.queued ++ [r] }

/-- Records that waited are sent while the journal has room. -/
def flushQueued : Nat → Dev → Dev
  | 0, d => d
  | n + 1, d =>
    match d.twin.queued with
    | [] => d
    | r :: rs =>
      if journalled r.kind && journalFull d then d
      else flushQueued n (sendRecord r { d with twin.queued := rs })

/-- The MSEQ the next record of the stream will have once those that wait are sent. -/
def mseqAfter (d : Dev) : Nat := d.twin.nextMseq + d.twin.queued.length

/-- Whether every record below an MSEQ has been acknowledged. -/
def ackedBelow (m : Nat) (d : Dev) : Bool :=
  decide (m ≤ d.twin.nextMseq) && d.twin.unacked.all fun r => decide (m ≤ r.mseq)

/-- Pieces of at most 256 bytes with their offsets. -/
def recordPieces (bs : Bytes) : List (Nat × Bytes) :=
  (List.range ((bs.length + 255) / 256)).map fun i => (i * 256, (bs.drop (i * 256)).take 256)

/-- The rank of a context of tenant `t`: the run's own, or the one taken over. -/
def ctxRank (t ctx : Nat) (d : Dev) : Nat :=
  if ctx = 0 then (getRun t d).rank else ((d.twin.taken.find? fun x => x.tenant == t).map (·.rank)).getD 0

/-- Whether the records of a rank context go to the partner: a taken-over rank's go to a spare from the start of
seeding (R334). -/
def mirrorsCtx (ctx : Nat) (d : Dev) : Bool := mirroring d && (ctx == 0 || d.twin.state == 6)

/-- The run frame that a record of a rank context is tagged with: that of the segment whose effect it carries,
else the run's present one. -/
def tagFrame (t ctx : Nat) (d : Dev) : Nat :=
  ((d.twin.tag.find? fun p => p.1 == ctx).map (·.2)).getD (getRun t d).index

/-- The duplicate of a local write of tenant `t` inside a region (R180): sent in the order of the local writes,
with the tenant, the region, the offset and the bytes. -/
def mirrorWrite (t ctx va : Nat) (keep : Bool) (bs : Bytes) (d : Dev) : Dev :=
  if mirrorsCtx ctx d then
    match (if ctx = 0 then regionAt t va d else (partnerRegions t d).find? fun r => r.covers va) with
    | none => d
    | some r =>
      (recordPieces bs).foldl (fun d p => mirrorSend
        { kind := 0, keep := keep, tenant := t, rank := ctxRank t ctx d, rframe := tagFrame t ctx d, region := r.index,
          addr := va - r.base + p.1, data := p.2 } d) d
  else d

/-- Whether region `i` of tenant `t` is protected (R322). -/
def regionProtected (t i : Nat) (d : Dev) : Bool :=
  d.twin.seeds.any fun x => x.target == 0 && x.tenant == t && x.region == i && x.protected_

/-- Whether a tenant has a protected region. -/
def anyProtected (t : Nat) (d : Dev) : Bool :=
  mirroring d && d.twin.seeds.any fun x => x.target == 0 && x.tenant == t && x.protected_

/-- Whether writes to [va, va + n) of tenant `t` still wait for the twin: records of a SYNC region that have not
been acknowledged (R320). -/
def syncPending (t va n : Nat) (d : Dev) : Bool :=
  mirroring d && (regions t d).any fun g => !g.frameMode && regionProtected t g.index d &&
    (d.twin.unacked ++ d.twin.queued).any fun r => r.kind == 0 && r.tenant == t && r.region == g.index &&
      decide (g.base + r.addr < va + n) && decide (va < g.base + r.addr + max r.len r.data.length)

/-- Whether tenant `t` has a mirrored region. -/
def mirrored (t : Nat) (d : Dev) : Bool := !(regions t d).isEmpty

/-- The rank context that a pool counter of tenant `t` belongs to: the taken-over rank's in the blocks that the
lost partner had (R328). -/
def counterCtx (t i : Nat) (d : Dev) : Nat :=
  if (d.twin.taken.any fun x => x.tenant == t) && bitOf (partnerGet (0x5000 + t) 0x30 d) (i / 16) then 1 else 0

/-- The counter-add record of an add to pool counter `i` (Table 14.3, kind 1). -/
def mirrorAdd (t i v : Nat) (keep : Bool) (d : Dev) : Dev :=
  let ctx := counterCtx t i d
  if mirrorsCtx ctx d && mirrored t d then
    mirrorSend { kind := 1, keep := keep, tenant := t, rank := ctxRank t ctx d, rframe := tagFrame t ctx d, addr := i,
                 data := leBytes 8 v } d
  else d

/-- A control-state item (Table 14.4) of a rank context is handed to the mirror. The settings of item 5 go for
every run, since the twin's checks need them (R179). -/
def mirrorItem (t ctx item : Nat) (keep : Bool) (bs : Bytes) (d : Dev) : Dev :=
  if mirrorsCtx ctx d && (mirrored t d || item == 5) then
    mirrorSend { kind := 2, keep := keep, tenant := t, rank := ctxRank t ctx d, rframe := tagFrame t ctx d, addr := item,
                 data := bs } d
  else d

/-- A heartbeat record (R324): pair state, FATAL and the count, for building frame `d.clk.frame`. -/
def heartbeatRecord (fatal : Bool) (d : Dev) : MirrorRec :=
  { kind := 9, addr := d.clk.frame,
    data := leBytes 8 (d.twin.state % 16 + (if fatal then 16 else 0) + d.twin.beats % 2 ^ 56 * 2 ^ 8) }

/-- Whether the T port is up. -/
def tPortUp (d : Dev) : Bool := (Sparse.get {} d.ports 8).state == 2

/-- A heartbeat goes out in channel 1; it takes no MSEQ (the stream of R319 is channel 7's). -/
def sendHeartbeat (fatal : Bool) (d : Dev) : Dev :=
  if tPortUp d then
    let d1 := { d with twin.beats := d.twin.beats + 1 }
    toOutput 8 1 (recordBytes (heartbeatRecord fatal d1)) d1
  else d

/-- A class 3 event other than MINIMAL_MODE: the heartbeat with FATAL = 1, then R465. -/
def raiseFatal (num source : Nat) (d : Dev) (detail : Nat := 0) : Dev :=
  fatalStop (sendHeartbeat true (raise 3 num source d detail))

/-! ## The mirror store -/

/-- The 2 MiB units of the mirror store, ascending (0x2800:0x01; 2,304 units to a group). -/
def storeGroups (d : Dev) : List Nat := bitsSet 64 (dictGet 0x2800 1 d)

/-- Whether a physical address lies in the mirror store. -/
def inStore (pa : Nat) (d : Dev) : Bool := bitOf (dictGet 0x2800 1 d) (pa / 0x120000000)

/-- The free stretches (first unit, units) of a stretch once an extent is taken from it. -/
def cutExtent (e : Extent) (s : Nat × Nat) : List (Nat × Nat) :=
  if e.unit + e.units ≤ s.1 ∨ s.1 + s.2 ≤ e.unit then [s]
  else
    (if s.1 < e.unit then [(s.1, e.unit - s.1)] else []) ++
    (if e.unit + e.units < s.1 + s.2 then [(e.unit + e.units, s.1 + s.2 - (e.unit + e.units))] else [])

/-- The free stretches of the mirror store, ascending. -/
def freeStretches (d : Dev) : List (Nat × Nat) :=
  d.twin.extents.foldl (fun l e => l.flatMap (cutExtent e)) ((storeGroups d).map fun g => (g * 2304, 2304))

/-- How many units are free. -/
def freeUnits (d : Dev) : Nat := (freeStretches d).foldl (fun n s => n + s.2) 0

/-- The extents that take `n` units from stretches, first fit at ascending address (R178). -/
def takeUnits (tenant region : Nat) : List (Nat × Nat) → Nat → Nat → List Extent
  | [], _, _ => []
  | s :: ss, first, n =>
    if n = 0 then []
    else
      let k := min n s.2
      { unit := s.1, units := k, tenant := tenant, region := region, first := first } ::
        takeUnits tenant region ss (first + k) (n - k)

/-- Space for `n` units is allocated to a region (tenant 1,024: the journal), where it fits. -/
def allocUnits (tenant region n : Nat) (d : Dev) : Dev :=
  if n ≤ freeUnits d then
    { d with twin.extents := d.twin.extents ++ takeUnits tenant region (freeStretches d) 0 n }
  else d

/-- The space of a region is freed. -/
def freeRegion (tenant region : Nat) (d : Dev) : Dev :=
  { d with twin.extents := d.twin.extents.filter fun e => !(e.tenant == tenant && e.region == region) }

/-- Where byte `off` of a stored region lies in physical memory. -/
def storeAddr (tenant region off : Nat) (d : Dev) : Option Nat :=
  let u := off / unitSize
  (d.twin.extents.find? fun e => e.tenant == tenant && e.region == region && decide (e.first ≤ u) &&
    decide (u < e.first + e.units)).map fun e => (e.unit + (u - e.first)) * unitSize + off % unitSize

/-- What a unit of the store holds: tenant and region. -/
def storeOwner (pa : Nat) (d : Dev) : Option (Nat × Nat × Nat) :=
  let u := pa / unitSize
  (d.twin.extents.find? fun e => decide (e.unit ≤ u) && decide (u < e.unit + e.units)).map
    fun e => (e.tenant, e.region, (e.first + (u - e.unit)) * unitSize + pa % unitSize)

end Sys2Proof.Machine
end

