-- ==== Sys2Proof/Machine/Xlate.lean ====
section
/-!
DEFINITION. Tenant virtual memory (chapter 7): the three-level walk, its faults, the TLBs and walk caches (R171, R172), reads and writes in 64 KiB
pages, host memory through the tenant's function (R422), and repair from the twin (R174, R323).
-/
namespace Sys2Proof.Machine

/-- What an access met. `wait` is a read that waits for the host or for a repair. -/
inductive Met where
  | ok
  | fault (reason va : Nat)
  | walkUe (va : Nat)
  | ue
  | hostFail
  | wait
  deriving DecidableEq, Repr

/-- What a translation gives: a device address, a host bus address, or a fault. -/
inductive Place where
  | dev (pa : Nat)
  | host (addr : Nat)
  | bad (m : Met)
  deriving DecidableEq, Repr

/-! ## The walk (R169, R170) -/

/-- Whether a table's address is aligned and below the end of HBM. -/
def tableGood (align a : Nat) : Bool := decide (a % align = 0) && decide (a < hbmEnd)

/-- Reason 3 for an entry that is not a leaf; `align` is that of the next table. -/
def nonLeafBad (e align : Nat) : Bool :=
  bitOf e 1 || bitOf e 2 || bitOf e 3 || bitsOf e 4 4 != 0 || bitsOf e 57 7 != 0 ||
    !tableGood align (bitsOf e 8 49 * 256)

/-- Reason 3 for a leaf of a page of 2^`pb` bytes. -/
def leafBad (e pb : Nat) : Bool :=
  !bitOf e 1 || bitsOf e 4 4 != 0 || bitsOf e 57 7 != 0 || bitsOf e 8 (pb - 8) != 0 ||
    (!bitOf e 3 && bitsOf e 40 17 != 0)

/-- The leaf's own checks: reasons 4, 5 and 2, in that order. -/
def leafPlace (t va e pb : Nat) (write : Bool) (d : Dev) : Place :=
  let frame := bitsOf e pb (57 - pb) * 2 ^ pb
  if bitOf e 3 then
    if write && (regionAt t va d).isSome then .bad (.fault 5 va)
    else if write && !bitOf e 2 then .bad (.fault 2 va)
    else .host (frame + va % 2 ^ pb)
  else if hbmEnd ≤ frame ∨ bitOf (tenantGet t 0x0A d) (frame / 0x120000000) = false ∨ inStore frame d then
    .bad (.fault 4 va)
  else if write && !bitOf e 2 then .bad (.fault 2 va)
  else .dev (frame + va % 2 ^ pb)

/-- One table entry is read; a single-bit error is corrected. -/
def tableRead (a : Nat) (d : Dev) : Nat × Bool × Dev :=
  let r := physRead a 8 d
  (leNat r.1, r.2.1, if r.2.1 then countUncorrectable a r.2.2 else r.2.2)

/-- What a walk came to: the leaf or its failure, the entries that are not leaves, and whether every word was good. -/
structure Walked where
  leaf : Except Met Cached
  upper : List Cached
  clean : Bool
  dev : Dev

/-- The level-3 entry of the table that a level-2 entry names. -/
def walk3 (t va e2 : Nat) (upper : List Cached) (clean : Bool) (d : Dev) : Walked :=
  let a := bitsOf e2 8 49 * 256 + bitsOf va 16 5 * 8
  let r := tableRead a d
  let leaf : Except Met Cached :=
    if r.2.1 then .error (.walkUe va)
    else if bitOf r.1 0 = false then .error (.fault 1 va)
    else if leafBad r.1 16 then .error (.fault 3 va)
    else .ok ⟨t, 16, va / 2 ^ 16, r.1⟩
  ⟨leaf, upper, clean && (errsIn d.mem.err a 8).isEmpty, r.2.2⟩

/-- The level-2 entry of the table that a level-1 entry names, and what follows. -/
def walk2 (t va e1 : Nat) (upper : List Cached) (clean : Bool) (d : Dev) : Walked :=
  let a := bitsOf e1 8 49 * 256 + bitsOf va 21 13 * 8
  let r := tableRead a d
  let good := clean && (errsIn d.mem.err a 8).isEmpty
  if r.2.1 then ⟨.error (.walkUe va), upper, good, r.2.2⟩
  else if bitOf r.1 0 = false then ⟨.error (.fault 1 va), upper, good, r.2.2⟩
  else if bitOf r.1 1 then
    ⟨if leafBad r.1 21 then .error (.fault 3 va) else .ok ⟨t, 21, va / 2 ^ 21, r.1⟩, upper, good, r.2.2⟩
  else if nonLeafBad r.1 256 then ⟨.error (.fault 3 va), upper, good, r.2.2⟩
  else walk3 t va r.1 (upper ++ [⟨t, 21, va / 2 ^ 21, r.1⟩]) good r.2.2

/-- The walk from the tenant's root (R169). -/
def walk1 (t va : Nat) (d : Dev) : Walked :=
  let a := tenantGet t 0x10 d + bitsOf va 34 14 * 8
  let r := tableRead a d
  let good := (errsIn d.mem.err a 8).isEmpty
  if r.2.1 then ⟨.error (.walkUe va), [], good, r.2.2⟩
  else if bitOf r.1 0 = false then ⟨.error (.fault 1 va), [], good, r.2.2⟩
  else if nonLeafBad r.1 65536 then ⟨.error (.fault 3 va), [], good, r.2.2⟩
  else walk2 t va r.1 [⟨t, 34, va / 2 ^ 34, r.1⟩] good r.2.2

/-- Where a leaf, or the failure to find one, puts an access. -/
def placeOf (t va : Nat) (write : Bool) (x : Except Met Cached) (d : Dev) : Place :=
  match x with
  | .error m => .bad m
  | .ok c => leafPlace t va c.word c.bits write d

/-- Where the tables as they stand put an access, past every cache. -/
def walk (t va : Nat) (write : Bool) (d : Dev) : Place × Dev :=
  let w := walk1 t va d
  (placeOf t va write w.leaf w.dev, w.dev)

/-! ## TLBs and walk caches (R171, R172) -/

/-- The TLB of the network interface. -/
def niTlb : Nat := 130

/-- The TLB of a die. -/
def dieTlb (die : Nat) : Nat := 128 + die

/-- The die of a TLB; the network interface walks through die 0. -/
def tlbDie (w : Nat) : Nat := if w < 128 then w / 64 else if w = 129 then 1 else 0

/-- How many entries a TLB holds. -/
def tlbSize (w : Nat) : Nat := if w < 128 then 64 else if w < 130 then 4096 else 2048

def Cached.covers (x : Cached) (t va : Nat) : Bool := x.tenant == t && x.page == va / 2 ^ x.bits

/-- Whether two entries have the same tag. -/
def Cached.sameTag (x y : Cached) : Bool := x.tenant == y.tenant && x.bits == y.bits && x.page == y.page

/-- Which of `n` entries leaves a full cache: the spec names no policy, so a free value does (log entry 23). -/
def victim (n : Nat) (d : Dev) : Nat × Dev :=
  let f := freshValue 32 d
  (f.1 % n, f.2)

/-- An entry enters a cache of `size` entries. -/
def cacheFill (size : Nat) (x : Cached) (l : List Cached) (d : Dev) : List Cached × Dev :=
  if l.contains x then (l, d)
  else
    let l1 := l.filter fun y => !y.sameTag x
    if l1.length < size then (x :: l1, d)
    else
      let v := victim l1.length d
      (x :: l1.eraseIdx v.1, v.2)

def fillTlb (w : Nat) (x : Cached) (d : Dev) : Dev :=
  let r := cacheFill (tlbSize w) x (Sparse.get [] d.mem.tlbs w) d
  { r.2 with mem.tlbs := Sparse.set [] d.mem.tlbs w r.1 }
def fillWalks (die : Nat) (x : Cached) (d : Dev) : Dev :=
  let r := cacheFill 256 x (Sparse.get [] d.mem.walks die) d
  { r.2 with mem.walks := Sparse.set [] d.mem.walks die r.1 }

/-- The first of the matching entries that is still held. One that the tables bear out is; whether another, which is
stale, has been evicted before this access is a free value (log entry 23). -/
def stillHeld (fresh : Cached → Bool) (evict : Cached → Dev → Dev) : List Cached → Dev → Option Cached × Dev
  | [], d => (none, d)
  | x :: l, d =>
    if fresh x then (some x, d)
    else
      let f := freshValue 1 d
      if f.1 = 0 then (some x, f.2) else stillHeld fresh evict l (evict x f.2)

/-- A TLB's entry for an address. -/
def tlbHit (w t va : Nat) (fresh : Cached → Bool) (d : Dev) : Option Cached × Dev :=
  let l := Sparse.get [] d.mem.tlbs w
  stillHeld fresh (fun x d => { d with mem.tlbs := Sparse.modify [] d.mem.tlbs w fun l => l.filter (· != x) })
    (l.filter fun x => x.covers t va) d

/-- A walk cache's entry of one level for an address. -/
def walkHit (die bits t va : Nat) (fresh : Cached → Bool) (d : Dev) : Option Cached × Dev :=
  let l := Sparse.get [] d.mem.walks die
  stillHeld fresh (fun x d => { d with mem.walks := Sparse.modify [] d.mem.walks die fun l => l.filter (· != x) })
    (l.filter fun x => x.bits == bits && x.covers t va) d

/-- The walk that starts at the deepest entry its die's walk cache holds. -/
def cachedWalk (die t va : Nat) (fresh : Cached → Bool) (d : Dev) : Walked :=
  let h2 := walkHit die 21 t va fresh d
  match h2.1 with
  | some x => walk3 t va x.word [] true h2.2
  | none =>
    let h1 := walkHit die 34 t va fresh h2.2
    match h1.1 with
    | some x => walk2 t va x.word [] true h1.2
    | none => walk1 t va h1.2

/-- A translation through TLB `w`: a tile's TLB, then its die's or the network interface's, then the walk. A translation
that does not fault is cached. -/
def translate (w t va : Nat) (write : Bool) (d : Dev) : Place × Dev :=
  let now := walk1 t va d
  let leafNow (x : Cached) : Bool := now.clean && (match now.leaf with | .ok y => x == y | .error _ => false)
  let h := tlbHit w t va leafNow d
  match h.1 with
  | some x => (leafPlace t va x.word x.bits write h.2, h.2)
  | none =>
    let g := if w < 128 then tlbHit (dieTlb (w / 64)) t va leafNow h.2 else (none, h.2)
    match g.1 with
    | some x =>
      let p := leafPlace t va x.word x.bits write g.2
      (p, match p with | .bad _ => g.2 | _ => fillTlb w x g.2)
    | none =>
      let r := cachedWalk (tlbDie w) t va (fun x => now.clean && now.upper.contains x) g.2
      let p := placeOf t va write r.leaf r.dev
      match p, r.leaf with
      | .bad _, _ => (p, r.dev)
      | _, .error _ => (p, r.dev)
      | _, .ok x =>
        let d1 := r.upper.foldl (fun d y => fillWalks (tlbDie w) y d) r.dev
        let d2 := if w < 128 then fillTlb (dieTlb (w / 64)) x d1 else d1
        (p, fillTlb w x d2)

/-- Entries of a tenant that touch [lo, hi) leave every cache. -/
def dropCached (t lo hi : Nat) (d : Dev) : Dev :=
  let keep (x : Cached) : Bool := !(x.tenant == t && decide (x.page * 2 ^ x.bits < hi) && decide (lo < (x.page + 1) * 2 ^ x.bits))
  let kept (c : Table (List Cached)) : Table (List Cached) :=
    (c.map fun x => (x.1, x.2.filter keep)).filter fun x => x.2 != []
  { d with mem.tlbs := kept d.mem.tlbs, mem.walks := kept d.mem.walks }

/-- Where an access of rank context `ctx` through TLB `w` lands. Context 1, the taken-over rank, reaches the mirror-store
units of its regions; any other address of it is reason 1 (R328). An address of 2^48 or more has no entry. -/
def place (w t ctx va : Nat) (write : Bool) (d : Dev) : Place × Dev :=
  if 2 ^ 48 ≤ va then (.bad (.fault 1 va), d)
  else if ctx = 0 then translate w t va write d
  else
    match (partnerRegions t d).find? fun r => r.covers va with
    | none => (.bad (.fault 1 va), d)
    | some r =>
      match storeAddr t r.index (va - r.base) d with
      | some pa => (.dev pa, d)
      | none => (.bad (.fault 1 va), d)

/-! ## Host memory (R422) -/

/-- The key of a byte of host memory as a function's bus address. -/
def hostKey (fn addr : Nat) : Nat := fn * 2 ^ 57 + addr

/-- Whether a function may send requests. -/
def busMaster (fn : Nat) (d : Dev) : Bool := Sparse.get false d.pcie.busMaster fn

/-- A host read: a completed one delivers or fails; otherwise it is requested and waited for. With Bus Master
Enable 0 it fails. -/
def hostFetch (fn addr n : Nat) (d : Dev) : Met × Bytes × Dev :=
  if !busMaster fn d then (.hostFail, [], d)
  else
    let mine (r : HostRead) : Bool := r.fn == fn && r.addr == addr && r.len == n
    match d.pcie.reads.find? mine with
    | none => (.wait, [], emit (.hostRead fn addr n)
        { d with pcie.reads := d.pcie.reads ++ [{ fn := fn, addr := addr, len := n, done := none }] })
    | some r =>
      match r.done with
      | none => (.wait, [], d)
      | some good =>
        if good then (.ok, Mem.readN d.mem.host (hostKey fn addr) n, d) else (.hostFail, [], d)

/-- Completed reads of a function are dropped once what asked for them has used them. -/
def dropReads (fn : Nat) (d : Dev) : Dev :=
  { d with pcie.reads := d.pcie.reads.filter fun x => !(x.fn == fn && x.done.isSome) }

/-- A posted host write; with Bus Master Enable 0 it is discarded and counted. -/
def hostWrite (fn addr : Nat) (bs : Bytes) (d : Dev) : Dev :=
  if busMaster fn d then { d with mem.host := Mem.writeN d.mem.host (hostKey fn addr) bs }
  else { d with pcie.counts := bumpTable d.pcie.counts 0 1 }

/-! ## Repair (R174, R323) -/

/-- The key of a unit that the twin does not hold current (R323). -/
def unitKey (t region unit : Nat) : Nat := (16 * t + region) * 2 ^ 20 + unit

/-- Whether the twin holds the unit of an address current: of a protected region that is a SYNC region, or a
FRAME region with no write of the unit outstanding in the twin's journal; not while it is seeded again (R323). -/
def twinCurrent (t va : Nat) (d : Dev) : Bool :=
  mirroring d &&
    (match regionAt t va d with
      | none => false
      | some r => regionProtected t r.index d &&
          !d.twin.notCurrent.contains (unitKey t r.index ((va - r.base) / unitSize)) &&
          (!r.frameMode ||
            d.twin.held.all fun h => !(h.kind == 0 && h.tenant == t && h.region == r.index &&
              h.addr / unitSize == (va - r.base) / unitSize)))

/-- A repair of the 64-byte line of a physical address is requested, once. -/
def askRepair (t va pa : Nat) (d : Dev) : Dev :=
  let line := pa / 64
  if d.mem.repairs.any fun p => p.1 == line then d
  else
    match regionAt t va d with
    | none => d
    | some r => mirrorSend
        { kind := 5, tenant := t, rank := (getRun t d).rank, region := r.index, addr := (va - r.base) / 64 * 64 }
        { d with mem.repairs := d.mem.repairs ++ [(line, t)] }

/-- An uncorrectable word met at `pa`: repaired from the twin (the access waits), or HBM_UE. -/
def meetUe (t va pa n : Nat) (d : Dev) : Met × Dev :=
  let bad := (errsIn d.mem.err pa n).filter fun p => p.2 == 2
  let first := ((bad.head?).map fun p => p.1 * 8).getD pa
  if twinCurrent t va d then
    (.wait, bad.foldl (fun d p => askRepair t (va + (p.1 * 8 - pa / 8 * 8)) (p.1 * 8) d) d)
  else (.ue, faultRun 2 evHbmUe (srcChannel (pseudoChannel first)) t (countUncorrectable first d) (first / 64))

/-! ## Reads and writes -/

/-- The stretches of [va, va + n) that lie in one 64 KiB page each. -/
def pageChunks (va n : Nat) : List (Nat × Nat) :=
  if n = 0 then []
  else (List.range ((va + n - 1) / 65536 - va / 65536 + 1)).map fun i =>
    let a := max va ((va / 65536 + i) * 65536)
    let b := min (va + n) ((va / 65536 + i + 1) * 65536)
    (a, b - a)

/-- A read of one page's stretch. Data read with an uncorrectable word is delivered as read. -/
def readChunk (w t ctx va n : Nat) (d : Dev) : Met × Bytes × Dev :=
  match place w t ctx va false d with
  | (.bad m, d1) => (m, [], d1)
  | (.host a, d1) => hostFetch (tenantFn t d1) a n d1
  | (.dev pa, d1) =>
    let r := physRead pa n d1
    if r.2.1 then
      let m := meetUe t va pa n r.2.2
      (m.1, r.1, m.2)
    else (.ok, r.1, r.2.2)

/-- A read of `n` bytes of a tenant's space. It stops at the first stretch that faults or waits. -/
def vaRead (w t ctx va n : Nat) (d : Dev) : Met × Bytes × Dev :=
  (pageChunks va n).foldl (fun acc c =>
    match acc.1 with
    | .ok | .ue =>
      let r := readChunk w t ctx c.1 c.2 acc.2.2
      (if r.1 = .ok then acc.1 else r.1, acc.2.1 ++ r.2.1, r.2.2)
    | _ => acc) (.ok, [], d)

/-- One page's stretch as it is known: of host memory, what the last reads brought. -/
def peekChunk (w t ctx va n : Nat) (d : Dev) : Met × Bytes × Dev :=
  match place w t ctx va false d with
  | (.host a, d1) =>
    let fn := tenantFn t d1
    if busMaster fn d1 then (.ok, Mem.readN d1.mem.host (hostKey fn a) n, d1) else (.hostFail, [], d1)
  | _ => readChunk w t ctx va n d

/-- A read of a part of a container that has been read before: its host memory is not read again. -/
def vaPeek (w t ctx va n : Nat) (d : Dev) : Met × Bytes × Dev :=
  (pageChunks va n).foldl (fun acc c =>
    match acc.1 with
    | .ok | .ue =>
      let r := peekChunk w t ctx c.1 c.2 acc.2.2
      (if r.1 = .ok then acc.1 else r.1, acc.2.1 ++ r.2.1, r.2.2)
    | _ => acc) (.ok, [], d)

/-- A read that is used at once: the host reads it needed are dropped unless it still waits. -/
def vaFetch (w t ctx va n : Nat) (d : Dev) : Met × Bytes × Dev :=
  let r := vaRead w t ctx va n d
  if r.1 = .wait then r else (r.1, r.2.1, dropReads (tenantFn t d) r.2.2)

/-- A write of one page's stretch, with its duplicate to the twin (R180). -/
def writeChunk (w t ctx va : Nat) (keep : Bool) (bs : Bytes) (d : Dev) : Met × Dev :=
  match place w t ctx va true d with
  | (.bad m, d1) => (m, d1)
  | (.host a, d1) => (.ok, hostWrite (tenantFn t d1) a bs d1)
  | (.dev pa, d1) =>
    let partly := (errsIn d1.mem.err pa bs.length).any fun p =>
      p.2 == 2 && !(decide (pa ≤ p.1 * 8) && decide (p.1 * 8 + 8 ≤ pa + bs.length))
    if partly && twinCurrent t va d1 then meetUe t va pa bs.length d1
    else
      let w := physWrite pa bs d1
      let d2 := mirrorWrite t ctx va keep bs w.2
      if w.1 then
        let m := meetUe t va pa bs.length d2
        (.ue, m.2)
      else (.ok, d2)

/-- A write of bytes to a tenant's space. It stops at the first stretch that faults or waits; `keep` marks a
write that a packet from another rank caused (R318). -/
def vaWrite (w t ctx va : Nat) (keep : Bool) (bs : Bytes) (d : Dev) : Met × Dev :=
  (pageChunks va bs.length).foldl (fun acc c =>
    match acc.1 with
    | .ok | .ue =>
      let r := writeChunk w t ctx c.1 keep ((bs.drop (c.1 - va)).take c.2) acc.2
      (if r.1 = .ok then acc.1 else r.1, r.2)
    | _ => acc) (.ok, d)

/-- Whether a write of [va, va + n) need not wait for a repair; a repair it needs is asked for. -/
def writeReady (w t ctx va n : Nat) (d : Dev) : Bool × Dev :=
  (pageChunks va n).foldl (fun acc c =>
    match place w t ctx c.1 true acc.2 with
    | (.dev pa, d1) =>
      if ((errsIn d1.mem.err pa c.2).any fun p => p.2 == 2 && !(decide (pa ≤ p.1 * 8) && decide (p.1 * 8 + 8 ≤ pa + c.2)))
          && twinCurrent t c.1 d1 then (false, (meetUe t c.1 pa c.2 d1).2)
      else (acc.1, d1)
    | (_, d1) => (acc.1, d1)) (true, d)

/-- DETAIL of XLATE_FAULT and XLATE_WALK_UE (Table 22.4). -/
def xlateDetail (reason va : Nat) : Nat := reason + bitsOf va 16 32 * 16

/-- The event of an access that did not succeed, raised for tenant `t` by `src`. An uncorrectable word has
raised its own. -/
def raiseMet (m : Met) (src t : Nat) (d : Dev) : Dev :=
  match m with
  | .fault r va => faultRun 1 evXlateFault src t d (xlateDetail r va)
  | .walkUe va => faultRun 2 evXlateWalkUe src t d (xlateDetail 0 va)
  | .hostFail => faultRun 1 evHostReadFail src t d
  | _ => d

/-- The code of the event of an access that did not succeed (Table 9.8). -/
def Met.code (m : Met) : Nat :=
  match m with
  | .fault _ _ => 0x1000 + evXlateFault
  | .walkUe _ => 0x2000 + evXlateWalkUe
  | .hostFail => 0x1000 + evHostReadFail
  | .ue => 0x2000 + evHbmUe
  | _ => 0

/-- Whether an access went through, with or without an uncorrectable word. -/
def Met.done (m : Met) : Bool := m == .ok || m == .ue

/-- The address of the first byte that a walk could not reach, tried without effect. -/
def reachable (w t ctx va : Nat) (write : Bool) (d : Dev) : Bool :=
  match (place w t ctx va write d).1 with
  | .bad _ => false
  | _ => true

end Sys2Proof.Machine
end

