-- ==== Sys2Proof/Machine/Msix.lean ====
section
/-!
DEFINITION. MSI-X vectors (R415, R416): who owns a device vector, masks, pending bits and sends.
-/
namespace Sys2Proof.Machine

/-- COUNT of VF u (R415). -/
def vfCount (u : Nat) (d : Dev) : Nat := Sparse.get 1 d.pcie.vfvec u

/-- BASE of VF t. -/
def vfBase (t : Nat) (d : Dev) : Nat := 64 + (List.range t).foldl (fun n u => n + vfCount u d) 0

/-- The function that owns a device vector and its entry there: 0 is the PF, t + 1 VF t; none above the last. -/
def vectorOwner (v : Nat) (d : Dev) : Option (Nat × Nat) :=
  if v < 64 then some (0, v)
  else
    let r := (List.range 1024).foldl (fun (acc : Option (Nat × Nat) × Nat) u =>
      match acc.1 with
      | some x => (some x, acc.2)
      | none => if v < acc.2 + vfCount u d then (some (u + 1, v - acc.2), acc.2) else (none, acc.2 + vfCount u d)) (none, 64)
    r.1

/-- The device vector of entry `e` of function `fn`. -/
def vectorOf (fn e : Nat) (d : Dev) : Nat := if fn = 0 then e else vfBase (fn - 1) d + e

/-- Whether an entry, or its function, is masked. -/
def vectorMasked (fn v : Nat) (d : Dev) : Bool :=
  bitOf (Sparse.get {} d.pcie.msix v).control 0 || Sparse.get false d.pcie.fnMask fn

/-- A vector's message: a write of its data to its address, as the function that owns it. -/
def msixMessage (fn e v : Nat) (d : Dev) : Dev :=
  let x := Sparse.get {} d.pcie.msix v
  emit (.msix fn e) (hostWrite fn x.addr (leBytes 4 x.data) d)

/-- The device sends vector `v`: the pending bit is set while it is masked; with MSI-X off it is dropped and
counted. -/
def sendVector (v : Nat) (d : Dev) : Dev :=
  match vectorOwner v d with
  | none => d
  | some (fn, e) =>
    if Sparse.get false d.pcie.msixEnable fn = false then { d with pcie.counts := bumpTable d.pcie.counts 1 1 }
    else if vectorMasked fn v d then { d with pcie.pending := Sparse.set false d.pcie.pending v true }
    else msixMessage fn e v d

/-- Pending vectors of a function that are no longer masked send their one message. -/
def releasePending (fn : Nat) (d : Dev) : Dev :=
  (d.pcie.pending.map (·.1)).foldl (fun d v =>
    match vectorOwner v d with
    | some (f, e) => if f = fn ∧ vectorMasked f v d = false ∧ Sparse.get false d.pcie.msixEnable f then
        msixMessage f e v { d with pcie.pending := Sparse.set false d.pcie.pending v false } else d
    | none => d) d

end Sys2Proof.Machine
end

