-- ==== Sys2Proof/Machine/Bar.lean ====
section
/-!
DEFINITION. Which accesses reach a function's BAR (R410, R411, R426), and the slots of a VF (R421).
-/
namespace Sys2Proof.Machine

/-- Whether function `fn` exists: the PF, or VF fn - 1 while VF Enable is 1 and NumVFs covers it. -/
def fnExists (fn : Nat) (d : Dev) : Bool := fn == 0 || (d.pcie.vfEnable && decide (fn ≤ d.pcie.numVfs))

/-- An event of a function: a VF's concerns its tenant. -/
def fnRaise (cls num fn : Nat) (d : Dev) (detail : Nat := 0) : Dev :=
  if fn = 0 then raise cls num (srcFn 0) d detail else raiseT cls num (srcFn fn) (fn - 1) d detail

/-- An uncorrectable error that the device logs as a receiver (PCIE_UE). -/
def pcieUe (fn : Nat) (d : Dev) : Dev :=
  fnRaise 4 evPcieUe fn { d with pcie.aerUncorrectable := satAdd 64 d.pcie.aerUncorrectable 1 }

/-- An access to a function's BAR: none reaches a device without a link or a function that does not exist; with
Memory Space Enable 0 it is an Unsupported Request. -/
def barAccess (fn : Nat) (f : Dev → Dev) (d : Dev) : Dev :=
  if d.pcie.linkUp = false ∨ fnExists fn d = false then d
  else if Sparse.get false d.pcie.memEnable fn then f d
  else pcieUe fn d

/-- The reel that slot `k` of VF `t` reaches: its map is valid and the reel is bound to the tenant. -/
def slotReel (t k : Nat) (d : Dev) : Option Nat :=
  let m := Sparse.get 0 d.pcie.vfmap (64 * t + k)
  let r := bitsOf m 0 11
  if bitOf m 31 ∧ r < 1152 ∧ (getReel r d).tenant = t then some r else none

/-- The reel an access names: reel `i` through the PF, slot `i` through a VF. -/
def accessReel (fn i : Nat) (d : Dev) : Option Nat := if fn = 0 then some i else slotReel (fn - 1) i d

/-- Whether a function has the reel or the slot of that number. -/
def accessOk (fn i : Nat) : Bool := if fn = 0 then decide (i < 1152) else decide (fn ≤ 1024) && decide (i < 64)

end Sys2Proof.Machine
end

