-- ==== Sys2Proof/Machine/Canvas.lean ====
section
/-!
DEFINITION. Canvas routing (chapter 10): coordinates, packets, the rank cache, injection with its windows and
caps, dimension-order and multicast routing, delivery, the splice drain and the packet lifetime.
-/
namespace Sys2Proof.Machine

/-! ## Coordinates (R228, R229) -/

/-- Where a dimension's field lies in a coordinate (Table 10.1) and its width. -/
def dimLo : Nat → Nat | 0 => 0 | 1 => 4 | 2 => 8 | _ => 12
def dimWidth : Nat → Nat | 3 => 6 | _ => 4

/-- A coordinate's value in a dimension. -/
def dimOf (c k : Nat) : Nat := bitsOf c (dimLo k) (dimWidth k)

/-- The size of a dimension (0x4800:0x02). -/
def dimSize (k : Nat) (d : Dev) : Nat := dimOf (dictGet 0x4800 2 d) k + 1

/-- The device's own coordinate. -/
def ownCoord (d : Dev) : Nat := dictGet 0x4800 1 d % 2 ^ 18

/-- Whether every field of a coordinate is below its dimension size. -/
def coordValid (c : Nat) (d : Dev) : Bool := (List.range 4).all fun k => decide (dimOf c k < dimSize k d)

/-- The port of a dimension in a direction: X+ 0, X- 1, … W- 7; T is 8. -/
def portOf (k dir : Nat) : Nat := 2 * k + dir

/-! ## Banks (R235, R243) -/

/-- A bank's state: 0 idle, 1 active, 2 retiring. -/
def bankState (b : Nat) (d : Dev) : Nat := if b = 0 then d.net.bank0 else d.net.bank1
def setBank (b v : Nat) (d : Dev) : Dev :=
  if b = 0 then { d with net.bank0 := v } else { d with net.bank1 := v }

/-- The injection epoch in effect. -/
def epoch (d : Dev) : Nat := dictGet 0x4800 3 d % 2

/-- The direction entry of bank `b` for value `v` of dimension `k`; 3 reads as unreachable. -/
def direction (b k v : Nat) (d : Dev) : Nat :=
  min 2 (bitsOf (dictGet (0x4801 + b) 1 d) ((if k = 3 then 96 else 32 * k) + 2 * v) 2)

/-- The dateline position of a dimension. -/
def dateline (b k : Nat) (d : Dev) : Nat := dimOf (dictGet (0x4801 + b) 2 d) k

/-- The default table of bank 0 once sizes are committed: the shortest direction, ties to +; dateline size - 1. -/
def defaultDirections (d : Dev) : Nat :=
  (List.range 4).foldl (fun n k =>
    let sz := dimSize k d
    let here := dimOf (ownCoord d) k
    (List.range sz).foldl (fun n v =>
      let up := (v + sz - here) % sz
      n + (if up ≤ sz - up then 0 else 1) * 2 ^ ((if k = 3 then 96 else 32 * k) + 2 * v)) n) 0
def defaultDatelines (d : Dev) : Nat :=
  (List.range 4).foldl (fun n k => n + (dimSize k d - 1) * 2 ^ dimLo k) 0

/-- The coordinate an alias of the injection epoch's bank puts in place of `c` (R232). -/
def aliased (c : Nat) (d : Dev) : Nat :=
  match (List.range 16).find? fun i =>
      let a := dictGet (0x4801 + epoch d) (0x10 + i) d
      bitOf a 36 && bitsOf a 0 18 == c with
  | some i => bitsOf (dictGet (0x4801 + epoch d) (0x10 + i) d) 18 18
  | none => c

/-! ## Packets (R233, R234) -/

/-- The 16-byte header of Table 10.4. -/
def packetHeader (p : Packet) : Nat :=
  p.typ % 16 + p.cls % 4 * 2 ^ 4 + p.dl % 2 * 2 ^ 6 + p.ep % 2 * 2 ^ 7 + p.injf % 16 * 2 ^ 8 +
  (if p.mc then 2 ^ 12 else 0) + p.mph % 4 * 2 ^ 13 + p.mdir % 2 * 2 ^ 15 + p.dst % 2 ^ 18 * 2 ^ 16 +
  p.src % 2 ^ 18 * 2 ^ 34 + p.tenant % 1024 * 2 ^ 52 + p.srank % 2 ^ 20 * 2 ^ 62 + p.drank % 2 ^ 20 * 2 ^ 82 +
  p.payload.length % 512 * 2 ^ 102

/-- A packet as bytes. -/
def packetBytes (p : Packet) : Bytes :=
  leBytes 16 (packetHeader p) ++ (if p.mc then leBytes 16 p.mask else []) ++ p.payload

/-- The packet that bytes spell. -/
def parsePacket (bs : Bytes) : Packet :=
  let h := leNat (bs.take 16)
  let mc := bitOf h 12
  let off := if mc then 32 else 16
  { typ := bitsOf h 0 4, cls := bitsOf h 4 2, dl := bitsOf h 6 1, ep := bitsOf h 7 1, injf := bitsOf h 8 4,
    mc := mc, mph := bitsOf h 13 2, mdir := bitsOf h 15 1, dst := bitsOf h 16 18, src := bitsOf h 34 18,
    tenant := bitsOf h 52 10, srank := bitsOf h 62 20, drank := bitsOf h 82 20,
    mask := if mc then fieldAt bs 16 16 else 0, payload := (bs.drop off).take (bitsOf h 102 9) }

/-- Bytes of a packet and the flits they take. -/
def packetSize (p : Packet) : Nat := 16 + (if p.mc then 16 else 0) + p.payload.length
def flitsOf (bytes : Nat) : Nat := (bytes + 63) / 64

/-- The 64-byte flits of a packet or record, the last one filled with 0 (R233). -/
def flitBodies (bs : Bytes) : List Bytes :=
  (List.range (flitsOf bs.length)).map fun i => padTo 64 ((bs.drop (64 * i)).take 64)

/-- The TYPE and CLS pairs of Table 10.5. -/
def typeClassGood (p : Packet) : Bool :=
  match p.typ with
  | 0 => p.cls == 1 || p.cls == 2
  | 1 => p.cls == 3 && !p.mc
  | 2 => p.cls == 0
  | 3 => p.cls == 0 && !p.mc
  | 4 => p.cls == 1 || p.cls == 2
  | 5 => p.cls == 0
  | _ => false

/-- Whether a header keeps R234. -/
def headerKept (p : Packet) : Dev → Bool := fun d =>
  typeClassGood p && decide (p.payload.length ≤ 256) &&
  (p.cls != 0 || decide (p.payload.length + (if p.mc then 16 else 0) ≤ 48)) &&
  coordValid p.src d && (p.mc || coordValid p.dst d)

/-! ## Masks and delivery units (R244) -/

/-- The mask of a dimension in a mask extension (Table 10.7). -/
def maskOf (mask k : Nat) : Nat := if k = 3 then bitsOf mask 48 64 else bitsOf mask (16 * k) 16

/-- How many values a dimension's mask names. -/
def maskCount (mask k : Nat) : Nat := popCount (maskOf mask k) 64

/-- The product of the popcounts of the masks of the dimensions from `k` on. -/
def unitsFrom (mask k : Nat) : Nat := ((List.range 4).filter (k ≤ ·)).foldl (fun n j => n * maskCount mask j) 1

/-- The units a packet is injected with. -/
def injectUnits (p : Packet) : Nat := if p.mc then unitsFrom p.mask 0 else 1

/-- The distance from value a to v in a direction. -/
def ringDist (k a v dir : Nat) (d : Dev) : Nat :=
  let sz := dimSize k d
  if dir = 0 then (v + sz - a % sz) % sz else (a + sz - v % sz) % sz

/-- The last coordinate value of a multicast copy's run and its group (Table 10.4). -/
def farOf (p : Packet) : Nat := bitsOf p.dst 0 6
def groupOf (p : Packet) : Nat := bitsOf p.dst 6 12

/-- The deliveries that a copy standing at this device would still cause along its run, this device included. -/
def copyUnits (p : Packet) (d : Dev) : Nat :=
  if p.mc then
    let here := dimOf (ownCoord d) p.mph
    let reach := ringDist p.mph here (farOf p) p.mdir d
    ((List.range 64).filter fun v => bitOf (maskOf p.mask p.mph) v && decide (v < dimSize p.mph d) &&
      decide (ringDist p.mph here v p.mdir d ≤ reach)).length * unitsFrom p.mask (p.mph + 1)
  else 1

/-- Units are counted as delivered or discarded under an epoch. -/
def countUnits (ep n : Nat) (d : Dev) : Dev :=
  { d with net.delivered := bumpTable d.net.delivered ep n }

/-- A discard: its event, its counter in 0x4803 and its units (R248). DESIGN CHOICE (log entry 36): the network
interface's discards concern the packet's tenant, those of a router concern none. -/
def discardAt (num counter port : Nat) (p : Packet) (units : Nat) (d : Dev) : Dev :=
  let d1 := countUnits p.ep units { d with net.counts := bumpTable d.net.counts counter 1 }
  if counter = 6 ∨ counter = 7 then raiseT 4 num (srcNi 0) p.tenant d1
  else raise 4 num (if port < 9 then srcPort port else srcNi 0) d1

/-! ## The rank cache (R231) -/

def rankKey (t rank : Nat) : Nat := t * 2 ^ 20 + rank

/-- The ranks this device holds for a tenant: its own, and one it has taken over (R232). -/
def heldRanks (t : Nat) (d : Dev) : List Nat :=
  (if (getRun t d).live then [(getRun t d).rank] else []) ++
  ((d.twin.taken.filter fun x => x.tenant == t).map (·.rank))

/-- What the translation of a rank found. -/
inductive RankAnswer where
  | coord (c : Nat)
  | miss
  | invalid
  deriving DecidableEq, Repr

/-- A rank is looked up; a rank at or above the rank count is invalid. A miss asks for a fill. -/
def rankLookup (t rank : Nat) (d : Dev) : RankAnswer × Dev :=
  if (getRun t d).con.rankCount ≤ rank then (.invalid, d)
  else
    let e := Sparse.get (2 ^ 32) d.net.rankCache (rankKey t rank)
    if e = 2 ^ 32 then
      let w := { d with net.cacheCounts := bumpTable d.net.cacheCounts 1 1 }
      (.miss, if d.net.fillWait.contains (t, rank) then d else { w with net.fillWait := w.net.fillWait ++ [(t, rank)] })
    else if bitOf e 18 && coordValid (bitsOf e 0 18) d then
      (.coord (bitsOf e 0 18), { d with net.cacheCounts := bumpTable d.net.cacheCounts 0 1 })
    else (.invalid, d)

/-- Room for one entry in an on-chip cache of 8,192: of a full one an unpinned entry leaves, a free one as the spec names
no policy (log entry 23). -/
def cacheRoom {α : Type} (c : Table α) (pinned : Table Bool) (d : Dev) : Table α × Dev :=
  if c.length < 8192 then (c, d)
  else
    let l := c.filter fun x => !Sparse.get false pinned x.1
    let v := victim l.length d
    (match l[v.1]? with | some x => Sparse.erase c x.1 | none => c, v.2)

/-- An entry enters the rank cache. -/
def rankStore (t rank e : Nat) (d : Dev) : Dev :=
  let c := cacheRoom d.net.rankCache d.net.pinned d
  if 8192 ≤ c.1.length then c.2 else { c.2 with net.rankCache := Sparse.set (2 ^ 32) c.1 (rankKey t rank) e }

/-- RANK_CACHE_FILL: the first rank waiting for a fill is read from the rank table. A table access that fails
leaves the entry invalid, so that its operations are not sent. -/
def rankCacheFill (d : Dev) : Dev :=
  match d.net.fillWait with
  | [] => d
  | (t, rank) :: rest =>
    let r := vaRead niTlb t 0 ((getRun t d).rankTable + 64 + 4 * rank) 4 d
    match r.1 with
    | .wait => r.2.2
    | .ok | .ue => rankStore t rank (leNat r.2.1) { r.2.2 with net.fillWait := rest }
    | m => rankStore t rank 0 (raiseMet m (srcNi 0) t { r.2.2 with net.fillWait := rest })

/-- A tenant's entries leave the cache at its teardown. -/
def rankDrop (t : Nat) (d : Dev) : Dev :=
  { d with net.rankCache := d.net.rankCache.filter fun x => x.1 / 2 ^ 20 != t
           net.pinned := d.net.pinned.filter fun x => x.1 / 2 ^ 20 != t
           net.fillWait := d.net.fillWait.filter fun x => x.1 != t }

/-- A pinned entry at ARM: kept while at most 4,096 are pinned, else counted as not held. -/
def rankPin (t rank e : Nat) (d : Dev) : Dev :=
  if d.net.pinned.length < 4096 then
    rankStore t rank e { d with net.pinned := Sparse.set false d.net.pinned (rankKey t rank) true }
  else { d with net.cacheCounts := bumpTable d.net.cacheCounts 3 1 }

/-! ## The injection queue, its windows and caps -/

/-- A packet of the network interface joins its injection queue. -/
def inject (p : Packet) (d : Dev) : Dev :=
  { d with net.inject := d.net.inject ++ [{ p with src := ownCoord d }] }

def slotKey (t cctx : Nat) : Nat := t * 4096 + cctx

/-- Whether a VC-S packet's window is open now (R239). -/
def windowOpen (p : Packet) (d : Dev) : Bool :=
  p.window != 0 && Sparse.get false d.net.slotOpen (slotKey p.tenant (p.window - 1))

/-- Whether the caps of R348 bear on a packet: stretch requests are exempt. -/
def capKind (p : Packet) : Option Nat :=
  if p.typ = 5 then none else if p.cls = 0 then some 1 else if p.cls = 1 then none else some 0

/-- A token bucket's rate and depth, in units of 1/20,000 byte, or of 1/20,000 packet for VC-C. -/
def bucketShape (t kind : Nat) (d : Dev) : Nat × Nat :=
  if kind = 0 then (tenantGet t 0x0B d, tenantGet t 0x0B d * 200000)
  else (tenantGet t 0x0C d, 16 * 20000)

/-- The tokens a bucket holds now; it fills at its rate up to its depth. -/
def bucketNow (t kind : Nat) (d : Dev) : Nat :=
  let s := bucketShape t kind d
  let b := Sparse.get (0, 0) d.net.buckets (2 * t + kind)
  min s.2 (b.1 + s.1 * (d.now - b.2))

/-- What a packet takes from a bucket; a packet larger than the depth takes a full bucket. -/
def tokenCost (p : Packet) (kind : Nat) (d : Dev) : Nat :=
  min (bucketShape p.tenant kind d).2 (if kind = 0 then packetSize p * 20000 else 20000)

/-- A packet passes its tenant's cap: the device with the tokens taken, or none where they are short. A VC-Q
and VC-P cap of 0 is none. -/
def passCap (p : Packet) (d : Dev) : Option Dev :=
  match capKind p with
  | none => some d
  | some kind =>
    if kind = 0 ∧ tenantGet p.tenant 0x0B d = 0 then some d
    else
      let have_ := bucketNow p.tenant kind d
      let cost := tokenCost p kind d
      if have_ < cost then none
      else some { d with net.buckets := Sparse.set (0, 0) d.net.buckets (2 * p.tenant + kind) (have_ - cost, d.now) }

/-- The first packet of a list that satisfies a test, and the list without it. -/
def takeFirst (f : Packet → Bool) : List Packet → Option (Packet × List Packet)
  | [] => none
  | p :: ps => if f p then some (p, ps) else (takeFirst f ps).map fun r => (r.1, p :: r.2)

/-- A tenant's criticality class. -/
def classOf (t : Nat) (d : Dev) : Nat := tenantGet t 0x03 d

/-- The injection weight of a class (0x4807:0x02). -/
def classWeight (c : Nat) (d : Dev) : Nat := bitsOf (dictGet 0x4807 2 d) (8 * c) 8

/-- The tenant of a class that is served next: round robin over those with a VC-Q or VC-P packet. -/
def nextTenant (c : Nat) (d : Dev) : Option Nat :=
  let ts := (d.net.inject.filter fun p => decide (2 ≤ p.cls) && classOf p.tenant d == c).map (·.tenant)
  let last := Sparse.get 0 d.net.lastTenant c
  let above := ts.filter (last < ·)
  match (if above.isEmpty then ts else above) with
  | [] => none
  | x :: xs => some (xs.foldl min x)

/-- Deficit round robin over the classes (R348): the tenant whose packet goes next, in flits. -/
def drrPick : Nat → Dev → Option Nat × Dev
  | 0, d => (none, d)
  | n + 1, d =>
    let c := d.net.drrAt % 3
    match nextTenant c d with
    | none => drrPick n { d with net.drrAt := (c + 1) % 3, net.deficits := Sparse.set 0 d.net.deficits c 0 }
    | some t =>
      let size := ((d.net.inject.find? fun p => decide (2 ≤ p.cls) && p.tenant == t).map
        fun p => flitsOf (packetSize p)).getD 1
      let have_ := Sparse.get 0 d.net.deficits c
      if size ≤ have_ then
        (some t, { d with net.deficits := Sparse.set 0 d.net.deficits c (have_ - size)
                          net.lastTenant := Sparse.set 0 d.net.lastTenant c t })
      else drrPick n { d with net.drrAt := (c + 1) % 3
                              net.deficits := Sparse.set 0 d.net.deficits c (have_ + classWeight c d) }

/-- The packet the network interface injects next, of unicast or multicast kind: VC-C first, then VC-S in an
open window, then VC-Q and VC-P by weight. -/
def pickInject (mc : Bool) (d : Dev) : Option (Packet × List Packet) × Dev :=
  match takeFirst (fun p => p.mc == mc && p.cls == 0) d.net.inject with
  | some r => (some r, d)
  | none =>
    match takeFirst (fun p => p.mc == mc && p.cls == 1 && windowOpen p d) d.net.inject with
    | some r => (some r, d)
    | none =>
      match drrPick 64 d with
      | (none, d1) => (none, d1)
      | (some t, d1) => (takeFirst (fun p => p.mc == mc && decide (2 ≤ p.cls) && p.tenant == t) d1.net.inject, d1)

/-! ## Delivery (R232, R240) -/

/-- A multicast group's record. -/
def groupRecord (g : Nat) (d : Dev) : Nat := dictGet (0x4A00 + g / 128) (g % 128 + 1) d

/-- A packet reaches the network interface: a unicast one must name a rank that is held, a multicast one a
group enabled for its tenant; then it waits for its own command. Where the context holds no rank at all, a
request is kept to be judged under R193 and R257. -/
def deliver (p : Packet) (d : Dev) : Dev :=
  let ranks := heldRanks p.tenant d
  if p.mc then
    let g := groupRecord (groupOf p) d
    if bitOf g 143 && bitsOf g 128 10 == p.tenant then
      countUnits p.ep 1 { d with net.local_ := d.net.local_ ++ (if ranks.isEmpty then (if p.typ = 2 then [p] else [])
          else if p.typ = 5 then [p] else ranks.map fun r => { p with drank := r }) }
    else discardAt evMcastReject 6 9 p 1 d
  else if ranks.isEmpty ∧ p.typ = 5 then discardAt evRankMisdelivered 7 9 p 1 d
  else if ranks.isEmpty ∨ p.typ = 5 ∨ ranks.contains p.drank then countUnits p.ep 1 { d with net.local_ := d.net.local_ ++ [p] }
  else discardAt evRankMisdelivered 7 9 p 1 d

/-! ## Routing (R235, R236, R241, R245) -/

/-- A packet's age in frames. -/
def packetAge (p : Packet) (d : Dev) : Nat := (d.clk.frame + 16 - p.injf) % 16

/-- DL for a link of dimension `k` in direction `dir`, entered from `from_` (R236). -/
def nextDl (p : Packet) (from_ k dir : Nat) (d : Dev) : Nat :=
  let here := dimOf (ownCoord d) k
  let line := dateline p.ep k d
  let crosses := if dir = 0 then here == line else here == (line + 1) % dimSize k d
  if crosses then 1 else if from_ < 8 ∧ from_ / 2 = k then p.dl else 0

/-- Whether a port is down (R287), its repeated training included. -/
def portDown (x : Port) : Bool := x.state == 4 || (x.state == 1 && x.wasDown)

/-- A packet leaves by a port: it joins the output queue of its channel. A VC-S packet that must wait there
for another one is a conflict (R239). A port that is down discards it (R287). -/
def sendOn (p0 : Packet) (from_ port dl : Nat) (d : Dev) : Dev :=
  let p := { p0 with dl := dl }
  if portDown (Sparse.get {} d.ports port) then
    countUnits p.ep (copyUnits p d)
      { d with ports := Sparse.modify {} d.ports port (fun x => { x with counts := bumpTable x.counts 8 1 }) }
  else
    let busy (v : Nat) : Bool := !(Sparse.get [] d.net.outQ (8 * port + v)).isEmpty ||
      !(Sparse.get (0, []) (Sparse.get {} d.ports port).txLeft v).2.isEmpty
    let d1 := if p.cls = 1 ∧ (busy 2 || busy 3) then
        raiseT 4 evSlotConflict (srcPort port) p.tenant { d with net.counts := bumpTable d.net.counts 4 1 }
      else d
    let _ := from_
    toOutput port (2 * p.cls + dl) (packetBytes p) d1

/-- R235 at this device: eject here, leave by the first dimension that differs, or no way on. -/
def routeUnicast (p : Packet) (from_ : Nat) (d : Dev) : Dev :=
  match (List.range 4).find? fun k => dimOf p.dst k != dimOf (ownCoord d) k with
  | none => deliver p d
  | some k =>
    let dir := direction p.ep k (dimOf p.dst k) d
    if dir = 2 then discardAt evRouteUnreachable 2 from_ p 1 d
    else sendOn p from_ (portOf k dir) (nextDl p from_ k dir d) d

/-- R241's spread from dimension `k` on, `n` dimensions left. -/
def spread : Nat → Nat → Packet → Nat → Dev → Dev
  | 0, _, p, _, d => deliver p d
  | n + 1, k, p, from_, d =>
    let here := dimOf (ownCoord d) k
    let vals := (List.range (dimSize k d)).filter fun v => bitOf (maskOf p.mask k) v && v != here
    let d1 := [0, 1].foldl (fun d dir =>
      match vals.filter fun v => direction p.ep k v d == dir with
      | [] => d
      | t :: ts =>
        let far := ts.foldl (fun b v => if ringDist k here b dir d < ringDist k here v dir d then v else b) t
        sendOn { p with mph := k, mdir := dir, dst := far + groupOf p * 2 ^ 6 } 9 (portOf k dir)
          (nextDl p 9 k dir d) d) d
    let lost := (vals.filter fun v => direction p.ep k v d == 2).length
    let d2 := (List.range lost).foldl (fun d _ => discardAt evRouteUnreachable 2 from_ p (unitsFrom p.mask (k + 1)) d) d1
    if bitOf (maskOf p.mask k) here then spread n (k + 1) p from_ d2 else d2

/-- R241's arrival of a copy in the phase it carries. -/
def arriveMulticast (p : Packet) (from_ : Nat) (d : Dev) : Dev :=
  let k := p.mph
  let here := dimOf (ownCoord d) k
  let d1 := if here != farOf p then sendOn p from_ (portOf k p.mdir) (nextDl p from_ k p.mdir d) d else d
  if bitOf (maskOf p.mask k) here then spread (3 - k) (k + 1) p from_ d1 else d1

/-- The checks a router makes on every packet: R234, the lifetime, and an idle bank. -/
def admitted (p : Packet) (from_ : Nat) (d : Dev) : Bool × Dev :=
  if !headerKept p d then (false, discardAt evFabricHeader 3 from_ p (copyUnits p d) d)
  else if 2 ≤ packetAge p d then (false, discardAt evPktLifetime 0 from_ p (copyUnits p d) d)
  else if bankState p.ep d = 0 then (false, discardAt evEpochStale 1 from_ p (copyUnits p d) d)
  else (true, d)

/-- The packet at the head of an input buffer is taken, and its flits are freed for the sender. -/
def takeInput (port vc : Nat) (mc : Bool) (d : Dev) : Option (Packet × Dev) :=
  match Sparse.get [] d.net.inQ (8 * port + vc) with
  | p :: rest =>
    if p.mc = mc then
      some (p, { d with
        net.inQ := Sparse.set [] d.net.inQ (8 * port + vc) rest
        ports := Sparse.modify {} d.ports port (fun x =>
          { x with freed := Sparse.modify 0 x.freed vc (· + flitsOf (packetSize p)) }) })
    else none
  | [] => none

/-- The network interface injects a packet (R232): the epoch, frame and units are fixed as it leaves. -/
def stampInjection (p : Packet) (d : Dev) : Packet × Dev :=
  let q := { p with ep := epoch d, injf := d.clk.frame % 16 }
  (q, { d with net.injected := bumpTable d.net.injected q.ep (injectUnits q) })

/-- Injection is held while the injection epoch's bank is idle; EPOCH_STALE is raised once (R245). -/
def injectionHeld (d : Dev) : Bool := bankState (epoch d) d == 0
def holdInjection (d : Dev) : Dev :=
  if d.net.staleRaised then d else raise 4 evEpochStale (srcNi 0) { d with net.staleRaised := true }

/-- A tracked request leaves the network interface: its entry counts it, and after the last packet of the
attempt waits (Table 11.5). -/
def noteSent (p : Packet) (d : Dev) : Dev :=
  if (p.typ = 0 ∨ p.typ = 2) ∧ p.mc = false then
    let b := fieldAt p.payload 0 16
    let tag := bitsOf b 32 14
    let e := Sparse.get {} d.rem.track tag
    if e.tenant = p.tenant ∧ e.state ≠ .free ∧ (p.typ = 2 ∨ bitsOf b 50 2 ≠ 2) then
      let sent := e.sent + 1
      let e1 := { e with lastTxFrame := d.clk.ticksPlaced }
      let e2 := if e.state = .send then
          { e1 with
            sent := sent
            firstTx := if e.attempt = 0 ∧ e.sent = 0 then d.now else e.firstTx
            attemptTx := if e.sent = 0 then d.now else e.attemptTx
            state := if e.count ≤ sent ∨ e.kind ≠ 0 then .wait else .send }
        else e1
      { d with rem.track := Sparse.set {} d.rem.track tag e2 }
    else d
  else d

/-- The coordinate of a packet's destination before aliases (R232): a request's rank is translated; DEDUCED (log entry
36): a response (TYPE 1 or 3) goes to the SRC of its request, which `dst` holds. -/
def destination (p : Packet) (d : Dev) : RankAnswer × Dev :=
  if p.typ = 1 ∨ p.typ = 3 then (.coord p.dst, d) else rankLookup p.tenant p.drank d

/-- A unicast packet of the network interface: alias, internal delivery, the T port, or the router. -/
def injectUnicast (p : Packet) (d : Dev) : Dev :=
  match destination p d with
  | (.miss, d1) => { d1 with net.inject := p :: d1.net.inject }
  | (.invalid, d1) => faultRun 1 evRankInvalid (srcNi 0) p.tenant d1
  | (.coord c0, d1) =>
    let c := aliased c0 d1
    let s := stampInjection { p with dst := c } (noteSent p d1)
    if c = ownCoord d1 then deliver s.1 s.2
    else if c = dictGet 0x6000 1 d1 ∧ tPortUp d1 then sendOn s.1 9 8 0 s.2
    else routeUnicast s.1 9 s.2

/-- The die whose queues a port's buffers are: ports 0 to 5 lie on die 0, the others on die 1. -/
def portDie (port : Nat) : Nat := if port < 6 then 0 else 1

/-- A packet read from the input buffer of `port` holds an uncorrectable word (R223, R248): it is discarded. One in
transit raises FABRIC_UE; one that ends at this device halts its run with QUEUE_UE (DEDUCED: log entry 36). -/
def inputSpoilt (p : Packet) (port : Nat) (d : Dev) : Dev :=
  let d1 := countUnits p.ep (copyUnits p d) (bumpQueue (portDie port) 2 d)
  if port = 8 ∨ (p.mc = false ∧ p.dst = ownCoord d) then faultRun 2 evQueueUe (srcPort port) p.tenant d1
  else raise 4 evFabricUe (srcPort port) d1

/-- A packet read from the injection queue holds an uncorrectable word (R223): it is discarded and its run halts. -/
def injectSpoilt (p : Packet) (d : Dev) : Dev := faultRun 2 evQueueUe (srcNi 0) p.tenant (bumpQueue 0 2 d)

/-- ROUTER_UNICAST on input `port` (0 to 8, or 9 for the network interface) and channel `vc`; `spoilt` says that the
packet read holds an uncorrectable word. -/
def routerUnicast (port vc : Nat) (spoilt : Bool) (d : Dev) : Dev :=
  if port = 9 then
    if injectionHeld d then (if d.net.inject.isEmpty then d else holdInjection d)
    else
      match pickInject false d with
      | (none, d1) => d1
      | (some (p, rest), d1) =>
        if spoilt then injectSpoilt p { d1 with net.inject := rest }
        else
          match passCap p d1 with
          | none => { d1 with net.inject := rest, net.held := d1.net.held ++ [p] }
          | some d2 => injectUnicast p { d2 with net.inject := rest }
  else
    match takeInput port vc false d with
    | none => d
    | some (p, d1) =>
      if spoilt then inputSpoilt p port d1
      else
        let a := admitted p port d1
        if a.1 then (if port = 8 then deliver p a.2 else routeUnicast p port a.2) else a.2

/-- ROUTER_MULTICAST: a copy on an input port spreads on; one of the network interface takes its group's mask
and starts at dimension X; `spoilt` as in ROUTER_UNICAST. -/
def routerMulticast (port vc : Nat) (spoilt : Bool) (d : Dev) : Dev :=
  if port = 9 then
    if injectionHeld d then (if d.net.inject.isEmpty then d else holdInjection d)
    else
      match pickInject true d with
      | (none, d1) => d1
      | (some (p, rest), d1) =>
        if spoilt then injectSpoilt p { d1 with net.inject := rest }
        else
          match passCap p d1 with
          | none => { d1 with net.inject := rest, net.held := d1.net.held ++ [p] }
          | some d2 =>
            let s := stampInjection { p with mask := bitsOf (groupRecord (groupOf p) d2) 0 128 } { d2 with net.inject := rest }
            spread 4 0 s.1 9 s.2
  else
    match takeInput port vc true d with
    | none => d
    | some (p, d1) =>
      if spoilt then inputSpoilt p port d1
      else
        let a := admitted p port d1
        if a.1 then arriveMulticast p port a.2 else a.2

/-- INJECTION_CAP_RELEASE: the first held packet of a tenant whose bucket has refilled goes back to the head of
the queue; its tokens are taken as it leaves. -/
def injectionCapRelease (t : Nat) (d : Dev) : Dev :=
  match takeFirst (fun p => p.tenant == t) d.net.held with
  | none => d
  | some (p, rest) =>
    if (passCap p d).isSome then { d with net.held := rest, net.inject := p :: d.net.inject } else d

/-! ## The splice drain and the lifetime -/

/-- The epoch that is retiring. -/
def retiringEpoch (d : Dev) : Option Nat :=
  if d.net.bank0 = 2 then some 0 else if d.net.bank1 = 2 then some 1 else none

/-- Event 5 of Table 10.10: at the tick after a switch every bank still retiring becomes idle. -/
def retireEnds (d : Dev) : Dev :=
  match retiringEpoch d with
  | some ep => setBank ep 0 d
  | none => d

/-- The drain ordered set (Table 10.11). -/
def drainSet (release : Bool) (ep k i dd : Nat) : BitVec 128 :=
  withCrc16 ((if release then 1 else 0) + ep % 2 * 2 + k % 2 ^ 14 * 4 + i % 2 ^ 48 * 2 ^ 16 + dd % 2 ^ 48 * 2 ^ 64)

/-- The role, parent port and child ports of the tick tree (Table 2.10). -/
def clapperRole (d : Dev) : Nat := dictGet 0x2000 2 d
def parentPort (d : Dev) : Nat := dictGet 0x2000 5 d
def childPorts (d : Dev) : List Nat := bitsSet 9 (dictGet 0x2000 6 d)

/-- An ordered set goes out on a port that is up; none is sent during a retrain (R280). -/
def sendSet (port ostype : Nat) (set : BitVec 128) (d : Dev) : Dev :=
  if (Sparse.get {} d.ports port).state = 2 then emit (.orderedSet port ostype set) d else d

/-- A drain ordered set is sent on every child port. -/
def toChildren (set : BitVec 128) (d : Dev) : Dev := (childPorts d).foldl (fun d p => sendSet p 2 set d) d

/-- The sums of a round, once every child has reported, go to the parent; the clapper releases when they agree. -/
def drainForward (k : Nat) (d : Dev) : Dev :=
  match retiringEpoch d with
  | none => d
  | some ep =>
    let kids := (childPorts d).map fun p => Sparse.get (0, 0) d.net.reports (k * 16 + p)
    if kids.any fun r => r.1 == 0 then d
    else
      let own := Sparse.get (0, 0) d.net.reports (k * 16 + 15)
      if own.1 = 0 then d
      else
        let i : Nat := kids.foldl (fun n r => n + (r.1 - 1)) (own.1 - 1)
        let dd : Nat := kids.foldl (fun n r => n + r.2) own.2
        if clapperRole d ≠ 0 then
          if (i % 2 ^ 48 : Nat) = (dd % 2 ^ 48 : Nat) then toChildren (drainSet true ep k 0 0) (setBank ep 0 d) else d
        else if parentPort d < 9 then sendSet (parentPort d) 2 (drainSet false ep k i dd) d
        else d

/-- DRAIN_ROUND k: at t = 16k us the device samples its own counts. A sample is kept as I + 1 and D. -/
def drainRound (k : Nat) (d : Dev) : Dev :=
  match retiringEpoch d with
  | none => d
  | some ep =>
    if 0 < k ∧ d.clk.placed ∧ d.clk.lastTick + 16 * k * tUs ≤ d.now ∧ 16 * k * tUs < framePeriod d ∧ d.net.round < k then
      drainForward k { d with
        net.round := k
        net.reports := Sparse.set (0, 0) d.net.reports (k * 16 + 15)
          (Sparse.get 0 d.net.injected ep % 2 ^ 48 + 1, Sparse.get 0 d.net.delivered ep % 2 ^ 48) }
    else d

/-- DRAIN_REPORT on a child port: a good report of the retiring epoch is taken into its round. -/
def drainReport (port : Nat) (set : BitVec 128) (d : Dev) : Dev :=
  let v := set.toNat
  match retiringEpoch d with
  | none => d
  | some ep =>
    if crc16Good set && !bitOf v 0 && decide (bitsOf v 1 1 = ep) && (childPorts d).contains port then
      let k := bitsOf v 2 14
      drainForward k { d with
        net.reports := Sparse.set (0, 0) d.net.reports (k * 16 + port) (bitsOf v 16 48 + 1, bitsOf v 64 48) }
    else d

/-- DRAIN_RELEASE on the parent port: the retiring bank becomes idle and the release goes on. -/
def drainRelease (port : Nat) (set : BitVec 128) (d : Dev) : Dev :=
  let v := set.toNat
  match retiringEpoch d with
  | none => d
  | some ep =>
    if crc16Good set && bitOf v 0 && decide (bitsOf v 1 1 = ep) && port == parentPort d then
      toChildren set (setBank ep 0 d)
    else d

/-- Whether output channel `vc` of a port carries mirror records and not packets: channel 7 and, for heartbeats,
channel 1 of T (R318, R324). -/
def carriesRecords (port vc : Nat) : Bool := port == 8 && (vc == 7 || vc == 1)

/-- The packets of a replay buffer, each with its flits; the last may still be going out. -/
def heldPackets : List HeldFlit → List (List HeldFlit)
  | [] => []
  | f :: fs =>
    match heldPackets fs with
    | [] => [[f]]
    | g :: gs => if (g.head?.map (·.sop)).getD true then [f] :: g :: gs else (f :: g) :: gs

/-- Whether a held packet, or one whose flits these bytes begin, has reached its age. -/
def agedOut (port vc : Nat) (bs : Bytes) (d : Dev) : Bool :=
  !carriesRecords port vc && decide (2 ≤ packetAge (parsePacket bs) d)

/-- The sweep of one port's replay buffer: an aged packet leaves it with the rest of its flits. -/
def sweepReplay (port : Nat) (x : Port) (d0 : Dev) : Dev :=
  let groups := (List.range 8).map fun v => (v, heldPackets (x.replay.filter (·.vc == v)))
  let dead := groups.flatMap fun g => (g.2.filter fun fl => (fl.head?.map (·.sop)).getD false &&
    agedOut port g.1 ((fl.map (·.body)).flatten) d0).map fun fl => (g.1, fl)
  let gone := (dead.flatMap (·.2)).map (·.fseq)
  let cut := (dead.filter fun g => !(g.2.any (·.eop))).map (·.1)
  let y : Port := { x with replay := x.replay.filter fun f => !gone.contains f.fseq
                           txLeft := x.txLeft.filter fun q => !cut.contains q.1 }
  let z : Port := { y with resend := min y.resend y.replay.length }
  if dead.isEmpty then d0
  else
    dead.foldl (fun d g =>
      let p := parsePacket ((g.2.map (·.body)).flatten)
      discardAt evPktLifetime 0 port p (copyUnits p d) d) { d0 with ports := Sparse.set {} d0.ports port z }

/-- PKT_LIFETIME_SWEEP (R245): at a tick, packets of age 2 or more leave the input buffers, the output queues
and the replay buffers. -/
def lifetimeSweep (d0 : Dev) : Dev :=
  let d1 := d0.net.inQ.foldl (fun d q =>
    let dead := q.2.filter fun p => decide (2 ≤ packetAge p d)
    let port := q.1 / 8
    dead.foldl (fun d p => discardAt evPktLifetime 0 port p (copyUnits p d) d)
      { d with
        net.inQ := Sparse.modify [] d.net.inQ q.1 (fun l => l.filter (fun p => !decide (2 ≤ packetAge p d)))
        ports := if dead.isEmpty then d.ports else Sparse.modify {} d.ports port (fun x =>
          { x with freed := Sparse.modify 0 x.freed (q.1 % 8) (· + dead.foldl (fun n p => n + flitsOf (packetSize p)) 0) }) }) d0
  let d2 := d1.net.outQ.foldl (fun d q =>
    let old (e : Nat × Bytes) : Bool := agedOut (q.1 / 8) (q.1 % 8) e.2 d
    (q.2.filter old).foldl (fun d e =>
        discardAt evPktLifetime 0 (q.1 / 8) (parsePacket e.2) (copyUnits (parsePacket e.2) d) d)
      { d with net.outQ := Sparse.modify [] d.net.outQ q.1 (fun l => l.filter (fun b => !old b)) }) d1
  d2.ports.foldl (fun d p => sweepReplay p.1 p.2 d) d2

/-! ## Slot windows (R239) -/

/-- SLOT_WINDOW_OPEN and SLOT_WINDOW_CLOSE act on a tenant's context; a last close sends what is unsent on VC-Q
and raises SLOT_OVERRUN once per context and run frame. -/
def slotOpen (t cctx : Nat) (d : Dev) : Dev :=
  { d with net.slotOpen := Sparse.set false d.net.slotOpen (slotKey t cctx) true }
def slotClose (t cctx : Nat) (last : Bool) (d : Dev) : Dev :=
  let d1 := { d with net.slotOpen := Sparse.set false d.net.slotOpen (slotKey t cctx) false }
  let mine (p : Packet) : Bool := p.tenant == t && p.cls == 1 && p.window == cctx + 1
  if last && d1.net.inject.any mine then
    let d2 := { d1 with net.inject := d1.net.inject.map fun p => if mine p then { p with cls := 2 } else p }
    let r := (getRun t d).index + 1
    if Sparse.get 0 d2.net.overrun (slotKey t cctx) = r then d2
    else raiseT 4 evSlotOverrun (srcNi 0) t
      { d2 with net.overrun := Sparse.set 0 d2.net.overrun (slotKey t cctx) r
                net.counts := bumpTable d2.net.counts 5 1 }
  else d1

/-! ## The commands -/

def execRouterUnicast (port vc : Nat) (spoilt : Bool) (s : State) : Host.Outcome State Fault Refusal :=
  onDev (decide (port < 10) && decide (vc < 8)) (routerUnicast port vc spoilt) s
def execRouterMulticast (port vc : Nat) (spoilt : Bool) (s : State) : Host.Outcome State Fault Refusal :=
  onDev (decide (port < 10) && decide (vc < 8)) (routerMulticast port vc spoilt) s
def execPktLifetimeSweep (s : State) : Host.Outcome State Fault Refusal := onDev true lifetimeSweep s
def execRankCacheFill (s : State) : Host.Outcome State Fault Refusal := onDev true rankCacheFill s
def execDrainRound (round : Nat) (s : State) : Host.Outcome State Fault Refusal := onDev true (drainRound round) s
def execDrainReport (port : Nat) (set : BitVec 128) (s : State) : Host.Outcome State Fault Refusal :=
  onDev (decide (port < 9)) (drainReport port set) s
def execDrainRelease (port : Nat) (set : BitVec 128) (s : State) : Host.Outcome State Fault Refusal :=
  onDev (decide (port < 9)) (drainRelease port set) s
def execInjectionCapRelease (tenant : Nat) (s : State) : Host.Outcome State Fault Refusal :=
  onDev (decide (tenant < 1024)) (injectionCapRelease tenant) s

end Sys2Proof.Machine
end

