-- ==== Sys2Proof/Machine/Transport.lean ====
section
/-!
DEFINITION. How a Tabing message leaves the device: its header (Table 17.1), the transports (Table 17.2), the
SMBus twin sideband with its arbitration (R381, R391), and the notifications to the lease holder (R390).
-/
namespace Sys2Proof.Machine

/-- The role of a transport's requesters; transports are the rows of Table 17.2 from 0. -/
def roleOf (tr : Nat) : Role := if tr ≤ 1 then .host else if tr ≤ 3 then .manager else .twin

/-- The code of a role in 0x1200:0x01. -/
def roleCode : Role → Nat
  | .host => 1
  | .manager => 2
  | .twin => 3

/-- Adds 1 to a count of 0x6800:0x10: 0 taken, 1 discarded, 2 repeats, 3 aborts, 4 notifications sent, 5 resent,
6 dropped, 7 leases forced. -/
def bumpMgmt (i : Nat) (d : Dev) : Dev := { d with mgmt.counts := bumpTable d.mgmt.counts i 1 }

/-- A Tabing message (Table 17.1). -/
def message (kind tid idx sub flags lease code off : Nat) (v : Bytes) : Bytes :=
  leBytes 1 1 ++ leBytes 1 kind ++ leBytes 2 tid ++ leBytes 2 idx ++ leBytes 1 sub ++ leBytes 1 flags ++ leBytes 4 lease ++
  leBytes 2 v.length ++ leBytes 1 code ++ leBytes 1 0 ++ leBytes 4 off ++ v

/-! ## The twin sideband -/

/-- The twin coordinate, none while no twin is configured: the sideband is then silent. -/
def twinCoord (d : Dev) : Option Nat := if dictGet 0x6000 1 d = 0xFFFFFFFF then none else some (dictGet 0x6000 1 d)

/-- The own 7-bit address (R381). -/
def ownAddress (d : Dev) : Nat := if ownCoord d < dictGet 0x6000 1 d then 0x4A else 0x4B

/-- The PEC of an SMBus transfer: CRC-8 of polynomial x^8 + x^2 + x + 1 over its bytes (SMBus 3.2; PRESUMED, log
entry 32). -/
def pecByte (crc b : BitVec 8) : BitVec 8 :=
  (List.range 8).foldl (fun c _ => if c.getLsbD 7 then (c <<< 1) ^^^ 0x07#8 else c <<< 1) (crc ^^^ b)
def pec (bs : Bytes) : BitVec 8 := bs.foldl pecByte 0

/-- A Tabing message as the blocks of R381: address, command code, count, fragment control byte, message bytes,
PEC. -/
def sidebandBlocks (address : Nat) (msg : Bytes) : List Bytes :=
  let n := max 1 ((msg.length + 253) / 254)
  (List.range n).map fun i =>
    let part := (msg.drop (254 * i)).take 254
    let ctl := (if i = 0 then 128 else 0) + (if i + 1 = n then 64 else 0) + i % 64
    let body := leBytes 1 (2 * address) ++ leBytes 1 0x54 ++ leBytes 1 (part.length + 1) ++ leBytes 1 ctl ++ part
    body ++ [pec body]

/-- Drives a message on the sideband. -/
def driveSideband (msg : Bytes) (d : Dev) : Dev :=
  (sidebandBlocks (0x4A + 0x4B - ownAddress d) msg).foldl (fun d b => emit (.sideband b) d) d

/-- A message for the twin: driven at once, or behind those that lost arbitration and wait for their retry. The
message driven last stays at hand until the bus is known to be won. -/
def sidebandSend (msg : Bytes) (d : Dev) : Dev :=
  if (twinCoord d).isNone then d
  else if d.mgmt.smbusLost.isSome then { d with mgmt.smbusOut := d.mgmt.smbusOut ++ [msg] }
  else driveSideband msg { d with mgmt.smbusOut := [msg] }

/-- The delay of R391 [us], 0 to 50: the generator behind it is not stated, so it is a free value (log entry 59). -/
def drawDelay (d : Dev) : Nat × Dev :=
  let x := freshValue 32 d
  (x.1 % 51, x.2)

/-- ARBITRATION_LOSS: the device has lost the bus; its message waits until the bus has been idle for 50 us and the
drawn delay. -/
def arbitrationLoss (d : Dev) : Dev :=
  let x := drawDelay d
  { x.2 with mgmt.smbusLost := some x.1, mgmt.smbusIdleAt := x.2.now
             mgmt.smbusCounts := bumpTable x.2.mgmt.smbusCounts 0 1 }

/-- SMBUS_RETRY: a message that lost is driven again once its time has come; `lost` says that it loses again. -/
def smbusRetry (lost : Bool) (d : Dev) : Dev :=
  match d.mgmt.smbusLost, d.mgmt.smbusOut with
  | some k, m :: rest =>
    if d.mgmt.smbusIdleAt + (50 + k) * tUs ≤ d.now then
      let d1 := { d with mgmt.smbusCounts := bumpTable d.mgmt.smbusCounts 1 1 }
      if lost then arbitrationLoss d1
      else rest.foldl (fun d x => sidebandSend x d)
        (driveSideband m { d1 with mgmt.smbusLost := none, mgmt.smbusOut := [m] })
    else d
  | _, _ => d

def execSmbusRetry (lost : Bool) (s : State) : Host.Outcome State Fault Refusal := onDev true (smbusRetry lost) s

/-- The probe of R326: a READ of the twin's 0x6000:0x08 with a TID the device chooses. -/
def sendProbe (d : Dev) : Dev :=
  let t := freshValue 16 d
  sidebandSend (message 0x01 t.1 0x6000 0x08 0 0 0 0 []) t.2

/-! ## Messages out -/

/-- A message goes out on a transport; on the host mailbox it goes to the response buffer (R423). -/
def sendMessage (tr addr : Nat) (msg : Bytes) (d : Dev) : Dev :=
  if tr = 0 then
    sendVector 1 (emit (.tabing 0 0 msg)
      { d with pcie.rspBuf := msg, pcie.rspLen := msg.length, pcie.rspValid := true, pcie.reqBusy := false })
  else if tr = 4 then sidebandSend msg (emit (.tabing 4 addr msg) d)
  else emit (.tabing tr addr msg) d

/-! ## Notifications (R390) -/

/-- The NOTIFY message of a notification. Table 17.1 gives NOTIFY no INDEX, SUB, FLAGS or LEASE: free values (log entry 58). -/
def noticeMessage (n : Notice) (d : Dev) : Bytes × Dev :=
  let i := freshValue 16 d
  let s := freshValue 8 i.2
  let f := freshValue 2 s.2
  let l := freshValue 32 f.2
  (message 0x05 (n.seq % 65536) i.1 s.1 f.1 l.1 0 0 n.value, l.2)

/-- A notification goes to the lease holder, counted; on the host mailbox it waits while NTF_VALID is 1 (R423). -/
def sendNotice (counter : Nat) (n : Notice) (d0 : Dev) : Dev :=
  let d := bumpMgmt counter d0
  let sent (d : Dev) : Dev :=
    { d with mgmt.notices := d.mgmt.notices.map fun x => if x.seq = n.seq then { x with sentAt := some d.now } else x }
  if d.mgmt.lease.transport = 0 then
    if d.pcie.ntfValid then d0
    else
      let m := noticeMessage n d
      sendVector 1 (emit (.tabing 0 0 m.1)
        (sent { m.2 with pcie.ntfBuf := m.1, pcie.ntfLen := m.1.length, pcie.ntfValid := true }))
  else
    let m := noticeMessage n d
    sendMessage d.mgmt.lease.transport d.mgmt.lease.address m.1 (sent m.2)

/-- A notification is queued and sent while there is a lease; a 65th drops the oldest (NOTIFY_OVERFLOW). -/
def notify (v : Bytes) (d : Dev) : Dev :=
  if d.mgmt.lease.role = 0 then d
  else
    let n : Notice := { seq := d.mgmt.noticeSeq, value := v, sentAt := none }
    let full := decide (64 ≤ d.mgmt.notices.length)
    let d1 := { d with
      mgmt.noticeSeq := d.mgmt.noticeSeq + 1
      mgmt.notices := (if full then d.mgmt.notices.drop 1 else d.mgmt.notices) ++ [n] }
    let d2 := if full then raise 4 evNotifyOverflow 0 (bumpMgmt 6 d1) else d1
    sendNotice 4 n d2

/-- Whether a notification falls due again: 100 ms after it was last sent. -/
def noticeDue (n : Notice) (d : Dev) : Bool := n.sentAt.any fun a => decide (a + 100 * tMs ≤ d.now)

/-- NOTIFY_RESEND: every notification that has waited 100 ms for its acknowledgement is sent again. -/
def notifyResend (d : Dev) : Dev :=
  (d.mgmt.notices.filter fun n => noticeDue n d).foldl (fun d n => sendNotice 5 n d) d

/-- The first notification that has never been sent is sent, once the mailbox is free. -/
def sendWaitingNotice (d : Dev) : Dev :=
  match d.mgmt.notices.find? fun n => n.sentAt.isNone with
  | some n => sendNotice 4 n d
  | none => d

def execNotifyResend (s : State) : Host.Outcome State Fault Refusal := onDev true notifyResend s

end Sys2Proof.Machine
end

