-- ==== Sys2Proof/Machine/Events.lean ====
section
/-!
DEFINITION. The event collector (R466 to R469): the record, its place in the log, the host rings, the persistent
ring and the notification.
-/
namespace Sys2Proof.Machine

/-- The 32-byte record (Table 22.2). -/
def eventRecord (e : Event) : Bytes :=
  leBytes 8 e.seq ++ leBytes 2 (e.cls * 4096 + e.num) ++ leBytes 2 (tenantField e.tenant) ++ leBytes 2 e.source ++
  leBytes 1 (min 255 e.repeats) ++ leBytes 1 ((if e.halt then 1 else 0) + (if e.taken then 2 else 0)) ++
  leBytes 6 e.frame ++ leBytes 4 e.offset ++ leBytes 6 e.detail

/-- Whether a record is taken before another (R467): by the mc of its arrival, then by SOURCE, then in the order
raised, and within one cycle by CODE. -/
def takenBefore (x y : Event) : Bool :=
  let a := x.raisedAt / tMc
  let b := y.raisedAt / tMc
  decide (a < b) || (a == b && (decide (x.source < y.source) || (x.source == y.source &&
    (decide (x.raisedAt < y.raisedAt) || (x.raisedAt == y.raisedAt && decide (x.cls * 4096 + x.num < y.cls * 4096 + y.num))))))

/-- The record that is next, and the queue without it. -/
def pickEvent : List Event → Option (Event × List Event)
  | [] => none
  | e :: es =>
    match pickEvent es with
    | none => some (e, [])
    | some (x, rest) => if takenBefore x e then some (x, e :: rest) else some (e, es)

/-! ## Host rings (R419) -/

/-- A function block. -/
def getBlock (fn : Nat) (d : Dev) : FnBlock := Sparse.get {} d.pcie.blocks fn
/-- A function block becomes `b`. -/
def setBlock (fn : Nat) (b : FnBlock) (d : Dev) : Dev := { d with pcie.blocks := Sparse.set {} d.pcie.blocks fn b }

/-- Entry 0 of a function is sent for its event ring, at most once per 10 us. -/
def ringInterrupt (fn : Nat) (d : Dev) : Dev :=
  let b := getBlock fn d
  if b.intDue && (b.intLast.all fun l => decide (l + 10 * tUs ≤ d.now)) then
    sendVector (vectorOf fn 0 d) (setBlock fn { b with intDue := false, intLast := some d.now } d)
  else d

/-- A record goes to a function's ring while it is enabled; a full ring drops it and sets OVERFLOW. -/
def ringRecord (fn : Nat) (bs : Bytes) (d : Dev) : Dev :=
  let b := getBlock fn d
  if bitOf b.evrCtl 8 = false then d
  else if ((b.tail + 2 ^ 32 - b.head) % 2 ^ 32 : Nat) = 2 ^ b.ringLog2 then
    setBlock fn { b with overflow := true } d
  else
    ringInterrupt fn (setBlock fn { b with tail := (b.tail + 1) % 2 ^ 32, intDue := b.intDue || bitOf b.evrCtl 9 }
      (hostWrite fn (b.ringBase + 32 * (b.tail % 2 ^ b.ringLog2)) bs d))

/-- The functions whose rings receive a record besides the PF's: that of its tenant, and that of a register
access (Table 19.8). -/
def ringFns (e : Event) : List Nat :=
  (match e.tenant with | some t => [t + 1] | none => []) ++
  (if e.source / 4096 = 7 ∧ 0 < e.source % 4096 ∧ e.tenant.isNone ∧ (e.num = evAccessWidth ∨ e.num = evAccessAlign ∨ e.num = evRegRefused)
   then [e.source % 4096] else [])

/-- Interrupts that the 10 us limit held back are sent once it allows. -/
def ringInterrupts (d : Dev) : Dev := (d.pcie.blocks.map (·.1)).foldl (fun d fn => ringInterrupt fn d) d

/-! ## The collector -/

/-- A record is taken: SEQ and REPEAT filled in, the log, the rings, the persistent ring, the notification. -/
def collect (e0 : Event) (d : Dev) : Dev :=
  let k := Sparse.get {} d.ev.keys (eventKey e0)
  let e : Event := { e0 with seq := d.ev.nextSeq, repeats := min 255 k.unrecorded }
  let d1 := { d with
    ev.nextSeq := d.ev.nextSeq + 1
    ev.log := Sparse.set {} d.ev.log (e.seq % 4096) e
    ev.keys := Sparse.set {} d.ev.keys (eventKey e0) { lastRecorded := some d.now, unrecorded := 0 }
    ev.lastMc := some (d.now / tMc)
    ev.persistentWaiting := if e.cls = 2 ∨ e.cls = 3 then d.ev.persistentWaiting ++ [e] else d.ev.persistentWaiting }
  let d2 := (ringFns e).foldl (fun d fn => ringRecord fn (eventRecord e) d) (ringRecord 0 (eventRecord e) d1)
  if bitOf (dictGet 0x1200 3 d2) e.cls || e.num == evCommitDone then notify (eventRecord e) d2 else d2

/-- EVENT_COLLECT: the record that is next is taken, at most one in each mc. -/
def eventCollect (d0 : Dev) : Dev :=
  let d := ringInterrupts d0
  if d.ev.lastMc = some (d.now / tMc) then d
  else
    match pickEvent d.ev.queue with
    | none => d
    | some (e, rest) => collect e { d with ev.queue := rest }

/-- PERSISTENT_RING_WRITE: the oldest waiting record of class 0x2 or 0x3 reaches the persistent ring (R400). -/
def persistentRingWrite (d : Dev) : Dev :=
  match d.ev.persistentWaiting with
  | [] => d
  | e :: rest =>
    { d with
      ev.persistentWaiting := rest
      ev.persistent := Sparse.set {} d.ev.persistent (d.ev.persistentCount % 256) e
      ev.persistentCount := d.ev.persistentCount + 1 }

/-- Every record the collector has taken reaches the persistent ring before a reset that the device itself
begins. -/
def persistAll (d : Dev) : Dev := d.ev.persistentWaiting.foldl (fun d _ => persistentRingWrite d) d

def execEventCollect (s : State) : Host.Outcome State Fault Refusal := onDev true eventCollect s
def execPersistentRingWrite (s : State) : Host.Outcome State Fault Refusal := onDev true persistentRingWrite s

end Sys2Proof.Machine
end

