-- ==== Sys2Proof/Machine/Flash.lean ====
section
/-!
DEFINITION. The on-package flash (Table 20.1) and the boot record it holds (Table 20.3).
-/
namespace Sys2Proof.Machine

/-! ## Bytes -/

/-- A byte of the flash; one that nothing has been written to since the last erase reads 0xFF. -/
def flashByte (a : Nat) (d : Dev) : Byte := Sparse.get 0xFF d.boot.flash a

/-- `n` bytes of the flash. -/
def flashRead (a n : Nat) (d : Dev) : Bytes := (List.range n).map fun i => flashByte (a + i) d

/-- Bytes put into the flash, area erased and written again (the boot record). -/
def flashPut (a : Nat) (bs : Bytes) (d : Dev) : Dev :=
  { d with boot.flash := ((List.range bs.length).foldl (fun m i => Sparse.set 0xFF m (a + i) (bs.getD i 0)) d.boot.flash) }

/-- Bytes programmed: a byte written twice holds the bitwise AND of its values (R441). -/
def flashProgram (a : Nat) (bs : Bytes) (d : Dev) : Dev :=
  flashPut a ((List.range bs.length).map fun i => bs.getD i 0 &&& flashByte (a + i) d) d

/-- An area erased. -/
def flashErase (a n : Nat) (d : Dev) : Dev :=
  { d with boot.flash := d.boot.flash.filter fun c => !(decide (a ≤ c.1) && decide (c.1 < a + n)) }

/-- Where a slot lies: 0 A, 1 B. -/
def slotBase (s : Nat) : Nat := if s = 0 then 0x0100000 else 0x1100000

/-- Bytes of a slot. -/
def slotSize : Nat := 0x1000000

/-! ## The boot record -/

/-- The fields of the boot record (Table 20.3). -/
structure BootRec where
  seq : Nat := 0
  count : Nat := 0
  next : Nat := 0
  last : Nat := 0xFF
  flags : Nat := 0
  reason : Nat := 0
  floor : Nat := 0
  version : Nat := 0
  started : Nat := 0
  ready : Nat := 0
  time : Nat := 0
  deriving DecidableEq, Repr

/-- Whether INPROG, MINLATCH or FALLBACK is set. -/
def BootRec.inprog (r : BootRec) : Bool := bitOf r.flags 0
def BootRec.minlatch (r : BootRec) : Bool := bitOf r.flags 1

/-- The record with flag `i` set or cleared. -/
def BootRec.setFlag (r : BootRec) (i : Nat) (b : Bool) : BootRec :=
  { r with flags := if bitOf r.flags i == b then r.flags else if b then r.flags + 2 ^ i else r.flags - 2 ^ i }

/-- The 64 bytes of a record, with its CRC. -/
def BootRec.bytes (r : BootRec) : Bytes :=
  let b := leBytes 8 r.seq ++ leBytes 1 r.count ++ leBytes 1 r.next ++ leBytes 1 r.last ++ leBytes 1 r.flags ++
    leBytes 2 r.reason ++ leBytes 2 0 ++ leBytes 4 r.floor ++ leBytes 4 r.version ++ leBytes 8 r.started ++
    leBytes 8 r.ready ++ leBytes 4 r.time ++ fillBytes 16 0
  b ++ leBytes 4 (crc32c b)

/-- The record that 64 bytes hold. -/
def parseBootRec (b : Bytes) : BootRec :=
  { seq := fieldAt b 0 8, count := fieldAt b 8 1, next := fieldAt b 9 1, last := fieldAt b 0xA 1, flags := fieldAt b 0xB 1,
    reason := fieldAt b 0xC 2, floor := fieldAt b 0x10 4, version := fieldAt b 0x14 4, started := fieldAt b 0x18 8,
    ready := fieldAt b 0x20 8, time := fieldAt b 0x28 4 }

/-- Copy `k` of the record, and whether it is valid: its CRC passes. -/
def recordCopy (k : Nat) (d : Dev) : Bytes := flashRead (0x1000 * k) 64 d
def copyValid (k : Nat) (d : Dev) : Bool :=
  let b := recordCopy k d
  decide (crc32c (b.take 60) = fieldAt b 0x3C 4)

/-- The copy in use: the valid one with the higher SEQ (R433). -/
def copyInUse (d : Dev) : Option Nat :=
  if copyValid 0 d then
    if copyValid 1 d && decide (fieldAt (recordCopy 0 d) 0 8 < fieldAt (recordCopy 1 d) 0 8) then some 1 else some 0
  else if copyValid 1 d then some 1
  else none

/-- The boot record in use. -/
def bootRec (d : Dev) : BootRec :=
  match copyInUse d with
  | some k => parseBootRec (recordCopy k d)
  | none => {}

/-- An update writes the copy that does not hold the higher SEQ, with SEQ + 1 (R433). -/
def putBootRec (r : BootRec) (d : Dev) : Dev :=
  match copyInUse d with
  | some k => flashPut (0x1000 * (1 - k)) ({ r with seq := (bootRec d).seq + 1 } : BootRec).bytes d
  | none => flashPut 0 r.bytes d

/-- The boot record changed. -/
def modBootRec (f : BootRec → BootRec) (d : Dev) : Dev := putBootRec (f (bootRec d)) d

/-! ## Persistent values (R384) -/

/-- A persistent value that has taken effect waits to be written to flash. -/
def persist (idx sub v : Nat) (d : Dev) : Dev :=
  { d with mgmt.flashWaiting := d.mgmt.flashWaiting ++ [(entryKey idx sub, v, d.now)] }

/-- PERSISTENT_VALUE_WRITE: the oldest value that waits is in flash. -/
def persistentValueWrite (d : Dev) : Dev :=
  match d.mgmt.flashWaiting with
  | [] => d
  | (k, v, _) :: rest =>
    { d with mgmt.flashWaiting := rest, mgmt.flash := Sparse.set none d.mgmt.flash k (some v) }

def execPersistentValueWrite (s : State) : Host.Outcome State Fault Refusal := onDev true persistentValueWrite s

end Sys2Proof.Machine
end

