-- ==== Sys2Proof/Machine/Calib.lean ====
section
/-!
DEFINITION. Link-delay calibration (R35, Table 12.3).
-/
namespace Sys2Proof.Machine

/-- Port `p`. -/
def getPort (p : Nat) (d : Dev) : Port := Sparse.get {} d.ports p
/-- Port `p` becomes `x`. -/
def setPort (p : Nat) (x : Port) (d : Dev) : Dev := { d with ports := Sparse.set {} d.ports p x }
/-- Port `p` changed by `f`. -/
def modPort (p : Nat) (f : Port → Port) (d : Dev) : Dev := setPort p (f (getPort p d)) d

/-- Whether a port is optical: Z+, Z-, W+ and W- (Table 12.1). -/
def isOptical (p : Nat) : Bool := decide (4 ≤ p) && decide (p < 8)

/-- The sum of a history of delays. -/
def delaySum (l : List Int) : Int := l.foldl (· + ·) 0

/-- The filtered one-way delay of a port [ps], the mean of its history; 0 before its first training. -/
def filteredDelay (p : Nat) (d : Dev) : Int :=
  let l := Sparse.get [] d.clk.delays p
  if l.isEmpty then 0 else delaySum l / l.length

/-- The filtered delay in units of 50 ps, rounded to the nearest. -/
def delayUnits (p : Nat) (d : Dev) : Int := (filteredDelay p d + 25) / 50

/-- A new value of d [ps]: one more than 2 ns from the mean restarts the history, the last 16 are kept. -/
def delaySample (p : Nat) (v : Int) (d : Dev) : Dev :=
  let l := Sparse.get [] d.clk.delays p
  if !l.isEmpty && decide (2000 * l.length < (v * l.length - delaySum l).natAbs) then
    raise 4 evLinkDelayStep (srcPort p) { d with clk.delays := Sparse.set [] d.clk.delays p [v] }
  else { d with clk.delays := Sparse.set [] d.clk.delays p ((v :: l).take 16) }

/-- A difference of two 48-bit times. -/
def timeDiff (a b : Nat) : Int := signedOf 48 (a + 2 ^ 48 - b % 2 ^ 48)

/-- R35: d [ps] of four times in units of 50 ps; half a unit is 25 ps. -/
def exchangeDelay (p t1 t2 t3 t4 : Nat) (d : Dev) : Int :=
  (timeDiff t4 t1 - timeDiff t3 t2) * 25 + signedOf 32 (dictGet 0x2002 (p + 1) d)

/-- The calibration ordered set (Table 12.3). -/
def calibrationSet (phase ta tb : Nat) : BitVec 128 :=
  withCrc16 (phase % 4 + ta % 2 ^ 48 * 2 ^ 8 + tb % 2 ^ 48 * 2 ^ 56)

/-- This end begins an exchange on a port that is up: its request carries t1. -/
def calibrationRequest (p : Nat) (d : Dev) : Dev :=
  if (getPort p d).state = 2 then
    sendSet p 1 (calibrationSet 0 d.now 0) { d with clk.calSent := Sparse.set 0 d.clk.calSent p (d.now + 1) }
  else d

/-- CALIBRATION_ORDERED_SET: a request is replied to with t2 and t3; a reply completes the exchange of this end. A
set that fails its CRC, and a reserved PHASE, are not used. -/
def calibrationReceive (p : Nat) (set : BitVec 128) (d : Dev) : Dev :=
  let v := set.toNat
  if (getPort p d).state ≠ 2 ∨ crc16Good set = false then d
  else if bitsOf v 0 2 = 0 then sendSet p 1 (calibrationSet 1 d.now d.now) d
  else
    let sent := Sparse.get 0 d.clk.calSent p
    if bitsOf v 0 2 = 1 ∧ sent ≠ 0 then
      delaySample p (exchangeDelay p (sent - 1) (bitsOf v 8 48) (bitsOf v 56 48) d.now d)
        { d with clk.calSent := Sparse.set 0 d.clk.calSent p 0 }
    else d

def execCalibrationOrderedSet (port : Nat) (set : BitVec 128) (s : State) : Host.Outcome State Fault Refusal :=
  onDev (decide (port < 9)) (calibrationReceive port set) s

end Sys2Proof.Machine
end

