-- ==== Sys2Proof/Machine/Container.lean ====
section
/-!
DEFINITION. Slate containers (chapter 2): the header, the load and arm checks of Table 2.6, the frame table,
the interface section, its slot timetables, collective context records and chain entries (R239, R293, R304).
-/
namespace Sys2Proof.Machine

/-! ## Parts of a container -/

/-- The header fields of Table 2.2. -/
def parseContainer (base : Nat) (h : Bytes) : Container :=
  { base := base, size := fieldAt h 0x08 8, k := fieldAt h 0x10 1, guard := fieldAt h 0x11 1, margin := fieldAt h 0x12 2,
    opp := fieldAt h 0x14 1, notice := fieldAt h 0x15 1, policy := fieldAt h 0x16 1, start := bitsOf (fieldAt h 0x18 8) 0 48,
    prologue := fieldAt h 0x20 4, cycle := fieldAt h 0x24 4, rounds := fieldAt h 0x28 8, frameTable := fieldAt h 0x30 8,
    tileTable := fieldAt h 0x38 8, tileMask := fieldAt h 0x40 16, ifOff := fieldAt h 0x50 8, ifSize := fieldAt h 0x58 4,
    rankCount := fieldAt h 0x5C 4, peak := fieldAt h 0x60 4 }

/-- Entries of the frame table. -/
def Container.entries (c : Container) : Nat := c.prologue + c.cycle

/-- The frame-table entry of run frame `r` (R42): none once a bounded cycle has been repeated. -/
def Container.entryIndex (c : Container) (r : Nat) : Option Nat :=
  if r < c.prologue then some r
  else if c.rounds ≠ 0 ∧ c.rounds * c.cycle ≤ r - c.prologue then none
  else some (c.prologue + (r - c.prologue) % c.cycle)

/-- Whether [off, off + n) lies in the container. -/
def Container.holds (c : Container) (off n : Nat) : Bool := decide (off + n ≤ c.size)

/-- Whether every byte of a byte string is 0. -/
def allZero (bs : Bytes) : Bool := bs.all (· == 0)

/-- A program body (Table 2.2's interface section): where it lies in the container, its size and slots. -/
structure Body where
  off : Nat
  size : Nat
  slots : Nat
  deriving DecidableEq, Repr

/-- Everything the checks read, as bytes: the parts inside the container. -/
structure Parts where
  frames : Bytes
  tiles : Bytes
  sections : List (Nat × Bytes)
  iface : Bytes
  deriving DecidableEq, Repr

/-- The tile section table entry of tile `t`. -/
def tileEntry (tiles : Bytes) (t : Nat) : Bytes := (tiles.drop (32 * t)).take 32

/-- How many interface programs the frame table names: one more than the largest index. -/
def programCount (frames : Bytes) (n : Nat) : Nat :=
  (List.range n).foldl (fun m i =>
    let p := fieldAt frames (16 * i + 2) 2
    if p = 0xFFFF then m else max m (p + 1)) 0

/-- Interface table entry `i` of an interface section at `ifOff`. -/
def bodyOf (iface : Bytes) (ifOff i : Nat) : Body :=
  { off := ifOff + fieldAt iface (16 * i) 8, size := fieldAt iface (16 * i + 8) 4, slots := fieldAt iface (16 * i + 12) 4 }

/-! ## Reading the parts -/

/-- Reads one after another; the first that does not succeed stops. -/
def readPart (t ctx base : Nat) (acc : Met × List Bytes × Dev) (p : Nat × Nat) : Met × List Bytes × Dev :=
  if acc.1.done then
    let r := vaRead (dieTlb 0) t ctx (base + p.1) p.2 acc.2.2
    (if r.1.done then (if r.1 = .ue then .ue else acc.1) else r.1, acc.2.1 ++ [r.2.1], r.2.2)
  else acc

/-- The parts of a container that lie inside it; a part outside is read as empty. -/
def readParts (t ctx : Nat) (c : Container) (d : Dev) : Met × Parts × Dev :=
  let inside (off n : Nat) : Nat × Nat := if c.holds off n then (off, n) else (off, 0)
  let r := [inside c.frameTable (16 * c.entries), inside c.tileTable 4096, inside c.ifOff c.ifSize].foldl
    (readPart t ctx c.base) (.ok, [], d)
  let tiles := r.2.1.getD 1 []
  let spans := (bitsSet 128 c.tileMask).map fun tile =>
    let e := tileEntry tiles tile
    inside (fieldAt e 0 8) (fieldAt e 8 4)
  let q := spans.foldl (readPart t ctx c.base) (r.1, [], r.2.2)
  (q.1, { frames := r.2.1.getD 0 [], tiles := tiles, sections := (bitsSet 128 c.tileMask).zip q.2.1,
          iface := r.2.1.getD 2 [] }, q.2.2)

/-! ## The checks of Table 2.6 -/

/-- Check 0x03: a CRC that does not match over a part inside the container. -/
def crcWrong (c : Container) (h : Bytes) (p : Parts) : Bool :=
  decide (crc32c (h.take 0xFC) ≠ fieldAt h 0xFC 4) ||
  (c.holds c.frameTable (16 * c.entries) && decide (crc32c p.frames ≠ fieldAt h 0x64 4)) ||
  (c.holds c.tileTable 4096 && decide (crc32c p.tiles ≠ fieldAt h 0x68 4)) ||
  (c.holds c.ifOff c.ifSize && decide (crc32c p.iface ≠ fieldAt h 0x6C 4)) ||
  (p.sections.any fun s =>
    let e := tileEntry p.tiles s.1
    c.holds c.tileTable 4096 && c.holds (fieldAt e 0 8) (fieldAt e 8 4) && decide (crc32c s.2 ≠ fieldAt e 0x18 4))

/-- The frame period of a container in ns, its guard band and its trace margin. -/
def Container.periodNs (c : Container) : Nat := 2 ^ c.k * 1000
def Container.guardNs (c : Container) : Nat := c.guard * 500
def Container.marginNs (c : Container) : Nat := c.margin * 2 ^ c.k

/-- Context, chain and slot fields of a body's bytes: the offsets of its parts (R293). -/
def bodyContexts (b : Bytes) (slots : Nat) : Nat := fieldAt b (16 * slots) 2
def bodyChains (b : Bytes) (slots : Nat) : Nat := fieldAt b (16 * slots + 2) 2
def contextAt (b : Bytes) (slots i : Nat) : Bytes := (b.drop (16 * slots + 16 + 64 * i)).take 64
def chainAt (b : Bytes) (slots i : Nat) : Bytes :=
  (b.drop (16 * slots + 16 + 64 * bodyContexts b slots + 16 * i)).take 16

/-- ⌈log2 n⌉. -/
def ceilLog2 (n : Nat) : Nat := if n ≤ 1 then 0 else Nat.log2 (n - 1) + 1

/-- Fields of a context record (Table 13.3). -/
structure Ctx where
  kind : Nat
  rop : Nat
  etype : Nat
  alg : Nat
  cctx : Nat
  base : Nat
  s1 : Nat
  s2 : Nat
  n1 : Nat
  n2 : Nat
  segb : Nat
  nseg : Nat
  root : Nat
  stage : Nat
  result : Nat
  doneCtr : Nat
  group : Nat
  deriving DecidableEq, Repr

def parseCtx (b : Bytes) : Ctx :=
  { kind := fieldAt b 0 1, rop := fieldAt b 1 1, etype := fieldAt b 2 1, alg := fieldAt b 3 1,
    cctx := bitsOf (fieldAt b 4 2) 0 12, base := bitsOf (fieldAt b 8 4) 0 20, s1 := fieldAt b 0xC 4, s2 := fieldAt b 0x10 4,
    n1 := fieldAt b 0x14 2 + 1, n2 := fieldAt b 0x16 2 + 1, segb := fieldAt b 0x18 4, nseg := fieldAt b 0x1C 2 + 1,
    root := fieldAt b 0x1E 2, stage := fieldAt b 0x20 8, result := fieldAt b 0x28 8,
    doneCtr := bitsOf (fieldAt b 0x30 2) 0 14, group := fieldAt b 0x32 2 }

/-- Members of a context (R294). -/
def Ctx.n (c : Ctx) : Nat := c.n1 * c.n2

/-- The rank at a position. -/
def Ctx.rankAt (c : Ctx) (p : Nat) : Nat := c.base + p % c.n1 * c.s1 + p / c.n1 * c.s2

/-- The position that a rank holds. -/
def Ctx.posOf (c : Ctx) (rank : Nat) : Option Nat :=
  if rank < c.base then none
  else
    let off := rank - c.base
    let i2 := if c.n2 = 1 then 0 else off / c.s2
    let rest := off - i2 * c.s2
    if c.s1 ≠ 0 ∧ rest % c.s1 = 0 ∧ rest / c.s1 < c.n1 ∧ i2 < c.n2 then some (rest / c.s1 + c.n1 * i2) else none

/-- The partial area and the result of a segment (Table 13.4). -/
def Ctx.psz (c : Ctx) : Nat :=
  match c.kind with
  | 0 => if c.alg = 2 then ceilLog2 c.n * c.segb else c.segb
  | 1 => c.segb
  | _ => 0
def Ctx.rsz (c : Ctx) : Nat :=
  match c.kind with
  | 0 => c.segb
  | 1 => c.segb / c.n
  | 2 => c.n * c.segb
  | 3 => c.segb
  | 4 => c.segb
  | _ => 0

/-- Whether a kind and an algorithm go together (Table 13.1). -/
def kindAlg (kind alg : Nat) : Bool :=
  match kind with
  | 0 => decide (alg ≤ 2)
  | 1 => alg == 0
  | 2 => alg == 0
  | 3 => alg == 0 || alg == 2
  | 4 => alg == 3
  | 5 => alg == 3
  | _ => false

/-- Whether a context record keeps R292 and R294; `ranks` is the run's rank count. -/
def ctxGood (b : Bytes) (ranks : Nat) : Bool :=
  let c := parseCtx b
  kindAlg c.kind c.alg &&
  (if c.kind ≤ 1 then decide (c.rop ≤ 2) && decide (c.etype ≤ 2) else c.rop == 0 && (c.kind == 5 || decide (c.etype ≤ 4))) &&
  bitsOf (fieldAt b 4 2) 12 4 == 0 && fieldAt b 6 2 == 0 && bitsOf (fieldAt b 8 4) 20 12 == 0 &&
  decide (1 ≤ c.s1) && decide (c.s1 < 2 ^ 20) && (if c.n2 = 1 then c.s2 == 0 else decide (c.n1 * c.s1 ≤ c.s2)) &&
  decide (c.n ≤ 65536) && decide (c.rankAt (c.n - 1) < ranks) &&
  (if c.alg = 2 ∨ c.alg = 3 then decide (c.group < 4096) else c.group == 0xFFFF) &&
  (if c.kind = 5 then c.segb == 0
   else decide (64 ≤ c.segb) && decide (c.segb ≤ 64 * 2 ^ 20) &&
     (let unit := if c.kind = 1 ∨ c.kind = 4 ∨ (c.kind = 0 ∧ c.alg = 0) then 64 * c.n
                  else if c.kind = 0 ∧ c.alg = 1 then 128 * c.n else 1
      c.segb % unit == 0) &&
     decide (c.rsz < 2 ^ 32) && decide (c.segb + c.psz < 2 ^ 32)) &&
  (if c.kind = 3 then decide (c.root < c.n) else c.root == 0) &&
  decide (c.stage < 2 ^ 48) && c.stage % 64 == 0 && decide (c.result < 2 ^ 48) && c.result % 64 == 0 &&
  bitsOf (fieldAt b 0x30 2) 14 2 == 0 && allZero (b.drop 0x34)

/-- The bytes of a program body inside the interface section. -/
def bodyBytes (c : Container) (iface : Bytes) (b : Body) : Bytes := (iface.drop (b.off - c.ifOff)).take b.size

/-- The programs that lie wholly in the interface section, and hold their timetable and program header. -/
def bodyInside (c : Container) (progs : Nat) (b : Body) : Bool :=
  decide (c.ifOff + 16 * progs ≤ b.off) && decide (b.off + b.size ≤ c.ifOff + c.ifSize) &&
  decide (16 * b.slots + 16 ≤ b.size)

/-- Whether a body's parts fit in it and its reserved and ordered fields are good (R239, R293, R304); 0 where
they are, else the code of Table 2.6. -/
def bodyCode (c : Container) (b : Bytes) (slots : Nat) (defined : Nat → Bool) : Nat :=
  let nc := bodyContexts b slots
  let nh := bodyChains b slots
  let limit := c.periodNs - c.guardNs - c.marginNs
  let slotBad := (List.range slots).any fun i =>
    let s := fieldAt b (16 * i) 4
    decide (limit < s + fieldAt b (16 * i + 4) 4) || fieldAt b (16 * i + 4) 4 == 0 ||
    bitsOf (fieldAt b (16 * i + 8) 2) 12 4 != 0 || fieldAt b (16 * i + 10) 6 != 0 ||
    (decide (0 < i) && decide (s < fieldAt b (16 * (i - 1)) 4))
  if slotBad ∨ 4096 < nc ∨ 1024 < nh ∨ allZero ((b.drop (16 * slots + 4)).take 12) = false then 5
  else if b.length < 16 * slots + 16 + 64 * nc + 16 * nh then 7
  else
    let ids := (List.range nc).map fun i => (parseCtx (contextAt b slots i)).cctx
    let ctxBad := (List.range nc).any fun i => !ctxGood (contextAt b slots i) c.rankCount
    let chainBad := (List.range nh).any fun i =>
      let e := chainAt b slots i
      fieldAt e 0 4 % 16 != 0 || fieldAt e 4 2 == 0 || decide (1024 < fieldAt e 4 2) || decide (1 < fieldAt e 6 2) ||
      bitsOf (fieldAt e 8 2) 12 4 != 0 || fieldAt e 10 6 != 0
    let windowBad := (List.range nh).any fun i =>
      let e := chainAt b slots i
      bitOf (fieldAt e 6 2) 0 && !defined (bitsOf (fieldAt e 8 2) 0 12)
    let chainOut := (List.range nh).any fun i =>
      let e := chainAt b slots i
      decide (b.length < fieldAt e 0 4 + 32 * fieldAt e 4 2)
    if ctxBad ∨ chainBad ∨ windowBad ∨ ids.eraseDups.length ≠ nc then 5 else if chainOut then 7 else 0

/-- The context records of every program, as (CCTX, bytes). -/
def allContexts (c : Container) (iface : Bytes) (progs : Nat) : List (Nat × Bytes) :=
  (List.range progs).flatMap fun i =>
    let bd := bodyOf iface c.ifOff i
    if bodyInside c progs bd then
      let b := bodyBytes c iface bd
      (List.range (min 4096 (bodyContexts b bd.slots))).map fun j =>
        ((parseCtx (contextAt b bd.slots j)).cctx, contextAt b bd.slots j)
    else []

/-- Check 0x05 of the header, the frame table, the tile table and the interface programs. -/
def fieldsWrong (c : Container) (h : Bytes) (p : Parts) : Bool :=
  let progs := programCount p.frames c.entries
  let ctxs := allContexts c p.iface progs
  let defined (x : Nat) : Bool := ctxs.any fun e => e.1 == x
  !(decide (5 ≤ c.k) && decide (c.k ≤ 12)) || !(decide (2 ≤ c.guard) && decide (c.guard ≤ 32)) ||
  decide (c.periodNs < 8 * c.guardNs) || decide (200 < c.margin) || decide (5 < c.opp) ||
  !(decide (2 ≤ c.notice) && decide (c.notice ≤ 16)) || decide (1 < c.policy) || fieldAt h 0x17 1 != 0 ||
  bitsOf (fieldAt h 0x18 8) 48 16 != 0 || c.cycle == 0 || c.rankCount == 0 || decide (2 ^ 20 < c.rankCount) ||
  c.frameTable % 64 != 0 || c.tileTable % 64 != 0 || c.ifOff % 64 != 0 || !allZero ((h.drop 0x70).take 140) ||
  ((List.range (p.frames.length / 16)).any fun i =>
    bitsOf (fieldAt p.frames (16 * i + 4) 2) 3 13 != 0 || fieldAt p.frames (16 * i + 6) 2 != 0) ||
  ((List.range (p.tiles.length / 32)).any fun t =>
    let e := tileEntry p.tiles t
    if bitOf c.tileMask t then fieldAt e 0 8 % 64 != 0 || fieldAt e 0x14 4 % 64 != 0 || fieldAt e 0xE 2 != 0 || fieldAt e 0x1C 4 != 0
    else !allZero e) ||
  (p.sections.any fun s =>
    let n := fieldAt (tileEntry p.tiles s.1) 0xC 2
    (List.range (min n (s.2.length / 8))).any fun i =>
      let a := fieldAt s.2 (8 * i) 4
      a % 4 != 0 || decide (262144 ≤ a)) ||
  ((List.range progs).any fun i =>
    let bd := bodyOf p.iface c.ifOff i
    decide (16 * (i + 1) ≤ p.iface.length) && bodyInside c progs bd &&
      bodyCode c (bodyBytes c p.iface bd) bd.slots defined == 5) ||
  (ctxs.any fun x => ctxs.any fun y => x.1 == y.1 && x.2 != y.2)

/-- Check 0x07: a part outside the container, its section or its table. -/
def outsideWrong (c : Container) (p : Parts) : Bool :=
  let progs := programCount p.frames c.entries
  let segs (t : Nat) : Nat := fieldAt (tileEntry p.tiles t) 0xC 2
  let ctxs := allContexts c p.iface progs
  let defined (x : Nat) : Bool := ctxs.any fun e => e.1 == x
  !c.holds c.frameTable (16 * c.entries) || !c.holds c.tileTable 4096 || !c.holds c.ifOff c.ifSize ||
  ((bitsSet 128 c.tileMask).any fun t =>
    let e := tileEntry p.tiles t
    !c.holds (fieldAt e 0 8) (fieldAt e 8 4) || decide (fieldAt e 8 4 < 8 * fieldAt e 0xC 2) ||
    decide (fieldAt e 8 4 < fieldAt e 0x14 4 + fieldAt e 0x10 4) || decide (262144 < fieldAt e 0x10 4)) ||
  ((List.range c.entries).any fun i =>
    let s := fieldAt p.frames (16 * i) 2
    s != 0xFFFF && ((bitsSet 128 c.tileMask).any fun t => decide (segs t ≤ s))) ||
  ((List.range progs).any fun i =>
    decide (c.ifSize < 16 * (i + 1)) || !bodyInside c progs (bodyOf p.iface c.ifOff i) ||
    bodyCode c (bodyBytes c p.iface (bodyOf p.iface c.ifOff i)) (bodyOf p.iface c.ifOff i).slots defined == 7)

/-- The tile window of a tenant in units of P/256: [WS, WE) (0x5000 + t:0x09). -/
def windowOf (t : Nat) (d : Dev) : Nat × Nat :=
  let v := tenantGet t 0x09 d
  (bitsOf v 0 8, bitsOf v 8 8 + 1)

/-- A window other than the full frame makes the tenant's tiles windowed (R344). -/
def windowed (t : Nat) (d : Dev) : Bool := tenantGet t 0x09 d != 0xFF00

/-- T_sw of R347. -/
def switchCycles : Nat := 3344

/-- The most cycles a segment may plan (check 0x08, R346): plannable time, or the window less the switch. -/
def plannable (t : Nat) (c : Container) (d : Dev) : Nat :=
  let mhz := oppMHz c.opp
  if windowed t d then
    let w := windowOf t d
    (w.2 - w.1) * c.periodNs * mhz / 256000 - switchCycles
  else (c.periodNs - c.guardNs - c.marginNs) * mhz / 1000

/-- The first failing check of 0x01 to 0x08, 0 where all pass. -/
def loadChecks (t : Nat) (c : Container) (h : Bytes) (p : Parts) (d : Dev) : Nat :=
  if fieldAt h 0 4 ≠ 0x4C53584A ∨ fieldAt h 6 2 ≠ 0x0100 then 1
  else if fieldAt h 4 2 ≠ 1 then 2
  else if crcWrong c h p then 3
  else if c.k ≠ periodK d then 4
  else if fieldsWrong c h p ∨
      (windowed t d ∧ c.periodNs - c.guardNs - c.marginNs < (windowOf t d).2 * c.periodNs / 256) then 5
  else if (bitsSet 128 c.tileMask).any fun x => !bitOf (tenantGet t 0x08 d) x then 6
  else if outsideWrong c p then 7
  else if p.sections.any fun s =>
      (List.range (fieldAt (tileEntry p.tiles s.1) 0xC 2)).any fun i =>
        decide (plannable t c d < fieldAt s.2 (8 * i + 4) 4) then 8
  else 0

/-! ## Reading the container of a live run -/

/-- The container of a rank context of tenant `t`. -/
def conOf (t ctx : Nat) (d : Dev) : Container :=
  if ctx = 0 then (getRun t d).con else ((d.twin.taken.find? fun x => x.tenant == t).map (·.con)).getD {}

/-- The frame-table entry of run frame `r` of a rank context, as it was last read. -/
def frameEntryOf (t ctx r : Nat) (d : Dev) : Met × Bytes × Dev :=
  let c := conOf t ctx d
  match c.entryIndex r with
  | none => (.ok, [], d)
  | some i => vaPeek (dieTlb 0) t ctx (c.base + c.frameTable + 16 * i) 16 d

/-- The frame-table entry of run frame `r` of tenant `t`. -/
def frameEntry (t r : Nat) (d : Dev) : Met × Bytes × Dev := frameEntryOf t 0 r d

/-- The fields of a frame-table entry; none where no entry governs the run frame. -/
def entrySegment (e : Bytes) : Nat := if e.isEmpty then 0xFFFF else fieldAt e 0 2
def entryProgram (e : Bytes) : Nat := if e.isEmpty then 0xFFFF else fieldAt e 2 2
def entryFlags (e : Bytes) : Nat := fieldAt e 4 2
def entryEnergy (e : Bytes) : Nat := fieldAt e 8 4
def entryPlan (e : Bytes) : Nat := if e.isEmpty then 0xFFFFFFFF else fieldAt e 12 4

/-- Program `i` of a rank context: its body's place and bytes. -/
def programBody (t ctx i : Nat) (d : Dev) : Option (Body × Bytes) :=
  if i = 0xFFFF then none
  else
    let c := conOf t ctx d
    let e := vaPeek (dieTlb 0) t ctx (c.base + c.ifOff + 16 * i) 16 d
    if e.1.done then
      let b : Body := { off := c.ifOff + fieldAt e.2.1 0 8, size := fieldAt e.2.1 8 4, slots := fieldAt e.2.1 12 4 }
      let r := vaPeek (dieTlb 0) t ctx (c.base + b.off) b.size d
      if r.1.done then some (b, r.2.1) else none
    else none

/-- How many interface programs a live run has. -/
def livePrograms (t : Nat) (d : Dev) : Nat :=
  let c := (getRun t d).con
  let r := vaPeek (dieTlb 0) t 0 (c.base + c.frameTable) (16 * c.entries) d
  if r.1.done then programCount r.2.1 c.entries else 0

/-- The context record of CCTX `x` in a live run: the first program that defines it. -/
def liveCtx (t x : Nat) (d : Dev) : Option Ctx :=
  (List.range (livePrograms t d)).findSome? fun i =>
    match programBody t 0 i d with
    | none => none
    | some (b, bs) =>
      ((List.range (min 4096 (bodyContexts bs b.slots))).map fun j => parseCtx (contextAt bs b.slots j)).find?
        fun c => c.cctx == x

/-- The interface program of run frame `r` of a rank context. -/
def programAt (t ctx r : Nat) (d : Dev) : Option (Body × Bytes) :=
  let e := frameEntryOf t ctx r d
  if e.1.done then programBody t ctx (entryProgram e.2.1) d else none

/-- The interface program of a run's current run frame. -/
def currentProgram (t : Nat) (d : Dev) : Option (Body × Bytes) := programAt t 0 (getRun t d).index d

/-! ## Slot windows of the run frame (R239) -/

/-- Time since the start of a run's current run frame; `spanLeft` building frames of its span are left, the
present one among them. -/
def sinceRunFrame (t : Nat) (d : Dev) : Nat :=
  let r := getRun t d
  (r.factor - max 1 r.spanLeft) * framePeriod d + (d.now - d.clk.lastTick)

/-- The windows of a context in the present run frame: start and end, stretched. -/
def slotTimes (t cctx : Nat) (d : Dev) : List (Nat × Nat) :=
  match currentProgram t d with
  | none => []
  | some (b, bs) =>
    let s := (getRun t d).factor
    (List.range b.slots).filterMap fun i =>
      if bitsOf (fieldAt bs (16 * i + 8) 2) 0 12 = cctx then
        some (s * fieldAt bs (16 * i) 4 * tNs, s * (fieldAt bs (16 * i) 4 + fieldAt bs (16 * i + 4) 4) * tNs)
      else none

/-- Whether a window of a context is open now, and whether one is still to close. -/
def slotNow (t cctx : Nat) (d : Dev) : Bool :=
  (slotTimes t cctx d).any fun w => decide (w.1 ≤ sinceRunFrame t d) && decide (sinceRunFrame t d < w.2)
def slotLeft (t cctx : Nat) (d : Dev) : Bool :=
  (slotTimes t cctx d).any fun w => decide (sinceRunFrame t d < w.2)

/-- The class that data of a context travels in: VC-S while a window is left, else VC-Q (R303). -/
def slotClass (t cctx : Nat) (d : Dev) : Nat := if slotLeft t cctx d then 1 else 2

end Sys2Proof.Machine
end

