-- ==== Sys2Proof/Machine/Formats.lean ====
section
/-!
DEFINITION. Numbers (chapter 4): the formats of Table 4.1 as exact values, IEEE binary32 arithmetic with the
flush points of Table 4.3, conversion and rounding (R97 to R99) and the stochastic-rounding generator (R101).
-/
namespace Sys2Proof.Machine

/-- An exact value: NaN, an infinity, or the dyadic number (-1)^neg * mant * 2^exp (zero has mant 0 and keeps
its sign). -/
inductive Num where
  | nan
  | inf (neg : Bool)
  | fin (neg : Bool) (mant : Nat) (exp : Int)
  deriving DecidableEq, Repr

/-- A row of Table 4.1. `kind`: 0 IEEE specials, 1 E4M3 (one NaN code, no infinity), 2 no specials. -/
structure Fmt where
  bits : Nat
  ebits : Nat
  mbits : Nat
  bias : Int
  kind : Nat
  deriving DecidableEq, Repr

/-- The format of a code of Table 4.1; codes 10 to 15 are reserved. -/
def fmtOf : Nat → Option Fmt
  | 0 => some ⟨32, 8, 23, 127, 0⟩
  | 1 => some ⟨16, 5, 10, 15, 0⟩
  | 2 => some ⟨16, 8, 7, 127, 0⟩
  | 3 => some ⟨8, 4, 3, 7, 1⟩
  | 4 => some ⟨8, 5, 2, 15, 0⟩
  | 5 => some ⟨8, 4, 3, 7, 1⟩
  | 6 => some ⟨8, 5, 2, 15, 0⟩
  | 7 => some ⟨6, 3, 2, 3, 2⟩
  | 8 => some ⟨6, 2, 3, 1, 2⟩
  | 9 => some ⟨4, 2, 1, 1, 2⟩
  | _ => none

/-- FP32's row. -/
def fp32 : Fmt := ⟨32, 8, 23, 127, 0⟩

/-- The format of a code, FP32 for a reserved code (which every word that names one is rejected for). -/
def fmtD (c : Nat) : Fmt := (fmtOf c).getD fp32

/-- Whether a format code is an MX element format (Table 4.1). -/
def isMx (c : Nat) : Bool := decide (5 ≤ c) && decide (c ≤ 9)

/-- The exponent of the largest binade of a format. -/
def Fmt.topExp (f : Fmt) : Int :=
  if f.kind = 0 then (2 ^ f.ebits : Int) - 2 - f.bias else (2 ^ f.ebits : Int) - 1 - f.bias

/-- The largest significand of the top binade (Max finite, Table 4.1). -/
def Fmt.maxMant (f : Fmt) : Nat := if f.kind = 1 then 2 ^ (f.mbits + 1) - 2 else 2 ^ (f.mbits + 1) - 1

/-- The largest finite value, with a sign. -/
def Fmt.maxFinite (f : Fmt) (neg : Bool) : Num := .fin neg f.maxMant (f.topExp - f.mbits)

/-- The value of an encoding (R79: every NaN encoding is NaN). -/
def Fmt.decode (f : Fmt) (raw : Nat) : Num :=
  let neg := bitOf raw (f.bits - 1)
  let e := bitsOf raw f.mbits f.ebits
  let m := bitsOf raw 0 f.mbits
  let ones := 2 ^ f.ebits - 1
  if f.kind = 0 ∧ e = ones then (if m = 0 then .inf neg else .nan)
  else if f.kind = 1 ∧ e = ones ∧ m = 2 ^ f.mbits - 1 then .nan
  else if e = 0 then .fin neg m (1 - f.bias - f.mbits)
  else .fin neg (2 ^ f.mbits + m) ((e : Int) - f.bias - f.mbits)

/-- floor(log2 |p|) of a non-zero dyadic number. -/
def floorLog2 (mant : Nat) (exp : Int) : Int := (Nat.log2 mant : Int) + exp

/-- floor(mant * 2^exp / 2^q). -/
def scaleFloor (mant : Nat) (exp q : Int) : Nat :=
  if q ≤ exp then mant * 2 ^ (exp - q).toNat else mant / 2 ^ (q - exp).toNat

/-- (mant * 2^exp) mod 2^q, as a multiple of 2^exp (0 when q ≤ exp). -/
def scaleRem (mant : Nat) (exp q : Int) : Nat :=
  if q ≤ exp then 0 else mant % 2 ^ (q - exp).toNat

/-- The encoding of a representable finite value. -/
def Fmt.encodeFin (f : Fmt) (neg : Bool) (mant : Nat) (exp : Int) : Nat :=
  let s := if neg then 2 ^ (f.bits - 1) else 0
  if mant = 0 then s
  else
    let l := floorLog2 mant exp
    if l < 1 - f.bias then s + scaleFloor mant exp (1 - f.bias - f.mbits)
    else s + (l + f.bias).toNat * 2 ^ f.mbits + (scaleFloor mant exp (l - f.mbits) - 2 ^ f.mbits)

/-- The canonical NaN of a format (Table 4.1); element formats without a NaN have none and write 0. -/
def Fmt.nanCode (f : Fmt) : Nat :=
  if f.kind = 0 then (2 ^ f.ebits - 1) * 2 ^ f.mbits + 2 ^ (f.mbits - 1)
  else if f.kind = 1 then 2 ^ 7 - 1 else 0

/-- The infinity code of a format that has one. -/
def Fmt.infCode (f : Fmt) (neg : Bool) : Nat :=
  (if neg then 2 ^ (f.bits - 1) else 0) + (2 ^ f.ebits - 1) * 2 ^ f.mbits

/-- The encoding of a value a format can hold. -/
def Fmt.encode (f : Fmt) : Num → Nat
  | .nan => f.nanCode
  | .inf neg => f.infCode neg
  | .fin neg m e => f.encodeFin neg m e

/-- The rounding modes of R97: nearest even, toward zero, stochastic with noise `r` of `nw` bits. -/
inductive Rnd where
  | nearest
  | zero
  | noise (nw r : Nat)
  deriving DecidableEq, Repr

/-- The exponent of the quantum of a format at a magnitude (R97). -/
def Fmt.quantum (f : Fmt) (mant : Nat) (exp : Int) : Int :=
  max (1 - f.bias - f.mbits) (min (f.topExp - f.mbits) (floorLog2 mant exp - f.mbits))

/-- How many quanta 2^q a non-zero magnitude rounds to (R97). -/
def roundQuanta (mant : Nat) (exp q : Int) : Rnd → Nat
  | .nearest =>
    let k := scaleFloor mant exp q
    let r := scaleRem mant exp q
    let half := 2 ^ (q - exp).toNat
    if 2 * r > half then k + 1 else if 2 * r = half ∧ exp < q then k + k % 2 else k
  | .zero => scaleFloor mant exp q
  | .noise nw r =>
    let k := scaleFloor mant exp q
    let rem := scaleRem mant exp q
    let f := if q ≤ exp then 0 else rem * 2 ^ nw / 2 ^ (q - exp).toNat
    if f + r ≥ 2 ^ nw then k + 1 else k

/-- Comparison of magnitudes: whether m1 * 2^e1 < m2 * 2^e2. -/
def magLt (m1 : Nat) (e1 : Int) (m2 : Nat) (e2 : Int) : Bool :=
  if e1 ≤ e2 then decide (m1 < m2 * 2 ^ (e2 - e1).toNat) else decide (m1 * 2 ^ (e1 - e2).toNat < m2)

/-- Whether a rounded magnitude lies beyond the largest finite value. -/
def Fmt.beyondMax (f : Fmt) (mant : Nat) (exp : Int) : Bool :=
  magLt f.maxMant (f.topExp - f.mbits) mant exp

/-- Rounding to FP32 as IEEE 754 binary32 does it, nearest even or toward zero, overflow to an infinity under
nearest even; subnormals are produced. -/
def round32 (rnd : Rnd) : Num → Num
  | .nan => .nan
  | .inf n => .inf n
  | .fin n m e =>
    if m = 0 then .fin n 0 0
    else
      let q := fp32.quantum m e
      let k := roundQuanta m e q rnd
      if fp32.beyondMax k q then (if rnd = .zero then fp32.maxFinite n else .inf n) else .fin n k q

/-- A magnitude below 2^-126 becomes zero with its sign (Table 4.3). -/
def flush : Num → Num
  | .fin n m e => if m ≠ 0 ∧ floorLog2 m e < -126 then .fin n 0 0 else .fin n m e
  | x => x

/-- The signed integer coefficient of a finite value at exponent `e0`. -/
def coeffAt (n : Bool) (m : Nat) (e e0 : Int) : Int :=
  let c : Int := ((m * 2 ^ (e - e0).toNat : Nat) : Int)
  if n then -c else c

/-- Exact addition with IEEE's specials; an exact zero sum is +0, but (-0) + (-0) is -0 (R86). -/
def Num.add : Num → Num → Num
  | .nan, _ => .nan
  | _, .nan => .nan
  | .inf a, .inf b => if a = b then .inf a else .nan
  | .inf a, _ => .inf a
  | _, .inf b => .inf b
  | .fin a m e, .fin b m' e' =>
    let e0 := min e e'
    let s := coeffAt a m e e0 + coeffAt b m' e' e0
    if s = 0 then .fin (decide (m = 0) && decide (m' = 0) && a && b) 0 0
    else .fin (decide (s < 0)) s.natAbs e0

/-- The opposite. -/
def Num.neg : Num → Num
  | .nan => .nan
  | .inf a => .inf !a
  | .fin a m e => .fin (!a) m e

/-- The magnitude. -/
def Num.abs : Num → Num
  | .nan => .nan
  | .inf _ => .inf false
  | .fin _ m e => .fin false m e

/-- Exact multiplication with IEEE's specials. -/
def Num.mul : Num → Num → Num
  | .nan, _ => .nan
  | _, .nan => .nan
  | .inf a, .inf b => .inf (a != b)
  | .inf a, .fin b m _ => if m = 0 then .nan else .inf (a != b)
  | .fin a m _, .inf b => if m = 0 then .nan else .inf (a != b)
  | .fin a m e, .fin b m' e' => .fin (a != b) (m * m') (e + e')

/-- A value times 2^k. -/
def Num.scale (k : Int) : Num → Num
  | .fin a m e => .fin a m (e + k)
  | x => x

/-- Whether x < y as numbers: false with a NaN, and zeros of either sign compare equal. -/
def Num.lt : Num → Num → Bool
  | .nan, _ => false
  | _, .nan => false
  | .inf a, .inf b => a && !b
  | .inf a, _ => a
  | _, .inf b => !b
  | .fin a m e, .fin b m' e' =>
    let e0 := min e e'
    decide (coeffAt a m e e0 < coeffAt b m' e' e0)

/-- Whether a value is NaN. -/
def Num.isNan : Num → Bool
  | .nan => true
  | _ => false

/-- Whether a value is an infinity. -/
def Num.isInf : Num → Bool
  | .inf _ => true
  | _ => false

/-- Whether a value is a zero. -/
def Num.isZero : Num → Bool
  | .fin _ m _ => decide (m = 0)
  | _ => false

/-- The sign of a value; NaN counts as positive. -/
def Num.isNeg : Num → Bool
  | .nan => false
  | .inf a => a
  | .fin a _ _ => a

/-- Positive zero. -/
def Num.zero : Num := .fin false 0 0

/-- An integer as a value. -/
def Num.ofInt (i : Int) : Num := .fin (decide (i < 0)) i.natAbs 0

/-- The column addition of R86: binary32 addition, nearest even, flushed. -/
def add32 (x y : Num) : Num := flush (round32 .nearest (x.add y))

/-- fl(v * s + b) of Table 4.8 step 2: one rounding, flushed. -/
def fma32 (v s b : Num) : Num := flush (round32 .nearest ((v.mul s).add b))

/-- fl(v * s), flushed. -/
def mul32 (v s : Num) : Num := flush (round32 .nearest (v.mul s))

/-- The FP32 bits of a value that FP32 holds. -/
def bits32 (x : Num) : Nat := fp32.encode x

/-- The value of FP32 bits. -/
def num32 (raw : Nat) : Num := fp32.decode raw

/-- What converting one element did, for the counts of R105. -/
inductive ConvNote where
  | plain | saturated | wroteNan | finiteToInf
  deriving DecidableEq, Repr

/-- Conversion of one element to a destination that is not MX (R97, R98, Table 4.9). -/
def convert (c : Nat) (rnd : Rnd) (sat : Bool) (v : Num) : Nat × ConvNote :=
  let f := fmtD c
  let tooBig (n fromInf : Bool) : Nat × ConvNote :=
    if f.kind = 1 then (if sat then (f.encode (f.maxFinite n), .saturated) else (f.nanCode, .wroteNan))
    else if sat && !(c == 0 && fromInf) then (f.encode (f.maxFinite n), .saturated)
    else (f.infCode n, if fromInf then .plain else .finiteToInf)
  match v with
  | .nan => (f.nanCode, .wroteNan)
  | .inf n => tooBig n true
  | .fin n m e =>
    if m = 0 then (f.encodeFin n 0 0, .plain)
    else
      let rnd' := if c = 0 then (match rnd with | .zero => Rnd.zero | _ => Rnd.nearest) else rnd
      let q := f.quantum m e
      let k := roundQuanta m e q rnd'
      if f.beyondMax k q then
        (if rnd' = .zero then (f.encode (f.maxFinite n), .saturated) else tooBig n false)
      else (f.encodeFin n k q, .plain)

/-- The largest exponent of an MX element format, the e_elem of R99. -/
def mxTop : Nat → Int
  | 5 => 8
  | 6 => 15
  | 7 => 4
  | _ => 2

/-- The scale exponent X of an MX block (R99); none where a lane holds NaN or an infinity. -/
def mxBlockScale (c : Nat) (vs : List Num) : Option Int :=
  if vs.any fun v => v.isNan || v.isInf then none
  else
    let tops := vs.filterMap fun v => match v with
      | .fin _ m e => if m = 0 then none else some (floorLog2 m e)
      | _ => none
    match tops with
    | [] => some (-127)
    | t :: ts => some (max (-127) (min 127 (ts.foldl max t - mxTop c)))

/-- One element of an MX block under scale exponent X: a result beyond the maximum becomes it (R99). -/
def mxElement (c : Nat) (rnd : Rnd) (x : Int) (v : Num) : Nat × ConvNote :=
  let f := fmtD c
  match v.scale (-x) with
  | .fin n m e =>
    if m = 0 then (f.encodeFin n 0 0, .plain)
    else
      let q := f.quantum m e
      let k := roundQuanta m e q rnd
      if f.beyondMax k q then (f.encode (f.maxFinite n), .saturated) else (f.encodeFin n k q, .plain)
  | _ => (0, .wroteNan)

/-- The seed of generator lane `g` of tile `t` (R100). -/
def genSeed (runSeed t g : Nat) : BitVec 32 :=
  let x := BitVec.ofNat 32 runSeed ^^^ BitVec.ofNat 32 (t * 4096 ||| g)
  if x = 0 then 0x5EED0001#32 else x

/-- One advance of a generator lane (R101). -/
def genAdvance (x0 : BitVec 32) : BitVec 32 :=
  let x1 := x0 ^^^ (x0 <<< 13)
  let x2 := x1 ^^^ (x1 >>> 17)
  x2 ^^^ (x2 <<< 5)

/-- The noise r taken from the state after the advance (R101). -/
def genNoise (nw : Nat) (x : BitVec 32) : Nat := x.toNat / 2 ^ (32 - nw)

/-- Element `i` of width `w` packed in bytes: bits [w * i + w - 1 : w * i] (R59). -/
def packedElem (bs : Bytes) (w i : Nat) : Nat :=
  let lo := w * i
  bitsOf (fieldAt bs (lo / 8) ((lo % 8 + w + 7) / 8)) (lo % 8) w

/-- The bytes of a row of `w`-bit elements, the last byte's unused bits 0 (Table 4.8 step 7). -/
def packRow (w : Nat) (es : List Nat) : Bytes :=
  leBytes ((es.length * w + 7) / 8) (es.foldr (fun e acc => e % 2 ^ w + 2 ^ w * acc) 0)

end Sys2Proof.Machine
end

