-- ==== Sys2Proof/Machine/Elem.lean ====
section
/-!
DEFINITION. The element-wise functions of chapter 5: FP32 operations (R111), the special inputs of Table 5.3,
the precise procedures (R116), the coarse tables (R118) and reductions (R112).
-/
namespace Sys2Proof.Machine

/-- An FP32 operand as the vector engine reads it: a magnitude below 2^-126 is zero with its sign (R111). -/
def vIn (raw : Nat) : Num := flush (num32 raw)

/-- fl of one FP32 addition (R111). -/
def flAdd (x y : Num) : Num := add32 x y

/-- fl of one FP32 subtraction. -/
def flSub (x y : Num) : Num := add32 x y.neg

/-- fl of one FP32 multiplication. -/
def flMul (x y : Num) : Num := mul32 x y

/-- One fused multiply-add. -/
def flFma (x y z : Num) : Num := fma32 x y z

/-- The least (mode 3) of two under R111: NaN wins, equal zeros give the first operand. -/
def flMin (x y : Num) : Num := if x.isNan || y.isNan then .nan else if y.lt x then y else x

/-- The greatest of two under R111. -/
def flMax (x y : Num) : Num := if x.isNan || y.isNan then .nan else if x.lt y then y else x

/-- An FP32 constant, the value nearest to the real number the spec names (R116). -/
def k32 (raw : Nat) : Num := num32 raw

/-- The integer nearest to a finite value, ties to even (rint of R116). -/
def rintNum : Num → Int
  | .fin n m e => let k : Int := (roundQuanta m e 0 .nearest : Nat); if n then -k else k
  | _ => 0

/-- The floor of a finite value. -/
def floorNum : Num → Int
  | .fin n m e =>
    let k : Int := (scaleFloor m e 0 : Nat)
    if n then (if scaleRem m e 0 = 0 then -k else -k - 1) else k
  | _ => 0

/-- scale(p, n) of R116: exact, an infinity on overflow, flushed below 2^-126. -/
def scaleNum (p : Num) (n : Int) : Num := flush (round32 .nearest (p.scale n))

/-- decompose(y) of R116: the significand in [1, 2) and the exponent of a non-zero finite value. -/
def decomposeNum : Num → Num × Int
  | .fin _ m e => (.fin false m (-(Nat.log2 m : Int)), floorLog2 m e)
  | x => (x, 0)

/-- x with the sign of y (copysign). -/
def withSign (x : Num) (neg : Bool) : Num :=
  match x with
  | .nan => .nan
  | .inf _ => .inf neg
  | .fin _ m e => .fin neg m e

/-- Table 5.3: the value of a special input, none where the mode's procedure applies. The input has been read
with the flush of R115. -/
def specialOf (code : Nat) (x : Num) : Option Num :=
  match code, x with
  | 0, x => some x
  | _, .nan => some .nan
  | 1, x => some (if Num.zero.lt x then x else .zero)
  | 2, .inf n => some (if n then .zero else k32 0x3F800000)
  | 3, .inf n => some (if n then k32 0xBF800000 else k32 0x3F800000)
  | 4, .inf n => some (if n then .zero else .inf false)
  | 5, .inf n => some (if n then .fin true 0 0 else .inf false)
  | 6, .inf n => some (if n then .fin true 0 0 else .inf false)
  | 7, .inf n => some (.fin n 0 0)
  | 8, .inf n => some (if n then .nan else .zero)
  | c, .fin n m e =>
    if m = 0 then
      (match c with
        | 2 => some (k32 0x3F000000)
        | 3 => some (.fin n 0 0)
        | 4 => some (k32 0x3F800000)
        | 5 => some (.fin n 0 0)
        | 6 => some (.fin n 0 0)
        | 7 => some (.inf n)
        | 8 => some (.inf n)
        | _ => none)
    else if c = 4 then
      (if (Num.ofInt 89).lt (.fin n m e) then some (.inf false)
       else if (Num.fin n m e).lt (.ofInt (-104)) then some .zero else none)
    else if c = 8 ∧ n then some .nan
    else none
  | _, _ => none

/-- exp_p of R116. -/
def expPrecise (x0 : Num) : Num :=
  let x := flush x0
  match specialOf 4 x with
  | some y => y
  | none =>
    let n := rintNum (flMul x (k32 0x3FB8AA3B))
    let r1 := flFma (.ofInt (-n)) (k32 0x3F318000) x
    let r := flFma (.ofInt (-n)) (k32 0xB95E8083) r1
    let p := [k32 0x3C088889, k32 0x3D2AAAAB, k32 0x3E2AAAAB, k32 0x3F000000, k32 0x3F800000, k32 0x3F800000].foldl
      (fun p ck => flFma p r ck) (k32 0x3AB60B61)
    scaleNum p n

/-- recip_p of R116. -/
def recipPrecise (y0 : Num) : Num :=
  let y := flush y0
  match specialOf 7 y with
  | some z => z
  | none =>
    let (m, e) := decomposeNum y
    let z0 := flFma (k32 0xBEF0F0F1) m (k32 0x3FB4B4B5)
    let z := (List.range 3).foldl (fun z _ => flFma z (flFma m.neg z (k32 0x3F800000)) z) z0
    withSign (scaleNum z (-e)) y.isNeg

/-- rsqrt_p of R116. -/
def rsqrtPrecise (y0 : Num) : Num :=
  let y := flush y0
  match specialOf 8 y with
  | some z => z
  | none =>
    let (m, e) := decomposeNum y
    let odd := e % 2
    let z0 := flFma (k32 0xBE800000) m (k32 0x3FA00000)
    let z1 := (List.range 3).foldl (fun z _ =>
      let t := flMul m z
      flFma (flMul (k32 0x3F000000) z) (flFma t.neg z (k32 0x3F800000)) z) z0
    let z2 := if odd = 1 then flMul z1 (k32 0x3F3504F3) else z1
    scaleNum z2 (-(e - odd) / 2)

/-- The precise sigmoid of Table 5.4. -/
def sigmoidPrecise (x0 : Num) : Num :=
  let x := flush x0
  match specialOf 2 x with
  | some y => y
  | none =>
    if x.isNeg then
      let e := expPrecise x
      flMul e (recipPrecise (flAdd (k32 0x3F800000) e))
    else recipPrecise (flAdd (k32 0x3F800000) (expPrecise x.neg))

/-- The precise tanh of Table 5.4. -/
def tanhPrecise (x0 : Num) : Num :=
  let x := flush x0
  match specialOf 3 x with
  | some y => y
  | none =>
    if x.abs.lt (.fin false 1 (-4)) then
      let t := flMul x x
      flMul x (flFma (flFma t (k32 0x3E088889) (k32 0xBEAAAAAB)) t (k32 0x3F800000))
    else
      let e := expPrecise (flMul (.ofInt (-2)) x.abs)
      withSign (flMul (flSub (k32 0x3F800000) e) (recipPrecise (flAdd (k32 0x3F800000) e))) x.isNeg

/-- The precise GELU of Table 5.4. -/
def geluPrecise (x0 : Num) : Num :=
  let x := flush x0
  match specialOf 5 x with
  | some y => y
  | none =>
    let t := flMul x x
    let v := flFma (flMul (k32 0x3D372713) t) x x
    flMul x (sigmoidPrecise (flMul (k32 0x3FCC422A) v))

/-- The precise SiLU of Table 5.4. -/
def siluPrecise (x0 : Num) : Num :=
  let x := flush x0
  match specialOf 6 x with
  | some y => y
  | none => flMul x (sigmoidPrecise x)

/-- The coarse table of sigmoid: y_0 to y_16 (R118). -/
def coarseY2 : List Nat :=
  [0x39AFD1EF, 0x3A6ED39C, 0x3B220BBC, 0x3BDB4FB4, 0x3C9357D1, 0x3D4241A2, 0x3DF420A9, 0x3E89B2B1, 0x3F000000,
   0x3F3B26A8, 0x3F617BEB, 0x3F73DBE6, 0x3F7B6541, 0x3F7E4961, 0x3F7F5DF4, 0x3F7FC44B, 0x3F7FEA06]

/-- The coarse table of sigmoid: s_0 to s_15 (R118). -/
def coarseS2 : List Nat :=
  [0x3A16EAA4, 0x3ACCADAA, 0x3B8A49D6, 0x3C3907C8, 0x3CF12B73, 0x3D92FFD8, 0x3E19550E, 0x3E6C9A9E, 0x3E6C9AA0,
   0x3E19550C, 0x3D92FFD8, 0x3CF12B60, 0x3C390800, 0x3B8A4980, 0x3ACCAE00, 0x3A16EC00]

/-- The coarse table of tanh: y_0 to y_16 (R118). -/
def coarseY3 : List Nat :=
  [0xBF7FD40C, 0xBF7F8896, 0xBF7EBBE9, 0xBF7C92C1, 0xBF76CA83, 0xBF67B7CC, 0xBF42F7D6, 0xBEEC9A9F, 0x0,
   0x3EEC9A9F, 0x3F42F7D6, 0x3F67B7CC, 0x3F76CA83, 0x3F7C92C1, 0x3F7EBBE9, 0x3F7F8896, 0x3F7FD40C]

/-- The coarse table of tanh: s_0 to s_15 (R118). -/
def coarseS3 : List Nat :=
  [0x3B16EC00, 0x3BCCAD00, 0x3C8A4A00, 0x3D3907C0, 0x3DF12B70, 0x3E92FFD8, 0x3F19550D, 0x3F6C9A9F, 0x3F6C9A9F,
   0x3F19550D, 0x3E92FFD8, 0x3DF12B70, 0x3D3907C0, 0x3C8A4A00, 0x3BCCAD00, 0x3B16EC00]

/-- The coarse table of exp: y_0 to y_16 (R118). -/
def coarseY4 : List Nat :=
  [0x3F800000, 0x3F85AAC3, 0x3F8B95C2, 0x3F91C3D3, 0x3F9837F0, 0x3F9EF532, 0x3FA5FED7, 0x3FAD583F, 0x3FB504F3,
   0x3FBD08A4, 0x3FC5672A, 0x3FCE248C, 0x3FD744FD, 0x3FE0CCDF, 0x3FEAC0C7, 0x3FF5257D, 0x40000000]

/-- The coarse table of exp: s_0 to s_15 (R118). -/
def coarseS4 : List Nat :=
  [0x3F355860, 0x3F3D5FE0, 0x3F45C220, 0x3F4E83A0, 0x3F57A840, 0x3F6134A0, 0x3F6B2D00, 0x3F759680, 0x3F803B10,
   0x3F85E860, 0x3F8BD620, 0x3F920710, 0x3F987E20, 0x3F9F3E80, 0x3FA64B60, 0x3FADA830]

/-- The coarse table of GELU: y_0 to y_16 (R118). -/
def coarseY5 : List Nat :=
  [0xB8935102, 0xBA218853, 0xBB6E6150, 0xBC7723FF, 0xBD39F7C5, 0xBDCDAD6B, 0xBE229E91, 0xBE1DFD26, 0x0,
   0x3EB1016D, 0x3F57585C, 0x3FB32529, 0x3FFA3042, 0x401F08DC, 0x403FC468, 0x405FF5E7, 0x407FFED9]

/-- The coarse table of GELU: s_0 to s_15 (R118). -/
def coarseS5 : List Nat :=
  [0xBA8F1E33, 0xBBC5FF3B, 0xBCBB8BAB, 0xBD785D8A, 0xBDE16311, 0xBDEF1F6E, 0x3C142D60, 0x3E9DFD26, 0x3F31016D,
   0x3F7DAF4B, 0x3F8EF1F6, 0x3F8E1632, 0x3F87C2EC, 0x3F82EE30, 0x3F80C5FC, 0x3F8023C8]

/-- The coarse table of SiLU: y_0 to y_16 (R118). -/
def coarseY6 : List Nat :=
  [0xBC731199, 0xBCE081D6, 0xBD4A82E6, 0xBDB07759, 0xBE11B139, 0xBE5BAF67, 0xBE8C1A51, 0xBE766409, 0x0,
   0x3F0266FE, 0x3F9CF96C, 0x4002450A, 0x4036E4EC, 0x406A7C45, 0x408E6AFA, 0x40A71F7E, 0x40BF8677]

/-- The coarse table of SiLU: s_0 to s_15 (R118). -/
def coarseS6 : List Nat :=
  [0xBC894C0D, 0xBCF0AFF3, 0xBD488FBB, 0xBD993977, 0xBDC5507B, 0xBDA16348, 0x3D345885, 0x3EA442B1, 0x3F2DDEA8,
   0x3F74BA78, 0x3F8A1635, 0x3F8C5505, 0x3F899398, 0x3F86447D, 0x3F83C2C0, 0x3F822530]

/-- The coarse table of reciprocal: y_0 to y_16 (R118). -/
def coarseY7 : List Nat :=
  [0x3F800000, 0x3F70F0F1, 0x3F638E39, 0x3F579436, 0x3F4CCCCD, 0x3F430C31, 0x3F3A2E8C, 0x3F321643, 0x3F2AAAAB,
   0x3F23D70A, 0x3F1D89D9, 0x3F17B426, 0x3F124925, 0x3F0D3DCB, 0x3F088889, 0x3F042108, 0x3F000000]

/-- The coarse table of reciprocal: s_0 to s_15 (R118). -/
def coarseS7 : List Nat :=
  [0xBF70F0F0, 0xBF562B80, 0xBF3FA030, 0xBF2C7690, 0xBF1C09C0, 0xBF0DDA50, 0xBF018490, 0xBEED7300, 0xBEDA7420,
   0xBEC9A620, 0xBEBAB660, 0xBEAD6020, 0xBEA16B40, 0xBE96A840, 0xBE8CF020, 0xBE842100]

/-- The coarse table of reciprocal square root: y_0 to y_16 (R118). -/
def coarseY8 : List Nat :=
  [0x3F800000, 0x3F6AEBF5, 0x3F5A514A, 0x3F4CCCCD, 0x3F41848F, 0x3F37EA74, 0x3F2F9D53, 0x3F285835, 0x3F21E89B,
   0x3F1C2896, 0x3F16FB06, 0x3F124925, 0x3F0E00D5, 0x3F0A137D, 0x3F067532, 0x3F031C1A, 0x3F000000]

/-- The coarse table of reciprocal square root: s_0 to s_15 (R118). -/
def coarseS8 : List Nat :=
  [0xBEE0D5CB, 0xBEB11C75, 0xBE902FE0, 0xBE70AFD5, 0xBE4CD795, 0xBE311815, 0xBE1B17D5, 0xBE094CD5, 0xBDF5562B,
   0xBDDCED55, 0xBDC8502B, 0xBDB6B800, 0xBDA78EAB, 0xBD9A61D5, 0xBD8ED955, 0xBD84AF00]

/-- The breakpoint values of a function's coarse table. -/
def coarseY : Nat → List Nat
  | 2 => coarseY2
  | 3 => coarseY3
  | 4 => coarseY4
  | 5 => coarseY5
  | 6 => coarseY6
  | 7 => coarseY7
  | 8 => coarseY8
  | _ => []

/-- The slopes of a function's coarse table. -/
def coarseS : Nat → List Nat
  | 2 => coarseS2
  | 3 => coarseS3
  | 4 => coarseS4
  | 5 => coarseS5
  | 6 => coarseS6
  | 7 => coarseS7
  | 8 => coarseS8
  | _ => []

/-- lo and w of Table 5.5, in sixteenths. -/
def coarseLoW : Nat → Int × Int
  | 2 => (-128, 16)
  | 3 => (-64, 8)
  | 4 => (0, 1)
  | 5 => (-64, 8)
  | 6 => (-96, 12)
  | 7 => (16, 1)
  | _ => (16, 3)

/-- Breakpoint x_i of a coarse table (R118). -/
def coarseX (code i : Nat) : Num :=
  let n := (coarseLoW code).1 + (coarseLoW code).2 * (i : Int)
  .fin (decide (n < 0)) n.natAbs (-4)

/-- The segment of a table variable: the largest i from 0 to 15 with x_i at or below v (R118). -/
def coarseSegment (code : Nat) (v : Num) : Nat :=
  (List.range 16).foldl (fun best i => if v.lt (coarseX code i) then best else i) 0

/-- fma(s_i, fl(v - x_i), y_i) of R118. -/
def coarseEval (code : Nat) (v : Num) : Num :=
  let i := coarseSegment code v
  flFma (k32 ((coarseS code).getD i 0)) (flSub v (coarseX code i)) (k32 ((coarseY code).getD i 0))

/-- The coarse procedure of Table 5.5 for an input that Table 5.3 does not cover. -/
def coarseFn (code : Nat) (x : Num) : Num :=
  match code with
  | 4 =>
    let u := flMul x (k32 0x3FB8AA3B)
    let n0 := floorNum u
    let v0 := flSub u (.ofInt n0)
    let carry := !(v0.lt (k32 0x3F800000))
    let n := if carry then n0 + 1 else n0
    let v := if carry then .zero else v0
    scaleNum (coarseEval 4 v) n
  | 7 =>
    let (m, e) := decomposeNum x
    withSign (scaleNum (coarseEval 7 m) (-e)) x.isNeg
  | 8 =>
    let (m0, e0) := decomposeNum x
    let odd := e0 % 2
    scaleNum (coarseEval 8 (m0.scale odd)) (-(e0 - odd) / 2)
  | _ =>
    if x.lt (coarseX code 0) then
      (match code with
        | 2 => .zero
        | 3 => k32 0xBF800000
        | _ => .fin true 0 0)
    else if !(x.lt (coarseX code 16)) then
      (match code with
        | 2 => k32 0x3F800000
        | 3 => k32 0x3F800000
        | _ => x)
    else coarseEval code x

/-- An element-wise function of Table 5.2 on an FP32 value (R114 to R118). -/
def elemFn (code : Nat) (coarse : Bool) (x0 : Num) : Num :=
  let x := flush x0
  match specialOf code x with
  | some y => y
  | none =>
    if coarse then flush (coarseFn code x)
    else
      match code with
      | 2 => sigmoidPrecise x
      | 3 => tanhPrecise x
      | 4 => expPrecise x
      | 5 => geluPrecise x
      | 6 => siluPrecise x
      | 7 => recipPrecise x
      | 8 => rsqrtPrecise x
      | _ => x

/-- The published coarse table of a function (R119): 33 little-endian FP32 values. -/
def coarseBlob (code : Nat) : Bytes := (coarseY code ++ coarseS code).flatMap (leBytes 4)

/-- The pairwise tree sum of R112; one pass adds lane pairs (2i, 2i + 1). -/
def treePass : List Num → List Num
  | x :: y :: r => add32 x y :: treePass r
  | r => r

/-- The sum of 128 lanes: 7 levels of pairwise add32 (R112). -/
def treeSum (xs : List Num) : Num := ((List.range 7).foldl (fun l _ => treePass l) xs).headD .zero

/-- The winner and its index under the replacement rule of R93: `greater` picks mode 4. -/
def pickWinner (greater : Bool) (w : Num × Nat) (c : Num × Nat) : Num × Nat :=
  if w.1.isNan then w
  else if c.1.isNan then c
  else if greater then (if w.1.lt c.1 then c else w)
  else (if c.1.lt w.1 then c else w)

/-- A min or max reduction over lanes in ascending order (R112). -/
def reduceLanes (greater : Bool) : List Num → Num × Nat
  | [] => (.zero, 0)
  | x :: xs => (xs.zip ((List.range xs.length).map (· + 1))).foldl (pickWinner greater) (x, 0)

end Sys2Proof.Machine
end

