-- ==== Sys2Proof/Machine/Operands.lean ====
section
/-!
DEFINITION. Element operations over packed operands: the FP32 and packed 16-bit arithmetic of R111, and the
step operation of the collectives (R300).
-/
namespace Sys2Proof.Machine

/-- A 16-bit operand as the vector engine reads it: BF16 flushes below 2^-126, FP16 does not (R111). -/
def in16 (code raw : Nat) : Num := if code = 2 then flush ((fmtD 2).decode raw) else (fmtD 1).decode raw

/-- One rounding of an exact result to a 16-bit format; BF16 flushes (R111). -/
def out16 (code : Nat) (x : Num) : Nat :=
  let r := (convert code .nearest false x).1
  if code = 2 then (fmtD 2).encode (flush ((fmtD 2).decode r)) else r

/-- A binary operation of the arithmetic classes. -/
inductive BinOp where
  | add | sub | mul | min | max
  deriving DecidableEq, Repr

/-- The FP32 operation on two values already read. -/
def BinOp.on32 (op : BinOp) (x y : Num) : Num :=
  match op with
  | .add => flAdd x y
  | .sub => flSub x y
  | .mul => flMul x y
  | .min => flMin x y
  | .max => flMax x y

/-- The FP32 operation on raw operands. -/
def BinOp.raw32 (op : BinOp) (a b : Nat) : Nat := bits32 (op.on32 (vIn a) (vIn b))

/-- The packed 16-bit operation on raw operands of format `code` (1 FP16, 2 BF16). -/
def BinOp.raw16 (op : BinOp) (code a b : Nat) : Nat :=
  let x := in16 code a
  let y := in16 code b
  match op with
  | .add => out16 code (x.add y)
  | .sub => out16 code (x.add y.neg)
  | .mul => out16 code (x.mul y)
  | .min => (fmtD code).encode (flMin x y)
  | .max => (fmtD code).encode (flMax x y)

/-- The packed fma on raw operands. -/
def fma16 (code a b c : Nat) : Nat := out16 code (((in16 code a).mul (in16 code b)).add (in16 code c))

/-- The step operation of a reduction ROP (R300) on one element of type `etype`. -/
def ropOf : Nat → BinOp
  | 0 => .add
  | 1 => .max
  | _ => .min

/-- Bytes of an element of a format. -/
def elemBytes (code : Nat) : Nat := ((fmtD code).bits + 7) / 8

/-- The elements of a byte string, `z` bytes each. -/
def elemsOf (z : Nat) (bs : Bytes) : List Nat := (List.range (bs.length / z)).map fun i => fieldAt bs (z * i) z

/-- a ⊕ b of R300 on byte strings, element by element, `a` the running partial. -/
def stepBytes (rop etype : Nat) (a b : Bytes) : Bytes :=
  let z := elemBytes etype
  ((elemsOf z a).zip (elemsOf z b)).flatMap fun p =>
    leBytes z (if etype = 0 then (ropOf rop).raw32 p.1 p.2 else (ropOf rop).raw16 etype p.1 p.2)

end Sys2Proof.Machine
end

