-- ==== Sys2Proof/Machine/Counters.lean ====
section
/-!
DEFINITION. Synchronisation counters (chapter 8): ownership, adds, reads, waits, watches and their faults.
-/
namespace Sys2Proof.Machine

/-- The tenant that owns pool counter `i` (R187). -/
def poolOwner (i : Nat) (d : Dev) : Option Nat :=
  match Sparse.get 0 d.ctr.blockOwner (i / 16) with
  | 0 => none
  | n + 1 => some n

/-- Whether tenant `t` owns pool counter `i`. -/
def ownsPool (t i : Nat) (d : Dev) : Bool := decide (i < 16384) && poolOwner i d == some t

/-- The tile whose slice holds pool counter `i` (R185). -/
def sliceOf (i : Nat) : Nat := i / 128

/-- The stored value of pool counter `i`. -/
def poolValue (i : Nat) (d : Dev) : Nat := (Sparse.get 0 d.ctr.pool i).toNat

/-- Whether pool counter `i` is poisoned (R199). -/
def poolPoisoned (i : Nat) (d : Dev) : Bool := Sparse.get false d.ctr.poison i

/-- A corrected counter word of tile `t`'s slice is counted. -/
def countCtrCorrected (t : Nat) (d : Dev) : Dev :=
  raise 0 evSramCe (srcTile t) (modTCount t (fun c => { c with ctrCorrected := satAdd 64 c.ctrCorrected 1 }) d)

/-- COUNTER_UE of a counter in tile `t`'s slice: counted, and the owning run moves to Halted (R199). -/
def counterUe (t : Nat) (owner : Option Nat) (d : Dev) : Dev :=
  let d1 := modTCount t (fun c => { c with ctrUncorrectable := satAdd 64 c.ctrUncorrectable 1 }) d
  match owner with
  | some o => faultRun 2 evCounterUe (srcTile t) o d1
  | none => raise 2 evCounterUe (srcTile t) d1

/-- An access finds the storage of pool counter `i`: a faulty word is corrected or poisons it (R199). -/
def poolTouch (i : Nat) (d : Dev) : Dev :=
  let e := Sparse.get 0 d.ctr.err (65536 + i)
  if e = 0 then d
  else
    let d1 := { d with ctr.err := Sparse.set 0 d.ctr.err (65536 + i) 0 }
    if e = 1 then countCtrCorrected (sliceOf i) d1
    else counterUe (sliceOf i) (poolOwner i d1) { d1 with ctr.poison := Sparse.set false d1.ctr.poison i true }

/-- An access finds the storage of local counter `i` of tile `t`. -/
def localTouch (t i : Nat) (d : Dev) : Dev :=
  let e := Sparse.get 0 d.ctr.err (t * 64 + i)
  if e = 0 then d
  else
    let d1 := { d with ctr.err := Sparse.set 0 d.ctr.err (t * 64 + i) 0 }
    if e = 1 then countCtrCorrected t d1
    else counterUe t (some (getTile t d1).owner) (modTile t (fun x => { x with lcPoison := Sparse.set false x.lcPoison i true }) d1)

/-- The enabled deadline streams whose publish counter is `i`, as tenant * 16 + stream (R192). -/
def publishStreams (i : Nat) (d : Dev) : List Nat :=
  match poolOwner i d with
  | none => []
  | some t =>
    ((List.range 16).filter fun s =>
      let v := tenantGet t (0x40 + s) d
      bitOf v 0 && decide (bitsOf v 64 14 = i) && !(Sparse.get {} (getRun t d).deadline s).off).map (t * 16 + ·)

/-- What an add did. -/
inductive AddResult where
  | applied | wrapped
  deriving DecidableEq, Repr

/-- `v` added to pool counter `i`: discarded where it is poisoned, refused where it would wrap (R190); an add
to a publish counter is reported to the result-age monitor (R192). The add is mirrored, kept when it came from
a remote add (R318). -/
def poolAdd (i v : Nat) (d0 : Dev) (remote : Bool := false) : AddResult × Dev :=
  let d := poolTouch i d0
  if poolPoisoned i d then (.applied, d)
  else
    let n := poolValue i d + v
    if 2 ^ 64 ≤ n then (.wrapped, d)
    else
      let d0 := { d with ctr.pool := Sparse.set 0 d.ctr.pool i (BitVec.ofNat 64 n) }
      let d1 := match poolOwner i d0 with
        | some t => mirrorAdd t i v remote d0
        | none => d0
      (.applied, if (publishStreams i d1).isEmpty then d1
        else { d1 with ctr.reports := d1.ctr.reports ++ [(i, n, d1.now)] })

/-- The stored value of local counter `i` of tile `t`. -/
def localValue (t i : Nat) (d : Dev) : Nat := (Sparse.get 0 (getTile t d).lc i).toNat

/-- Whether local counter `i` of tile `t` is poisoned. -/
def localPoisoned (t i : Nat) (d : Dev) : Bool := Sparse.get false (getTile t d).lcPoison i

/-- `v` added to local counter `i` of tile `t`. -/
def localAdd (t i v : Nat) (d0 : Dev) : AddResult × Dev :=
  let d := localTouch t i d0
  if localPoisoned t i d then (.applied, d)
  else
    let n := localValue t i d + v
    if 2 ^ 64 ≤ n then (.wrapped, d)
    else (.applied, modTile t (fun x => { x with lc := Sparse.set 0 x.lc i (BitVec.ofNat 64 n) }) d)

/-- What a read of a counter returns: all ones where it is poisoned (R199). -/
def poolRead (i : Nat) (d0 : Dev) : Nat × Dev :=
  let d := poolTouch i d0
  (if poolPoisoned i d then 2 ^ 64 - 1 else poolValue i d, d)

/-- What a read of a local counter returns. -/
def localRead (t i : Nat) (d0 : Dev) : Nat × Dev :=
  let d := localTouch t i d0
  (if localPoisoned t i d then 2 ^ 64 - 1 else localValue t i d, d)

/-- Whether a local counter's wait is satisfied: at or above the expected value, unsigned (R191). -/
def localWait (t i expected : Nat) (d0 : Dev) : Bool × Dev :=
  let d := localTouch t i d0
  (!localPoisoned t i d && decide (expected ≤ localValue t i d), d)

/-- Whether a waiter still has a watch at a slice. -/
def watching (w : Waiter) (d : Dev) : Bool := d.ctr.watches.any fun x => x.waiter == w

/-- A wait on a pool counter (R192): satisfied at once where the value is there and no watch of the waiter is
outstanding; otherwise the slice holds a watch. -/
def poolWait (w : Waiter) (i expected : Nat) (d0 : Dev) : Bool × Dev :=
  if watching w d0 then (false, d0)
  else
    let d := poolTouch i d0
    if !poolPoisoned i d && decide (expected ≤ poolValue i d) then (true, d)
    else (false, { d with ctr.watches := d.ctr.watches ++ [{ counter := i, expected := expected, waiter := w }] })

/-- A waiter's watch is withdrawn. -/
def dropWatch (w : Waiter) (d : Dev) : Dev :=
  { d with ctr.watches := d.ctr.watches.filter fun x => !(x.waiter == w) }

/-- Whether a watch's counter has reached its expected value and is not poisoned. -/
def watchReady (d : Dev) (x : Watch) : Bool :=
  !poolPoisoned x.counter d && decide (x.expected ≤ poolValue x.counter d)

/-- The slice of pool counter `i` releases the first watch on it that the value satisfies (R192). -/
def watchRelease (i : Nat) (d : Dev) : Dev :=
  match d.ctr.watches.find? (fun x => x.counter == i && watchReady d x) with
  | none => d
  | some x => dropWatch x.waiter d

/-- WATCH_RELEASE. -/
def execWatchRelease (counter : Nat) (s : State) : Host.Outcome State Fault Refusal :=
  onDev (decide (counter < 16384)) (watchRelease counter) s

/-- A stale add at a slice: discarded, counted, COUNTER_STALE raised, no run halted (R195). -/
def staleAdd (i : Nat) (tenant : Option Nat) (d : Dev) : Dev :=
  let d1 := modTCount (sliceOf i) (fun c => { c with ctrStale := satAdd 64 c.ctrStale 1 }) d
  match tenant with
  | some t => raiseT 4 evCounterStale (srcTile (sliceOf i)) t d1
  | none => raise 4 evCounterStale (srcTile (sliceOf i)) d1

/-- The counters of a run are cleared at its teardown (R188): every counter of its pool blocks, poison
included; the blocks stay allocated. -/
def clearPool (t : Nat) (d : Dev) : Dev :=
  let mine (i : Nat) : Bool := poolOwner i d == some t
  { d with ctr.pool := d.ctr.pool.filter (fun p => !mine p.1)
           ctr.poison := d.ctr.poison.filter (fun p => !mine p.1)
           ctr.err := d.ctr.err.filter (fun p => !(decide (65536 ≤ p.1) && mine (p.1 - 65536)))
           ctr.reports := d.ctr.reports.filter (fun p => !mine p.1)
           ctr.watches := d.ctr.watches.filter (fun x => !mine x.counter) }

/-- The block bitmap of tenant `t` takes effect (R187): its blocks become its own, others it held are freed,
and a newly allocated block reads 0. -/
def applyBlocks (t bitmap : Nat) (d : Dev) : Dev :=
  (List.range 1024).foldl (fun d j =>
    let owner := Sparse.get 0 d.ctr.blockOwner j
    if bitOf bitmap j then
      if owner = t + 1 then d
      else { d with
        ctr.blockOwner := Sparse.set 0 d.ctr.blockOwner j (t + 1)
        ctr.pool := d.ctr.pool.filter (fun p => p.1 / 16 != j)
        ctr.poison := d.ctr.poison.filter (fun p => p.1 / 16 != j) }
    else if owner = t + 1 then { d with ctr.blockOwner := Sparse.set 0 d.ctr.blockOwner j 0 }
    else d) d

end Sys2Proof.Machine
end

