-- ==== Sys2Proof/Machine/CoreIsa.lean ====
section
/-!
DEFINITION. The tile control core's instructions (Tables 6.2 and 6.3): their encoding and decoding, and the
64-bit arithmetic of R136.
-/
namespace Sys2Proof.Machine

/-- The FN values of opcode 0x00. -/
inductive AluFn where
  | add | sub | and_ | or_ | xor | shl | shr | sar | mul | slt | sltu
  deriving DecidableEq, Repr

/-- The branch conditions of opcodes 0x14 to 0x19. -/
inductive Cond where
  | eq | ne | lt | ge | ltu | geu
  deriving DecidableEq, Repr

/-- The logic operations of opcodes 0x02 to 0x04. -/
inductive LogicOp where
  | and_ | or_ | xor
  deriving DecidableEq, Repr

/-- The shifts of opcodes 0x05 to 0x07. -/
inductive ShiftOp where
  | shl | shr | sar
  deriving DecidableEq, Repr

/-- The instructions of Table 6.3, with the fields of Table 6.2. `u` is a register field the operation does
not use and the table does not reserve. -/
inductive CoreInstr where
  | alu (fn : AluFn) (d a b : BitVec 5)
  | addi (d a : BitVec 5) (imm : BitVec 16)
  | logic (op : LogicOp) (d a : BitVec 5) (imm : BitVec 16)
  | shift (op : ShiftOp) (d a : BitVec 5) (amount : BitVec 6)
  | ins (j : BitVec 2) (d a : BitVec 5) (imm : BitVec 16)
  | slti (d a : BitVec 5) (imm : BitVec 16)
  | ldw (d a : BitVec 5) (imm : BitVec 16)
  | branch (c : Cond) (a b : BitVec 5) (off : BitVec 16)
  | jal (d : BitVec 5) (off : BitVec 21)
  | jalr (d a : BitVec 5) (imm : BitVec 16)
  | cadd (u a : BitVec 5) (pool : Bool) (index : BitVec 15)
  | cwait (u a : BitVec 5) (pool : Bool) (index : BitVec 15)
  | cwaitt (d a : BitVec 5) (pool : Bool) (index : BitVec 15)
  | cread (d u : BitVec 5) (pool : Bool) (index : BitVec 15)
  | issue (a : BitVec 5)
  | waite (u : BitVec 5) (mask : BitVec 7)
  | rsr (d : BitVec 5) (index : BitVec 6)
  | end_
  deriving DecidableEq, Repr

/-- FN codes. -/
def AluFn.code : AluFn → Nat
  | .add => 0 | .sub => 1 | .and_ => 2 | .or_ => 3 | .xor => 4 | .shl => 5 | .shr => 6 | .sar => 7
  | .mul => 8 | .slt => 9 | .sltu => 10

/-- The FN of a code; the others are illegal (R136). -/
def AluFn.ofCode : Nat → Option AluFn
  | 0 => some .add | 1 => some .sub | 2 => some .and_ | 3 => some .or_ | 4 => some .xor | 5 => some .shl
  | 6 => some .shr | 7 => some .sar | 8 => some .mul | 9 => some .slt | 10 => some .sltu | _ => none

/-- Opcodes of the branches. -/
def Cond.code : Cond → Nat
  | .eq => 0x14 | .ne => 0x15 | .lt => 0x16 | .ge => 0x17 | .ltu => 0x18 | .geu => 0x19

/-- Opcodes of the logic immediates. -/
def LogicOp.code : LogicOp → Nat
  | .and_ => 2 | .or_ => 3 | .xor => 4

/-- Opcodes of the shift immediates. -/
def ShiftOp.code : ShiftOp → Nat
  | .shl => 5 | .shr => 6 | .sar => 7

/-- The 32-bit word of an instruction (Table 6.2). -/
def CoreInstr.encode : CoreInstr → BitVec 32
  | .alu fn d a b => BitVec.ofNat 6 0 ++ d ++ a ++ b ++ BitVec.ofNat 11 fn.code
  | .addi d a imm => BitVec.ofNat 6 1 ++ d ++ a ++ imm
  | .logic op d a imm => BitVec.ofNat 6 op.code ++ d ++ a ++ imm
  | .shift op d a n => BitVec.ofNat 6 op.code ++ d ++ a ++ BitVec.ofNat 10 0 ++ n
  | .ins j d a imm => BitVec.ofNat 4 2 ++ j ++ d ++ a ++ imm
  | .slti d a imm => BitVec.ofNat 6 0x0C ++ d ++ a ++ imm
  | .ldw d a imm => BitVec.ofNat 6 0x10 ++ d ++ a ++ imm
  | .branch c a b off => BitVec.ofNat 6 c.code ++ a ++ b ++ off
  | .jal d off => BitVec.ofNat 6 0x1A ++ d ++ off
  | .jalr d a imm => BitVec.ofNat 6 0x1B ++ d ++ a ++ imm
  | .cadd u a p i => BitVec.ofNat 6 0x20 ++ u ++ a ++ BitVec.ofBool p ++ i
  | .cwait u a p i => BitVec.ofNat 6 0x21 ++ u ++ a ++ BitVec.ofBool p ++ i
  | .cwaitt d a p i => BitVec.ofNat 6 0x22 ++ d ++ a ++ BitVec.ofBool p ++ i
  | .cread d u p i => BitVec.ofNat 6 0x23 ++ d ++ u ++ BitVec.ofBool p ++ i
  | .issue a => BitVec.ofNat 6 0x28 ++ BitVec.ofNat 5 0 ++ a ++ BitVec.ofNat 16 0
  | .waite u m => BitVec.ofNat 6 0x29 ++ BitVec.ofNat 5 0 ++ u ++ BitVec.ofNat 9 0 ++ m
  | .rsr d i => BitVec.ofNat 6 0x30 ++ d ++ BitVec.ofNat 5 0 ++ BitVec.ofNat 10 0 ++ i
  | .end_ => BitVec.ofNat 6 0x3E ++ BitVec.ofNat 26 0

/-- The instruction a word spells; none for an illegal instruction: an unlisted opcode or FN, or a nonzero
reserved field (R136). -/
def CoreInstr.decode (w : BitVec 32) : Option CoreInstr :=
  let op := (w.extractLsb' 26 6).toNat
  let d := w.extractLsb' 21 5
  let a := w.extractLsb' 16 5
  let b := w.extractLsb' 11 5
  let imm := w.extractLsb' 0 16
  let p := w.getLsbD 15
  let i := w.extractLsb' 0 15
  let up := w.extractLsb' 6 10
  match op with
  | 0x00 => (AluFn.ofCode (w.extractLsb' 0 11).toNat).map fun fn => .alu fn d a b
  | 0x01 => some (.addi d a imm)
  | 0x02 => some (.logic .and_ d a imm)
  | 0x03 => some (.logic .or_ d a imm)
  | 0x04 => some (.logic .xor d a imm)
  | 0x05 => if up = 0 then some (.shift .shl d a (w.extractLsb' 0 6)) else none
  | 0x06 => if up = 0 then some (.shift .shr d a (w.extractLsb' 0 6)) else none
  | 0x07 => if up = 0 then some (.shift .sar d a (w.extractLsb' 0 6)) else none
  | 0x08 => some (.ins 0 d a imm)
  | 0x09 => some (.ins 1 d a imm)
  | 0x0A => some (.ins 2 d a imm)
  | 0x0B => some (.ins 3 d a imm)
  | 0x0C => some (.slti d a imm)
  | 0x10 => some (.ldw d a imm)
  | 0x14 => some (.branch .eq d a imm)
  | 0x15 => some (.branch .ne d a imm)
  | 0x16 => some (.branch .lt d a imm)
  | 0x17 => some (.branch .ge d a imm)
  | 0x18 => some (.branch .ltu d a imm)
  | 0x19 => some (.branch .geu d a imm)
  | 0x1A => some (.jal d (w.extractLsb' 0 21))
  | 0x1B => some (.jalr d a imm)
  | 0x20 => some (.cadd d a p i)
  | 0x21 => some (.cwait d a p i)
  | 0x22 => some (.cwaitt d a p i)
  | 0x23 => some (.cread d a p i)
  | 0x28 => if d = 0 ∧ imm = 0 then some (.issue a) else none
  | 0x29 => if d = 0 ∧ w.extractLsb' 7 9 = 0 then some (.waite a (w.extractLsb' 0 7)) else none
  | 0x30 => if a = 0 ∧ up = 0 then some (.rsr d (w.extractLsb' 0 6)) else none
  | 0x3E => if w.extractLsb' 0 26 = 0 then some .end_ else none
  | _ => none

/-- d = g[a] FN g[b] (Table 6.3), modulo 2^64; shifts use bits [5:0] of the amount. -/
def AluFn.eval (fn : AluFn) (x y : BitVec 64) : BitVec 64 :=
  match fn with
  | .add => x + y
  | .sub => x - y
  | .and_ => x &&& y
  | .or_ => x ||| y
  | .xor => x ^^^ y
  | .shl => x <<< (y.toNat % 64)
  | .shr => x >>> (y.toNat % 64)
  | .sar => x.sshiftRight (y.toNat % 64)
  | .mul => x * y
  | .slt => if x.slt y then 1 else 0
  | .sltu => if x.ult y then 1 else 0

/-- A logic immediate: IMM is zero-extended (R136). -/
def LogicOp.eval (op : LogicOp) (x : BitVec 64) (imm : BitVec 16) : BitVec 64 :=
  match op with
  | .and_ => x &&& imm.zeroExtend 64
  | .or_ => x ||| imm.zeroExtend 64
  | .xor => x ^^^ imm.zeroExtend 64

/-- A shift immediate. -/
def ShiftOp.eval (op : ShiftOp) (x : BitVec 64) (n : BitVec 6) : BitVec 64 :=
  match op with
  | .shl => x <<< n.toNat
  | .shr => x >>> n.toNat
  | .sar => x.sshiftRight n.toNat

/-- INSj: IMM replaces 16-bit field j. -/
def insertField (j : BitVec 2) (x : BitVec 64) (imm : BitVec 16) : BitVec 64 :=
  (x &&& ~~~(0xFFFF#64 <<< (16 * j.toNat))) ||| (imm.zeroExtend 64 <<< (16 * j.toNat))

/-- Whether a branch condition holds. -/
def Cond.holds (c : Cond) (x y : BitVec 64) : Bool :=
  match c with
  | .eq => x == y
  | .ne => x != y
  | .lt => x.slt y
  | .ge => !x.slt y
  | .ltu => x.ult y
  | .geu => !x.ult y

/-- Whether a jump, branch or fetch target is a multiple of 4 below 262,144 (R137). -/
def targetGood (t : Int) : Bool := decide (t % 4 = 0) && decide (0 ≤ t) && decide (t < 262144)

end Sys2Proof.Machine
end

