-- ==== Sys2Proof/Machine/Trace.lean ====
section
/-!
DEFINITION. The observation records a tile makes as its core runs (chapter 21): the record half of the
observation buffer (R451), trace tokens and packets (R458), and the core's stalls.
-/
namespace Sys2Proof.Machine

/-! ## The record half (R451) -/

/-- A tile's observation state. -/
def getTObs (t : Nat) (d : Dev) : TileObs := Sparse.get {} d.tobs t
/-- A tile's observation state changed by `f`. -/
def modTObs (t : Nat) (f : TileObs → TileObs) (d : Dev) : Dev := { d with tobs := Sparse.modify {} d.tobs t f }
/-- Observation of a tenant's run. -/
def getObs (t : Nat) (d : Dev) : Obs := Sparse.get {} d.obs t
/-- Observation of a tenant's run changed by `f`. -/
def modObs (t : Nat) (f : Obs → Obs) (d : Dev) : Dev := { d with obs := Sparse.modify {} d.obs t f }

/-- Whether observation of a tenant's run is on and its enable bit `i` is set (Table 21.1). -/
def obsEnabled (tenant i : Nat) (d : Dev) : Bool := (getObs tenant d).on && bitOf (getObs tenant d).enables i

/-- `n` is added to a count of 0x7801:0x01: 0 samples taken, 1 trace packets written, 2 dailies written,
3 records dropped (R461). -/
def obsCount (i n : Nat) (d : Dev) : Dev := { d with obsCounts := bumpTable d.obsCounts i n }

/-- Bytes of each half of the observation buffer. -/
def halfSize : Nat := 32768

/-- Bytes of the record half that are taken. -/
def halfUsed (t : Nat) (d : Dev) : Nat := (getTObs t d).staged.foldl (fun n r => n + r.len) 0

/-- The record half follows the capture half; a record that reaches its end goes on at its start. -/
def halfPieces (t at_ : Nat) (bs : Bytes) : List (Nat × Bytes) :=
  let n := halfSize - at_
  [(obsAddr t (halfSize + at_), bs.take n), (obsAddr t halfSize, bs.drop n)].filter fun p => !p.2.isEmpty

/-- A record joins the record half, or is dropped and counted where the half is full (R451). -/
def stageRecord (t tenant ring : Nat) (bs : Bytes) (d : Dev) : Dev :=
  if halfUsed t d + bs.length ≤ halfSize then
    let x := getTObs t d
    let d1 := (halfPieces t x.next bs).foldl (fun d p => (physWrite p.1 p.2 d).2) d
    modTObs t (fun y => { y with
      next := (y.next + bs.length) % halfSize
      staged := y.staged ++ [{ tenant := tenant, ring := ring, at_ := x.next, len := bs.length }] }) d1
  else obsCount 3 1 d

/-! ## Trace (R458, Tables 21.5 and 21.6) -/

/-- Whether tile `t` traces the segment it runs. -/
def tracing (t : Nat) (d : Dev) : Bool :=
  match (getTile t d).seg with
  | none => false
  | some g => bitOf (dictGet 0x7800 3 d) t && obsEnabled g.tenant 2 d

/-- The packet being filled goes to the record half. -/
def flushPacket (t : Nat) (d : Dev) : Dev :=
  let x := getTObs t d
  match (getTile t d).seg with
  | none => d
  | some g =>
    if x.tokens.isEmpty then d
    else
      let header := t + g.ctx * 2 ^ 7 + x.tokens.length * 2 ^ 8 + x.packets % 2 ^ 32 * 2 ^ 32 + d.clk.frame % 2 ^ 48 * 2 ^ 64
      stageRecord t g.tenant 2 (padTo 64 (leBytes 16 header ++ x.tokens.flatMap (leBytes 4)))
        (modTObs t (fun y => { y with tokens := [], packets := y.packets + 1 }) d)

/-- One token is put into the packet. -/
def putToken (t token : Nat) (d : Dev) : Dev :=
  let d1 := modTObs t (fun y => { y with tokens := y.tokens ++ [token] }) d
  if 12 ≤ (getTObs t d1).tokens.length then flushPacket t d1 else d1

/-- One token is emitted. Where the record half has no room for a packet, it and the tokens that wait in the
packet are lost and counted; the first packet after that begins with a LOST token. -/
def pushToken (t token : Nat) (d : Dev) : Dev :=
  let x := getTObs t d
  if halfSize < halfUsed t d + 64 then modTObs t (fun y => { y with lost := y.lost + y.tokens.length + 1, tokens := [] }) d
  else if 0 < x.lost then
    putToken t token (putToken t (5 * 2 ^ 29 + min (2 ^ 29 - 1) x.lost) (modTObs t (fun y => { y with lost := 0 }) d))
  else putToken t token d

/-- The branch outcomes that wait leave as a BR token. -/
def flushBranches (t : Nat) (d : Dev) : Dev :=
  let b := (getTObs t d).branches
  if b.isEmpty then d
  else pushToken t (2 ^ 29 + b.foldl (fun n x => n * 2 + (if x then 1 else 0)) 1) (modTObs t (fun y => { y with branches := [] }) d)

/-- A token of another kind: the branch outcomes go first. -/
def emitToken (t kind v : Nat) (d : Dev) : Dev := pushToken t (kind * 2 ^ 29 + v) (flushBranches t d)

/-- A conditional branch's outcome; a BR token leaves at 27. -/
def traceBranch (t : Nat) (taken : Bool) (d : Dev) : Dev :=
  if tracing t d then
    let d1 := modTObs t (fun y => { y with branches := y.branches ++ [taken] }) d
    if 27 ≤ (getTObs t d1).branches.length then flushBranches t d1 else d1
  else d

/-- IND: an indirect jump's target. -/
def traceJump (t target : Nat) (d : Dev) : Dev := if tracing t d then emitToken t 2 (target / 4) d else d

/-- SEG: a segment begins. -/
def traceSeg (t entry : Nat) (d : Dev) : Dev := if tracing t d then emitToken t 0 (entry / 4 % 65536) d else d

/-- WAIT: a stall of 16 cc or more has ended. -/
def traceStall (t code len : Nat) (d : Dev) : Dev :=
  if tracing t d ∧ 16 ≤ len then emitToken t 3 (code + min (2 ^ 25 - 1) len * 16) d else d

/-- END: SEGCYC at the end, and the packet is flushed. -/
def traceEnd (t : Nat) (d : Dev) : Dev :=
  match (getTile t d).seg with
  | none => d
  | some g => if tracing t d then flushPacket t (emitToken t 4 (min (2 ^ 29 - 1) (ccNow d - g.startedAt)) d) else d

/-- A segment that is cut or halted leaves its unfinished packet as it stands. -/
def traceCut (t : Nat) (d : Dev) : Dev :=
  flushPacket t (flushBranches t (modTObs t (fun y => { y with stallFrom := none }) d))

/-! ## Stalls -/

/-- The core code of a hold (Table 6.13). -/
def waitCode : CoreWait → Nat
  | .free => 0
  | .issueFull _ => 3
  | .counter _ _ _ => 4
  | .timed _ _ _ _ _ => 5
  | .engines _ => 6

/-- The core is held. -/
def holdCore (t : Nat) (w : CoreWait) (d : Dev) : Dev :=
  modTObs t (fun y => { y with stallFrom := some (y.stallFrom.getD (waitCode w, ccNow d)) })
    (modTile t (fun x => { x with wait := w }) d)

/-- The core is released; a long stall leaves its token. -/
def freeCore (t : Nat) (d : Dev) : Dev :=
  let x := getTObs t d
  let d1 := modTObs t (fun y => { y with stallFrom := none }) (modTile t (fun x => { x with wait := .free }) d)
  match x.stallFrom with
  | none => d1
  | some (code, at_) => traceStall t code (ccNow d - at_) d1

end Sys2Proof.Machine
end

