-- ==== Sys2Proof/Machine/TileCore.lean ====
section
/-!
DEFINITION. The tile control core (chapter 6): fetch, the instructions of Table 6.3, waits, issue and the end
of a segment. A row acts when the core is free to run and the instruction at its pc is of that row; otherwise
the core is not at that instruction and nothing happens.
-/
namespace Sys2Proof.Machine

/-- The instruction memory of the image that a run loaded on a tile (R216). -/
def imemBase (t tenant ctx : Nat) : Nat := ((tenant * 2 + ctx) * 128 + t) * 262144

/-- Register gi of tile `t`; g0 reads 0 (R133). -/
def readG (t i : Nat) (d : Dev) : BitVec 64 := if i = 0 then 0 else Sparse.get 0 (getTile t d).g i

/-- A write of register gi; a write to g0 has no effect (R133). -/
def writeG (t i : Nat) (v : BitVec 64) (d : Dev) : Dev :=
  if i = 0 then d else modTile t (fun x => { x with g := Sparse.set 0 x.g i v }) d

/-- The pc of tile `t` moves to `pc`. -/
def setPc (t pc : Nat) (d : Dev) : Dev := modTile t (fun x => { x with pc := pc }) d

/-- The core goes on with the next instruction. -/
def advance (t : Nat) (d : Dev) : Dev := modTile t (fun x => { x with pc := x.pc + 4 }) d

/-- The active segment ends: the core executes nothing further of it (R135, R155). -/
def endSegment (t : Nat) (d : Dev) : Dev :=
  dropWatch (.core t) (modTile t (fun x => { x with wait := .free, seg := x.seg.map fun g => { g with ended := true } }) d)

/-- Whether the core of tile `t` executes: a segment is active and not ended, nothing holds the core, and
neither a halt, a tenant switch nor a device-fatal stop is in force. -/
def coreRuns (t : Nat) (d : Dev) : Bool :=
  let x := getTile t d
  !d.fatal && !x.stopped && x.switchTo.isNone && x.wait == .free &&
    (match x.seg with | some g => !g.ended | none => false)

/-- The tenant whose segment is active. -/
def coreTenant (t : Nat) (d : Dev) : Nat :=
  match (getTile t d).seg with
  | some g => g.tenant
  | none => (getTile t d).owner

/-- A core fault: the event carries pc / 4, the segment ends and the run halts at the next tick (R155). -/
def coreFault (cls num t : Nat) (d : Dev) (detail : Nat := (getTile t d).pc / 4 % 65536) : Dev :=
  endSegment t (faultRun cls num (srcTile t) (coreTenant t d) d detail)

/-- An 8-byte word of instruction memory is read (R155): a single-bit word is corrected, counted and raises
IMEM_CE; an uncorrectable one ends the segment. The flag says it was good. -/
def imemCheck (t a : Nat) (d : Dev) : Bool × Dev :=
  let w := a / 8
  let e := Sparse.get 0 d.mem.imemErr w
  if e = 0 then (true, d)
  else if e = 1 then
    (true, raiseT 0 evImemCe (srcTile t) (coreTenant t d)
      (modTCount t (fun c => { c with corrected := bumpTable c.corrected 3 1 })
        { d with mem.imemErr := Sparse.set 0 d.mem.imemErr w 0 }))
  else (false, coreFault 2 evImemUe t d)

/-- The word the core fetches at its pc. -/
def fetchWord (t : Nat) (d : Dev) : BitVec 32 :=
  let x := getTile t d
  match x.seg with
  | some g => BitVec.ofNat 32 (leNat (Mem.readN d.mem.imem (imemBase t g.tenant g.ctx + x.pc) 4))
  | none => 0

/-- The address the core fetches from. -/
def fetchAddr (t : Nat) (d : Dev) : Nat :=
  match (getTile t d).seg with
  | some g => imemBase t g.tenant g.ctx + (getTile t d).pc
  | none => 0

/-- Whether a core's segment is that of a taken-over rank. -/
def onTaken (t : Nat) (d : Dev) : Bool := (getTile t d).seg.any fun g => g.ctx == 1

/-- One core row: where the core runs, it fetches; an instruction that `sel` picks is executed by `run`, given
the instruction. A pc at or above 262,144 and an uncorrectable word end the segment. -/
def coreRow {α : Type} (t : Nat) (sel : Option CoreInstr → Option α) (run : α → Dev → Dev) (d : Dev) : Dev :=
  if coreRuns t d then
    if (getTile t d).pc < 262144 then
      match sel (CoreInstr.decode (fetchWord t d)) with
      | some i =>
        forRank (onTaken t d) (fun d =>
          let r := imemCheck t (fetchAddr t d) d
          if r.1 then run i r.2 else r.2) d
      | none => d
    else forRank (onTaken t d) (coreFault 1 evCorePc t) d
  else d

/-- d = v, and on to the next instruction. -/
def writeNext (t i : Nat) (v : BitVec 64) (d : Dev) : Dev := advance t (writeG t i v d)

/-! ## Arithmetic -/

def selAlu : Option CoreInstr → Option (AluFn × BitVec 5 × BitVec 5 × BitVec 5)
  | some (.alu fn d a b) => some (fn, d, a, b)
  | _ => none
def aluRow (t : Nat) (d : Dev) : Dev :=
  coreRow t selAlu (fun i d => writeNext t i.2.1.toNat (i.1.eval (readG t i.2.2.1.toNat d) (readG t i.2.2.2.toNat d)) d) d

def selAddi : Option CoreInstr → Option (BitVec 5 × BitVec 5 × BitVec 16)
  | some (.addi d a imm) => some (d, a, imm)
  | _ => none
def addiRow (t : Nat) (d : Dev) : Dev :=
  coreRow t selAddi (fun i d => writeNext t i.1.toNat (readG t i.2.1.toNat d + i.2.2.signExtend 64) d) d

def selLogic (op : LogicOp) : Option CoreInstr → Option (BitVec 5 × BitVec 5 × BitVec 16)
  | some (.logic o d a imm) => if o = op then some (d, a, imm) else none
  | _ => none
def logicRow (op : LogicOp) (t : Nat) (d : Dev) : Dev :=
  coreRow t (selLogic op) (fun i d => writeNext t i.1.toNat (op.eval (readG t i.2.1.toNat d) i.2.2) d) d

def selShift (op : ShiftOp) : Option CoreInstr → Option (BitVec 5 × BitVec 5 × BitVec 6)
  | some (.shift o d a n) => if o = op then some (d, a, n) else none
  | _ => none
def shiftRow (op : ShiftOp) (t : Nat) (d : Dev) : Dev :=
  coreRow t (selShift op) (fun i d => writeNext t i.1.toNat (op.eval (readG t i.2.1.toNat d) i.2.2) d) d

def selIns : Option CoreInstr → Option (BitVec 2 × BitVec 5 × BitVec 5 × BitVec 16)
  | some (.ins j d a imm) => some (j, d, a, imm)
  | _ => none
def insRow (t : Nat) (d : Dev) : Dev :=
  coreRow t selIns (fun i d => writeNext t i.2.1.toNat (insertField i.1 (readG t i.2.2.1.toNat d) i.2.2.2) d) d

def selSlti : Option CoreInstr → Option (BitVec 5 × BitVec 5 × BitVec 16)
  | some (.slti d a imm) => some (d, a, imm)
  | _ => none
def sltiRow (t : Nat) (d : Dev) : Dev :=
  coreRow t selSlti (fun i d =>
    writeNext t i.1.toNat (if (readG t i.2.1.toNat d).slt (i.2.2.signExtend 64) then 1 else 0) d) d

/-! ## Loads, branches and jumps -/

def selLdw : Option CoreInstr → Option (BitVec 5 × BitVec 5 × BitVec 16)
  | some (.ldw d a imm) => some (d, a, imm)
  | _ => none
/-- LDW: the address must be a multiple of 8 below 262,144 (R137). -/
def ldwRow (t : Nat) (d : Dev) : Dev :=
  coreRow t selLdw (fun i d =>
    let addr := (readG t i.2.1.toNat d + i.2.2.signExtend 64 * 8).toNat
    if addr % 8 = 0 ∧ addr < 262144 then
      let at_ := fetchAddr t d - (getTile t d).pc + addr
      let r := imemCheck t at_ d
      if r.1 then writeNext t i.1.toNat (BitVec.ofNat 64 (leNat (Mem.readN r.2.mem.imem at_ 8))) r.2 else r.2
    else coreFault 1 evCoreAddr t d) d

/-- A taken branch or jump: to its target where that is good, else CORE_PC (R137). -/
def jumpTo (t : Nat) (target : Int) (d : Dev) : Dev :=
  if targetGood target then setPc t target.toNat d else coreFault 1 evCorePc t d

def selBranch (c : Cond) : Option CoreInstr → Option (BitVec 5 × BitVec 5 × BitVec 16)
  | some (.branch k a b off) => if k = c then some (a, b, off) else none
  | _ => none
def branchRow (c : Cond) (t : Nat) (d : Dev) : Dev :=
  coreRow t (selBranch c) (fun i d =>
    let taken := c.holds (readG t i.1.toNat d) (readG t i.2.1.toNat d)
    let d1 := traceBranch t taken d
    if taken then jumpTo t (((getTile t d).pc : Int) + i.2.2.toInt * 4) d1 else advance t d1) d

def selJal : Option CoreInstr → Option (BitVec 5 × BitVec 21)
  | some (.jal d off) => some (d, off)
  | _ => none
def jalRow (t : Nat) (d : Dev) : Dev :=
  coreRow t selJal (fun i d =>
    let pc := (getTile t d).pc
    jumpTo t ((pc : Int) + i.2.toInt * 4) (writeG t i.1.toNat (BitVec.ofNat 64 (pc + 4)) d)) d

def selJalr : Option CoreInstr → Option (BitVec 5 × BitVec 5 × BitVec 16)
  | some (.jalr d a imm) => some (d, a, imm)
  | _ => none
/-- JALR: the target is read before pc + 4 is written into d (Table 6.3). -/
def jalrRow (t : Nat) (d : Dev) : Dev :=
  coreRow t selJalr (fun i d =>
    let target := (readG t i.2.1.toNat d + i.2.2.signExtend 64 * 4).toNat
    let d1 := writeG t i.1.toNat (BitVec.ofNat 64 ((getTile t d).pc + 4)) d
    jumpTo t (target : Int) (if targetGood target then traceJump t target d1 else d1)) d

/-! ## Counters -/

/-- Whether the core may name a counter: a local index up to 47, or a pool counter its tenant owns (R139). -/
def counterNamed (t : Nat) (pool : Bool) (i : Nat) (d : Dev) : Bool :=
  if pool then ownsPool (coreTenant t d) i d else decide (i < 48)

def selCadd : Option CoreInstr → Option (BitVec 5 × Bool × BitVec 15)
  | some (.cadd _ a p i) => some (a, p, i)
  | _ => none
/-- CADD: the amount is g[a] as a signed number, which must be above 0 (R189); a wrap is refused (R190). -/
def caddRow (t : Nat) (d : Dev) : Dev :=
  coreRow t selCadd (fun i d =>
    let v := readG t i.1.toNat d
    let n := i.2.2.toNat
    if !counterNamed t i.2.1 n d then coreFault 1 evCounterRange t d 0
    else if v.toInt ≤ 0 then coreFault 1 evCounterDecrease t d 0
    else
      match (if i.2.1 then poolAdd n v.toNat d else localAdd t n v.toNat d) with
      | (.applied, d1) => advance t d1
      | (.wrapped, d1) => coreFault 1 evCounterWrap t d1 0) d

/-- A core wait is tested: in place for a local counter, by a watch for a pool counter (R192). -/
def coreWait (t : Nat) (pool : Bool) (i expected : Nat) (d : Dev) : Bool × Dev :=
  if pool then poolWait (.core t) i expected d else localWait t i expected d

def selCwait : Option CoreInstr → Option (BitVec 5 × Bool × BitVec 15)
  | some (.cwait _ a p i) => some (a, p, i)
  | _ => none
def cwaitRow (t : Nat) (d : Dev) : Dev :=
  coreRow t selCwait (fun i d =>
    let n := i.2.2.toNat
    let e := (readG t i.1.toNat d).toNat
    if !counterNamed t i.2.1 n d then coreFault 1 evCounterRange t d 0
    else
      let r := coreWait t i.2.1 n e d
      if r.1 then advance t r.2
      else holdCore t (.counter i.2.1 n e) r.2) d

def selCwaitt : Option CoreInstr → Option (BitVec 5 × BitVec 5 × Bool × BitVec 15)
  | some (.cwaitt d a p i) => some (d, a, p, i)
  | _ => none
/-- CWAITT: g[d] cc of timeout from the first compare; 0 tests once (R191). -/
def cwaittRow (t : Nat) (d : Dev) : Dev :=
  coreRow t selCwaitt (fun i d =>
    let n := i.2.2.2.toNat
    let e := (readG t i.2.1.toNat d).toNat
    let limit := (readG t i.1.toNat d).toNat
    if !counterNamed t i.2.2.1 n d then coreFault 1 evCounterRange t d 0
    else
      let r := coreWait t i.2.2.1 n e d
      if r.1 then writeNext t i.1.toNat 0 r.2
      else if limit = 0 then writeNext t i.1.toNat 1 (dropWatch (.core t) r.2)
      else holdCore t (.timed i.2.2.1 n e i.1.toNat (ccNow d + limit)) r.2) d

def selCread : Option CoreInstr → Option (BitVec 5 × Bool × BitVec 15)
  | some (.cread d _ p i) => some (d, p, i)
  | _ => none
def creadRow (t : Nat) (d : Dev) : Dev :=
  coreRow t selCread (fun i d =>
    let n := i.2.2.toNat
    if !counterNamed t i.2.1 n d then coreFault 1 evCounterRange t d 0
    else
      let r := if i.2.1 then poolRead n d else localRead t n d
      writeNext t i.1.toNat (BitVec.ofNat 64 r.1) r.2) d

/-- Whether a held core's counter has reached its expected value: a pool wait's watch has been released. -/
def waitMet (t : Nat) (pool : Bool) (i expected : Nat) (d : Dev) : Bool :=
  if pool then !watching (.core t) d && !poolPoisoned i d && decide (expected ≤ poolValue i d)
  else !localPoisoned t i d && decide (expected ≤ localValue t i d)

/-- Whether the core of a tile is alive to be released. -/
def coreLive (t : Nat) (d : Dev) : Bool :=
  let x := getTile t d
  !d.fatal && !x.stopped && x.switchTo.isNone &&
    (match x.seg with | some g => !g.ended | none => false)

/-- A satisfied core wait is released (R151, R191). -/
def cwaitRelease (t : Nat) (d : Dev) : Dev :=
  if coreLive t d then
    match (getTile t d).wait with
    | .counter p i e =>
      if waitMet t p i e d then advance t (freeCore t d) else d
    | .timed p i e r _ =>
      if waitMet t p i e d then writeNext t r 0 (freeCore t d) else d
    | _ => d
  else d

/-- A CWAITT whose time has passed, and whose wait is not satisfied in the same cycle, gives d = 1 (R191). -/
def cwaittTimeout (t : Nat) (d : Dev) : Dev :=
  if coreLive t d then
    match (getTile t d).wait with
    | .timed p i e r deadline =>
      if deadline ≤ ccNow d ∧ waitMet t p i e d = false then
        writeNext t r 1 (dropWatch (.core t) (freeCore t d))
      else d
    | _ => d
  else d

/-! ## Issue and the engines -/

/-- The depth of an engine's issue queue (Table 6.5). -/
def queueDepth : Nat → Nat
  | 0 => 8 | 1 => 4 | 2 => 8 | 3 => 16 | 4 => 4 | _ => 16

/-- Header fields of an engine word (Table 6.4). -/
def wEng (w : BitVec 128) : Nat := bitsOf w.toNat 0 4
def wOp (w : BitVec 128) : Nat := bitsOf w.toNat 4 4
def wCueCls (w : BitVec 128) : Nat := bitsOf w.toNat 8 2
def wPlan (w : BitVec 128) : Bool := bitOf w.toNat 10
def wWctr (w : BitVec 128) : Nat := bitsOf w.toNat 12 6
def wWreg (w : BitVec 128) : Nat := bitsOf w.toNat 18 5
def wSctr (w : BitVec 128) : Nat := bitsOf w.toNat 23 6
def wSadd (w : BitVec 128) : Nat := bitsOf w.toNat 29 3
/-- Bits [lo + len - 1 : lo] of an engine word. -/
def wField (w : BitVec 128) (lo len : Nat) : Nat := bitsOf w.toNat lo len

/-- A counter field of a word header: lc0 to lc47, or 63 for none; the rest is reserved. -/
def headerCounterGood (n : Nat) : Bool := decide (n < 48) || n == 63

/-- The header checks made at ISSUE (R142), beside an even a. -/
def headerGood (w : BitVec 128) : Bool :=
  decide (wEng w < 7) && headerCounterGood (wWctr w) && headerCounterGood (wSctr w) && !bitOf w.toNat 11

/-- The words an engine's queue holds, and those it executes. -/
def queueOf (t e : Nat) (d : Dev) : List QWord := Sparse.get [] (getTile t d).queues e
def execOf (t e : Nat) (d : Dev) : List QWord := Sparse.get [] (getTile t d).exec e
def setQueue (t e : Nat) (q : List QWord) (d : Dev) : Dev :=
  modTile t (fun x => { x with queues := Sparse.set [] x.queues e q }) d
def setExec (t e : Nat) (q : List QWord) (d : Dev) : Dev :=
  modTile t (fun x => { x with exec := Sparse.set [] x.exec e q }) d

/-- A word takes the last place of its engine's queue. -/
def enqueue (t : Nat) (w : BitVec 128) (snap tenant ctx : Nat) (reel : Option (Nat × Nat)) (local2 : Nat)
    (d : Dev) : Dev :=
  let x := getTile t d
  let q : QWord := { word := w, snap := snap, tenant := tenant, ctx := ctx, reel := reel, local2 := local2,
                     number := x.issued, phase := .queued, status := 0 }
  setTile t { x with issued := x.issued + 1, queues := Sparse.set [] x.queues (wEng w) (Sparse.get [] x.queues (wEng w) ++ [q]) } d

def selIssue : Option CoreInstr → Option (BitVec 5)
  | some (.issue a) => some a
  | _ => none

/-- ISSUE of g[a], g[a + 1] (R142): the checks, then the snapshot and the queue; a full queue holds the core
(R138). A remote add of 0 is rejected here (R189). -/
def issueWord (t a : Nat) (d : Dev) : Dev :=
  let w : BitVec 128 := readG t (a + 1) d ++ readG t a d
  let ten := coreTenant t d
  let ctx := match (getTile t d).seg with | some g => g.ctx | none => 0
  if a % 2 = 1 ∨ headerGood w = false then advance t (faultRun 1 evWordHeader (srcTile t) ten d)
  else if wEng w = 6 ∧ wOp w = 2 ∧ wField w 66 32 = 0 then
    advance t (faultRun 1 evCounterDecrease (srcTile t) ten d)
  else if (queueOf t (wEng w) d).length < queueDepth (wEng w) then
    let snap := if wWctr w = 63 then 0 else (readG t (wWreg w) d).toNat
    advance t (enqueue t w snap ten ctx none 0 d)
  else holdCore t (.issueFull a) d

def issueRow (t : Nat) (d : Dev) : Dev := coreRow t selIssue (fun a d => issueWord t a.toNat d) d

/-- An ISSUE held by a full queue proceeds when an entry is free (R138). -/
def issueResume (t : Nat) (d : Dev) : Dev :=
  if coreLive t d then
    match (getTile t d).wait with
    | .issueFull a =>
      let e := wEng (readG t (a + 1) d ++ readG t a d)
      if (queueOf t e d).length < queueDepth e then issueWord t a (freeCore t d) else d
    | _ => d
  else d

/-- Whether every word that a rank context issued to the engines of a mask has retired (R136). -/
def ctxDone (t ctx mask : Nat) (d : Dev) : Bool :=
  (List.range 7).all fun e => !bitOf mask e ||
    ((queueOf t e d ++ execOf t e d).all fun q => q.reel.isSome || q.ctx != ctx)

/-- The same for the rank context the core runs. -/
def enginesDone (t mask : Nat) (d : Dev) : Bool := ctxDone t (getTile t d).runCtx mask d

def selWaite : Option CoreInstr → Option (BitVec 7)
  | some (.waite _ m) => some m
  | _ => none
def waiteRow (t : Nat) (d : Dev) : Dev :=
  coreRow t selWaite (fun m d =>
    if enginesDone t m.toNat d then advance t d
    else holdCore t (.engines m.toNat) d) d

/-- A WAITE whose engines have retired their words is released. -/
def waiteRelease (t : Nat) (d : Dev) : Dev :=
  if coreLive t d then
    match (getTile t d).wait with
    | .engines m =>
      if enginesDone t m d then advance t (freeCore t d) else d
    | _ => d
  else d

/-! ## Special registers and the end -/

/-- The value of a special register (Table 6.1); none for an index not listed (R134). -/
def specialReg (t i : Nat) (d : Dev) : Option Nat :=
  match (getTile t d).seg with
  | none => none
  | some g =>
    match i with
    | 0 => some (d.clk.frame % 2 ^ 48)
    | 1 => some g.runFrame
    | 2 => some t
    | 3 => some g.tenant
    | 4 => some g.rank
    | 5 => some (ccNow d - g.startedAt)
    | 6 => some (getRun g.tenant d).factor
    | 7 => some (dictGet 0x2001 1 d)
    | 8 => some g.index
    | 9 => some ((List.range 7).foldl (fun v e => v + (queueDepth e - (queueOf t e d).length) * 32 ^ e) 0)
    | _ => none

/-- RSR of a listed index. -/
def selRsr : Option CoreInstr → Option (BitVec 5 × BitVec 6)
  | some (.rsr d i) => if i.toNat < 10 then some (d, i) else none
  | _ => none
def rsrRow (t : Nat) (d : Dev) : Dev :=
  coreRow t selRsr (fun i d =>
    writeNext t i.1.toNat (BitVec.ofNat 64 ((specialReg t i.2.toNat d).getD 0)) d) d

def selEnd : Option CoreInstr → Option Unit
  | some .end_ => some ()
  | _ => none
def endRow (t : Nat) (d : Dev) : Dev := coreRow t selEnd (fun _ d => endSegment t (traceEnd t d)) d

/-- An illegal instruction: a word that decodes to none, or an RSR of an index not listed (R134, R136). -/
def selIllegal : Option CoreInstr → Option Unit
  | none => some ()
  | some (.rsr _ i) => if i.toNat < 10 then none else some ()
  | _ => none
def illegalRow (t : Nat) (d : Dev) : Dev := coreRow t selIllegal (fun _ d => coreFault 1 evCoreIllegal t d) d

/-! ## The commands -/


def execAlu (tile : Nat) (s : State) : Host.Outcome State Fault Refusal := onTile tile (aluRow tile) s
def execAddi (tile : Nat) (s : State) : Host.Outcome State Fault Refusal := onTile tile (addiRow tile) s
def execAndi (tile : Nat) (s : State) : Host.Outcome State Fault Refusal := onTile tile (logicRow .and_ tile) s
def execOri (tile : Nat) (s : State) : Host.Outcome State Fault Refusal := onTile tile (logicRow .or_ tile) s
def execXori (tile : Nat) (s : State) : Host.Outcome State Fault Refusal := onTile tile (logicRow .xor tile) s
def execShli (tile : Nat) (s : State) : Host.Outcome State Fault Refusal := onTile tile (shiftRow .shl tile) s
def execShri (tile : Nat) (s : State) : Host.Outcome State Fault Refusal := onTile tile (shiftRow .shr tile) s
def execSari (tile : Nat) (s : State) : Host.Outcome State Fault Refusal := onTile tile (shiftRow .sar tile) s
def execIns (tile : Nat) (s : State) : Host.Outcome State Fault Refusal := onTile tile (insRow tile) s
def execSlti (tile : Nat) (s : State) : Host.Outcome State Fault Refusal := onTile tile (sltiRow tile) s
def execLdw (tile : Nat) (s : State) : Host.Outcome State Fault Refusal := onTile tile (ldwRow tile) s
def execBeq (tile : Nat) (s : State) : Host.Outcome State Fault Refusal := onTile tile (branchRow .eq tile) s
def execBne (tile : Nat) (s : State) : Host.Outcome State Fault Refusal := onTile tile (branchRow .ne tile) s
def execBlt (tile : Nat) (s : State) : Host.Outcome State Fault Refusal := onTile tile (branchRow .lt tile) s
def execBge (tile : Nat) (s : State) : Host.Outcome State Fault Refusal := onTile tile (branchRow .ge tile) s
def execBltu (tile : Nat) (s : State) : Host.Outcome State Fault Refusal := onTile tile (branchRow .ltu tile) s
def execBgeu (tile : Nat) (s : State) : Host.Outcome State Fault Refusal := onTile tile (branchRow .geu tile) s
def execJal (tile : Nat) (s : State) : Host.Outcome State Fault Refusal := onTile tile (jalRow tile) s
def execJalr (tile : Nat) (s : State) : Host.Outcome State Fault Refusal := onTile tile (jalrRow tile) s
def execCadd (tile : Nat) (s : State) : Host.Outcome State Fault Refusal := onTile tile (caddRow tile) s
def execCwait (tile : Nat) (s : State) : Host.Outcome State Fault Refusal := onTile tile (cwaitRow tile) s
def execCwaitt (tile : Nat) (s : State) : Host.Outcome State Fault Refusal := onTile tile (cwaittRow tile) s
def execCread (tile : Nat) (s : State) : Host.Outcome State Fault Refusal := onTile tile (creadRow tile) s
def execCwaitRelease (tile : Nat) (s : State) : Host.Outcome State Fault Refusal := onTile tile (cwaitRelease tile) s
def execCwaittTimeout (tile : Nat) (s : State) : Host.Outcome State Fault Refusal := onTile tile (cwaittTimeout tile) s
def execIssue (tile : Nat) (s : State) : Host.Outcome State Fault Refusal := onTile tile (issueRow tile) s
def execIssueResume (tile : Nat) (s : State) : Host.Outcome State Fault Refusal := onTile tile (issueResume tile) s
def execWaite (tile : Nat) (s : State) : Host.Outcome State Fault Refusal := onTile tile (waiteRow tile) s
def execWaiteRelease (tile : Nat) (s : State) : Host.Outcome State Fault Refusal := onTile tile (waiteRelease tile) s
def execRsr (tile : Nat) (s : State) : Host.Outcome State Fault Refusal := onTile tile (rsrRow tile) s
def execEndSegment (tile : Nat) (s : State) : Host.Outcome State Fault Refusal := onTile tile (endRow tile) s
def execIllegalInstruction (tile : Nat) (s : State) : Host.Outcome State Fault Refusal := onTile tile (illegalRow tile) s

end Sys2Proof.Machine
end

