-- ==== Sys2Proof/Machine/Words.lean ====
section
/-!
DEFINITION. The life of an engine word after issue (R143, Table 6.5): the head's checks and wait, dispatch,
completion, retirement with its signal, rejection (R75), and the words of reels (R212). Tile 128 stands for
the network interface's own queue, which holds the words of its reels.
-/
namespace Sys2Proof.Machine

/-- SOURCE of a tile's word; the network interface for words of its reels. -/
def wordSrc (t : Nat) : Nat := if t < 128 then srcTile t else srcNi 0

/-- A reel descriptor of a given sequence number has finished with a status and the code of its event. -/
def setDescStatus (reel seq status code : Nat) (d : Dev) : Dev :=
  modReel reel (fun r => { r with descs := r.descs.map fun x =>
    if x.seq = seq ∧ x.status.isNone then { x with status := some status, code := code } else x }) d

/-- The head of an engine's queue. -/
def headOf (t e : Nat) (d : Dev) : Option QWord := (queueOf t e d).head?

/-- The head leaves its queue. -/
def dropHead (t e : Nat) (d : Dev) : Dev := setQueue t e ((queueOf t e d).drop 1) d

/-- A rejected word is removed, sends no signal, and halts the run; a reel word completes with 0x08 (R75). -/
def rejectHead (t e cls num : Nat) (d : Dev) : Dev :=
  match headOf t e d with
  | none => d
  | some q =>
    let d1 := faultRun cls num (wordSrc t) q.tenant (dropHead t e d)
    match q.reel with
    | some (r, s) => setDescStatus r s 0x08 (cls * 4096 + num) d1
    | none => d1

/-- WORD_FIELD: a reserved OP or a nonzero reserved field at the head of the queue (R140). -/
def wordField (t e : Nat) (d : Dev) : Dev := rejectHead t e 1 evWordField d

/-- Whether a word that takes no cue has a nonzero cue field (R141). -/
def cueBad (w : BitVec 128) : Bool := wCueCls w != 0 || wPlan w

/-- Whether the head's wait counter has reached the snapshot. -/
def headWait (t : Nat) (q : QWord) (d : Dev) : Bool × Dev :=
  if wWctr q.word = 63 then (true, d) else localWait t (wWctr q.word) q.snap d

/-- The head dispatches: it leaves the queue and executes in a phase. -/
def dispatchHead (t e : Nat) (phase : WordPhase) (d : Dev) : Dev :=
  match headOf t e d with
  | none => d
  | some q => setExec t e (execOf t e d ++ [{ q with phase := phase }]) (dropHead t e d)

/-- Whether a tile's engines run: no device-fatal stop and no tenant switch in progress. -/
def enginesRun (t : Nat) (d : Dev) : Bool := !d.fatal && (getTile t d).switchAt.isNone

/-- Whether an engine is between words: everything in execution has done its work. An engine takes up its next
word only then. -/
def engineFree (t e : Nat) (d : Dev) : Bool := (execOf t e d).all fun q => q.phase == .done || q.phase == .failed

/-- The configuration state of an engine's word of an OP, as the word's bits [127:32] (R144). -/
def cfgKey (ctx e op : Nat) : Nat := ctx * 256 + e * 16 + op
def cfgWord (t ctx e op : Nat) (d : Dev) : Nat := (Sparse.get 0 (getTile t d).cfg (cfgKey ctx e op)).toNat * 2 ^ 32
/-- Field [lo + len - 1 : lo] of the configuration word of an OP. -/
def cfgField (t ctx e op lo len : Nat) (d : Dev) : Nat := bitsOf (cfgWord t ctx e op d) lo len

/-- A configuration word at the head of its queue. -/
def configHead (t e op res : Nat) (q : QWord) (d : Dev) : Dev :=
    if wOp q.word = op ∧ enginesRun t d ∧ engineFree t e d then
      if wField q.word res (128 - res) ≠ 0 ∨ cueBad q.word then wordField t e d
      else
        match headWait t q d with
        | (false, d1) => d1
        | (true, d1) => modTile t (fun x => { x with cfg := Sparse.set 0 x.cfg (cfgKey q.ctx e op) (q.word.extractLsb' 32 96) })
            (dispatchHead t e .done d1)
    else d

/-- A configuration word of OP `op` whose reserved bits start at `res`: it writes the state in queue order and
has done its work at once (R144). -/
def configWord (t e op res : Nat) (d : Dev) : Dev :=
  match headOf t e d with
  | none => d
  | some q => forRank (q.ctx == 1) (configHead t e op res q) d

/-- A word in execution by its number. -/
def wordOf (t e number : Nat) (d : Dev) : Option QWord := (execOf t e d).find? fun q => q.number == number

/-- A word in execution changed. -/
def modExec (t e number : Nat) (f : QWord → QWord) (d : Dev) : Dev :=
  setExec t e ((execOf t e d).map fun q => if q.number = number then f q else q) d

/-- A word has done its work: it retires with its signal where `ok`, without it otherwise. `status` and `code` are
what a reel's descriptor reports. -/
def finishWord (t e number : Nat) (ok : Bool) (status : Nat) (d : Dev) (code : Nat := 0) : Dev :=
  modExec t e number (fun q => { q with phase := if ok then .done else .failed, status := status, code := code }) d

/-- A word's signal (R143 step 6). A wrap is refused and halts the run. -/
def signalWord (t : Nat) (q : QWord) (d : Dev) : Dev :=
  if wSctr q.word = 63 then d
  else
    match localAdd t (wSctr q.word) (wSadd q.word + 1) d with
    | (.applied, d1) => d1
    | (.wrapped, d1) => faultRun 1 evCounterWrap (srcTile t) q.tenant d1

/-- A sequencer word's reservation ends as it retires; once both contexts are idle, context 0 goes first again
(R125, R128). -/
def endReservation (t number : Nat) (d : Dev) : Dev :=
  modTile t (fun x =>
    let l := x.seqs.filter fun p => match p.2 with
      | some r => r.number != number
      | none => false
    { x with seqs := l, seqLast := if l.isEmpty then none else x.seqLast }) d

/-- WORD_RETIRE: the first finished word of an engine retires; a good one adds its signal, and a reel's
descriptor takes the status. -/
def wordRetire (t e : Nat) (d : Dev) : Dev :=
  match (execOf t e d).find? fun q => q.phase == .done || q.phase == .failed with
  | none => d
  | some q =>
    let d0 := if e = 4 then endReservation t q.number d else d
    let d1 := setExec t e ((execOf t e d).filter fun x => x.number != q.number) d0
    let d2 := if q.phase = .done ∧ t < 128 then forRank (q.ctx == 1) (signalWord t q) d1 else d1
    match q.reel with
    | some (r, s) => setDescStatus r s q.status q.code d2
    | none => d2

/-- Words in queues of a tile, those of a tenant among them, are discarded without their signals (R153, R345);
reel words complete with 0x07. -/
def discardWords (t : Nat) (gone : QWord → Bool) (d : Dev) : Dev :=
  (List.range 7).foldl (fun d e =>
    ((queueOf t e d).filter gone).foldl (fun d q => match q.reel with
        | some (r, s) => setDescStatus r s 0x07 0 d
        | none => d)
      (setQueue t e ((queueOf t e d).filter fun q => !gone q) d)) d
def discardQueued (t tenant : Nat) (d : Dev) : Dev := discardWords t (fun q => q.tenant == tenant) d

/-- WORD_RETIRE of engine `eng` of a tile (128: the network interface's reels). -/
def execWordRetire (tile eng : Nat) (s : State) : Host.Outcome State Fault Refusal :=
  onDev (decide (tile ≤ 128) && decide (eng < 7)) (wordRetire tile eng) s

end Sys2Proof.Machine
end

