-- ==== Sys2Proof/Machine/Reserve.lean ====
section
/-!
DEFINITION. Cell records of the recurrent sequencer (Table 5.6) and what a running sequencer word reserves
(R125); words of other engines that touch it.
-/
namespace Sys2Proof.Machine

/-! ## Table 5.6 -/

def rType (b : Bytes) : Nat := fieldAt b 0 1
def rAct (b : Bytes) : Nat := fieldAt b 1 1
def rWgt (b : Bytes) : Nat := fieldAt b 2 1
def rFlags (b : Bytes) : Nat := fieldAt b 3 1
def rReverse (b : Bytes) : Bool := bitOf (rFlags b) 0
def rPrecise (b : Bytes) : Bool := bitOf (rFlags b) 1
def rPre (b : Bytes) : Bool := bitOf (rFlags b) 2
def rWaits (b : Bytes) : Bool := bitOf (rFlags b) 3
def rSignals (b : Bytes) : Bool := bitOf (rFlags b) 4
def rB (b : Bytes) : Nat := fieldAt b 4 2
def rH (b : Bytes) : Nat := fieldAt b 6 2
def rD (b : Bytes) : Nat := fieldAt b 8 2
def rRnd (b : Bytes) : Nat := fieldAt b 0x0A 1
def rNoise (b : Bytes) : Nat := fieldAt b 0x0B 1
def rChunk (b : Bytes) : Nat := fieldAt b 0x0C 2
def rFirst (b : Bytes) : Nat := fieldAt b 0x0E 2
def rX (b : Bytes) : Nat := fieldAt b 0x10 8
def rXStride (b : Bytes) : Nat := fieldAt b 0x18 8
def rHBase (b : Bytes) : Nat := fieldAt b 0x20 8
def rCBase (b : Bytes) : Nat := fieldAt b 0x28 8
def rY (b : Bytes) : Nat := fieldAt b 0x30 8
def rYStride (b : Bytes) : Nat := fieldAt b 0x38 8
def rW (b : Bytes) : Nat := fieldAt b 0x40 4
def rU (b : Bytes) : Nat := fieldAt b 0x44 4
def rBias (b : Bytes) : Nat := fieldAt b 0x48 4
def rWork (b : Bytes) : Nat := fieldAt b 0x4C 4
def rWaitCtr (b : Bytes) : Nat := fieldAt b 0x50 2
def rSigCtr (b : Bytes) : Nat := fieldAt b 0x52 2
def rMult (b : Bytes) : Nat := fieldAt b 0x54 2
def rWaitBase (b : Bytes) : Nat := fieldAt b 0x58 8

/-- G: 4 for the four-gate cell, 3 for the three-gate cell. -/
def rGates (b : Bytes) : Nat := if rType b = 0 then 4 else 3

/-- Bits of an element of a format. -/
def fmtBits (c : Nat) : Nat := (fmtD c).bits

/-- The byte length X of one x row. -/
def rXBytes (b : Bytes) : Nat := if rPre b then rGates b * rH b * 4 else rD b * (fmtBits (rAct b) / 8)

/-- The scratch ranges (start, length) that a record names, its own bytes first: record, W, U, bias, work. -/
def rRanges (base : Nat) (b : Bytes) : List (Nat × Nat) :=
  let w := fmtBits (rWgt b) / 8
  let gh := rGates b * rH b
  [(base, 128), (rW b, if rPre b then 0 else rD b * gh * w), (rU b, rH b * gh * w), (rBias b, gh * 4),
   (rWork b, rB b * (24 * rH b + 2 * rXBytes b))]

/-- The accumulator rows (first, count) of a record. -/
def rRows (b : Bytes) : Nat × Nat := (rFirst b, rB b * rGates b * rH b / 128)

/-- Whether two ranges (start, length) share a number. -/
def overlap (x y : Nat × Nat) : Bool :=
  decide (0 < x.2) && decide (0 < y.2) && decide (x.1 < y.1 + y.2) && decide (y.1 < x.1 + x.2)

/-! ## Reservations (R125) -/

/-- The sequencer words that run on a tile. -/
def seqRuns (t : Nat) (d : Dev) : List (Nat × SeqRun) :=
  (getTile t d).seqs.filterMap fun p => p.2.map fun r => (p.1, r)

/-- Whether scratch ranges or accumulator row ranges touch what a running sequencer word has reserved. -/
def conflict (t : Nat) (bytes rows : List (Nat × Nat)) (d : Dev) : Bool :=
  (seqRuns t d).any fun p =>
    (bytes.any fun x => (rRanges p.2.base p.2.record).any (overlap x)) || rows.any (overlap (rRows p.2.record))

/-- The range of each of `n` rows of `len` bytes that start a stride apart. -/
def rowRanges (base stride n len : Nat) : List (Nat × Nat) := (List.range n).map fun i => (base + i * stride, len)

end Sys2Proof.Machine
end

