-- ==== Sys2Proof/Machine/Remote.lean ====
section
/-!
DEFINITION. Remote transactions (chapter 11): tracked puts, gets and counter adds, the peer records, the
target's classification and answers, replays, queries and the completion statuses.
-/
namespace Sys2Proof.Machine

/-! ## Peer records (R253, Table 11.1) -/

/-- A peer record: NEXTSEQ, H and the two windows of 4,096 bits. -/
structure PeerRec where
  next : Nat
  h : Nat
  applied : Nat
  fenced : Nat
  deriving DecidableEq, Repr

/-- The rank context in which a held rank lives: 0 the run's own, 1 a taken-over one. -/
def rankCtx (t rank : Nat) (d : Dev) : Nat := if (getRun t d).live && (getRun t d).rank == rank then 0 else 1

/-- A tenant's setting as its rank context has it: the partner's for a taken-over rank. -/
def ctxGet (t ctx sub : Nat) (d : Dev) : Nat :=
  if ctx = 0 then tenantGet t sub d else partnerGet (0x5000 + t) sub d

/-- The virtual address of the record that a held rank keeps of a peer. -/
def peerVa (t ctx peer : Nat) (d : Dev) : Nat := ctxGet t ctx 0x32 d + 1088 * peer

def parsePeer (b : Bytes) : PeerRec :=
  { next := fieldAt b 0 4, h := fieldAt b 4 4, applied := fieldAt b 0x40 512, fenced := fieldAt b 0x240 512 }

/-- A record is read. -/
def readPeer (t ctx peer : Nat) (d : Dev) : Met × PeerRec × Dev :=
  let r := vaFetch niTlb t ctx (peerVa t ctx peer d) 1088 d
  (r.1, parsePeer r.2.1, r.2.2)

/-- H and the windows are written; the writes are kept in the mirror (R318). -/
def writeWindow (t ctx peer : Nat) (p : PeerRec) (d : Dev) : Met × Dev :=
  let va := peerVa t ctx peer d
  let w := vaWrite niTlb t ctx (va + 4) true (leBytes 4 p.h) d
  if w.1.done then vaWrite niTlb t ctx (va + 0x40) true (leBytes 512 p.applied ++ leBytes 512 p.fenced) w.2 else w

/-- NEXTSEQ is written: a write of the rank's own engines. -/
def writeNextSeq (t ctx peer next : Nat) (d : Dev) : Met × Dev :=
  vaWrite niTlb t ctx (peerVa t ctx peer d) false (leBytes 4 next) d

/-- What R256 makes of a packet. -/
inductive Verdict where
  | apply | duplicate | old
  deriving DecidableEq, Repr

/-- The window moved up so that `s` is its highest SEQ. -/
def PeerRec.shift (p : PeerRec) (k s : Nat) : PeerRec :=
  { p with h := s, applied := p.applied * 2 ^ min k 4096 % 2 ^ 4096, fenced := p.fenced * 2 ^ min k 4096 % 2 ^ 4096 }

/-- R256's classification of SEQ `s`. -/
def PeerRec.classify (p : PeerRec) (s : Nat) : Verdict × PeerRec :=
  let k := (s + 2 ^ 32 - p.h) % 2 ^ 32
  if 0 < k ∧ k < 2 ^ 31 then (.apply, p.shift k s)
  else
    let i := (p.h + 2 ^ 32 - s) % 2 ^ 32
    if 4096 ≤ i then (.old, p) else if bitOf p.applied i || bitOf p.fenced i then (.duplicate, p) else (.apply, p)

/-- The place of SEQ `s` in the window, 0 for H. -/
def PeerRec.place (p : PeerRec) (s : Nat) : Nat := (p.h + 2 ^ 32 - s) % 2 ^ 32

/-- SEQ `s` is marked applied, or fenced. -/
def PeerRec.mark (p : PeerRec) (s : Nat) : PeerRec :=
  if bitOf p.applied (p.place s) then p else { p with applied := p.applied + 2 ^ p.place s }
def PeerRec.fence (p : PeerRec) (s : Nat) : PeerRec :=
  if bitOf p.fenced (p.place s) then p else { p with fenced := p.fenced + 2 ^ p.place s }

/-- The SEQ values of a range. -/
def seqRange (first n : Nat) : List Nat := (List.range n).map fun i => (first + i) % 2 ^ 32

/-! ## Packets of an operation (R255) -/

/-- How many packets an operation's attempt has. -/
def Track.packets (e : Track) : Nat := if e.kind = 0 then (e.len + 223) / 224 else 1

/-- The header of a tracked request. -/
def requestHead (e : Track) (d : Dev) : Packet :=
  { typ := if e.kind = 2 then 2 else 0
    cls := if e.kind = 2 then 0 else if e.window = 0 then 2 else slotClass e.tenant (e.window - 1) d
    tenant := e.tenant, srank := e.srank, drank := e.rank, window := e.window }

/-- The fields every request block begins with. -/
def blockHead (seq tag attempt : Nat) : Nat := seq % 2 ^ 32 + tag * 2 ^ 32 + attempt * 2 ^ 46

/-- The packets of the present attempt of entry `tag`. -/
def attemptPackets (tag : Nat) (e : Track) (d : Dev) : List Packet :=
  let h := requestHead e d
  match e.kind with
  | 0 =>
    let n := e.packets
    (List.range n).map fun i =>
      { h with payload := leBytes 16 (blockHead (e.seq + i) tag e.attempt + (if i + 1 = n then 2 ^ 52 else 0) +
          (e.remote + 224 * i) % 2 ^ 48 * 2 ^ 64 + (n - 1) * 2 ^ 112) ++ (e.data.drop (224 * i)).take 224 }
  | 1 => [{ h with payload := leBytes 16 (blockHead e.seq tag e.attempt + 2 ^ 50 + e.remote % 2 ^ 48 * 2 ^ 64 +
      (e.len / 64 - 1) * 2 ^ 112) }]
  | _ => [{ h with payload := leBytes 16 (blockHead e.seq tag e.attempt + e.counter * 2 ^ 50 + e.value * 2 ^ 64) }]

/-- The query of a resolving entry. -/
def queryPacket (tag : Nat) (e : Track) : Packet :=
  { typ := 0, cls := 2, tenant := e.tenant, srank := e.srank, drank := e.rank,
    payload := leBytes 16 (blockHead 0 tag e.attempt + 2 * 2 ^ 50 + e.seq * 2 ^ 64 + (e.packets - 1) * 2 ^ 112) }

def getTrack (tag : Nat) (d : Dev) : Track := Sparse.get {} d.rem.track tag
def setTrack (tag : Nat) (e : Track) (d : Dev) : Dev := { d with rem.track := Sparse.set {} d.rem.track tag e }
def bumpRem (i : Nat) (d : Dev) : Dev := { d with rem.counts := bumpTable d.rem.counts i 1 }

/-- An attempt's packets join the injection queue. -/
def sendAttempt (tag : Nat) (d : Dev) : Dev :=
  (attemptPackets tag (getTrack tag d) d).foldl (fun d p => inject p d) d

/-! ## Completion (R262) -/

/-- The bytes of operation `op` of a chain instance (Table 13.7). -/
def chainOpBytes (x : ChainInst) (op : Nat) (d : Dev) : Met × Bytes × Dev :=
  let ctx := rankCtx x.tenant x.rank d
  vaRead niTlb x.tenant ctx ((conOf x.tenant ctx d).base + x.body + x.first + 32 * op) 32 d

/-- An OP 3 word retires with its instance, with its signal where the instance ended well. -/
def chainWordDone (x : ChainInst) (ok : Bool) (d : Dev) : Dev :=
  match x.word with
  | some (tile, number) => finishWord tile 6 number ok (if ok then 0 else 0x08) d
  | none => d

/-- An instance is abandoned (R306, R311): it issues nothing further and its word retires without its signal. -/
def abandonChain (number : Nat) (d : Dev) : Dev :=
  match d.coll.chains.find? fun x => x.number == number with
  | none => d
  | some x => chainWordDone x false
      { d with coll.chains := d.coll.chains.filter fun y => y.number != number
               coll.counts := bumpTable d.coll.counts 5 1 }

/-- An operation of an instance has completed well: it leaves the list of those awaited, and its completion
signal adds 1 (R305). -/
def chainOpDone (number op : Nat) (d : Dev) : Dev :=
  match d.coll.chains.find? fun x => x.number == number with
  | none => d
  | some x =>
    let r := chainOpBytes x op d
    let sig := fieldAt r.2.1 6 2
    let d1 := { r.2.2 with coll.chains := r.2.2.coll.chains.map fun y =>
      if y.number = number then { y with waiting := y.waiting.filter (· != op) } else y }
    if bitOf sig 15 then
      match poolAdd (bitsOf sig 0 14) 1 d1 with
      | (.applied, d2) => d2
      | (.wrapped, d2) => faultRun 1 evCounterWrap (srcNi 0) x.tenant d2
    else d1

/-- DETAIL of TX_FAILED and TX_RECOVERED (Table 22.4). -/
def txDetail (status acount rank : Nat) : Nat := status + acount % 1024 * 2 ^ 7 + rank * 2 ^ 17

/-- An operation's one status reaches its requester (R262, R306). -/
def reportOp (o : Origin) (t rank status acount : Nat) (d : Dev) : Dev :=
  let good := decide (status ≤ 1)
  match o with
  | .word tile number =>
    let reel := decide (128 ≤ tile)
    let d1 := if status = 0 then d
      else if status = 1 then raiseT 4 evTxRecovered (wordSrc tile) t d (txDetail status acount rank)
      else if reel then raiseT 4 evTxFailed (wordSrc tile) t d (txDetail status acount rank)
      else faultRun 1 evTxFailed (wordSrc tile) t d (txDetail status acount rank)
    finishWord tile 6 number (if reel then status == 0 else good) (if status = 0 then 0 else 0x80 + status) d1
      (if status = 0 then 0 else if status = 1 then 0x4000 + evTxRecovered else 0x4000 + evTxFailed)
  | .chain number op =>
    if good then
      chainOpDone number op (if status = 1 then raiseT 4 evTxRecovered (srcNi 0) t d (txDetail status acount rank) else d)
    else if d.coll.chains.any fun x => x.number == number then
      abandonChain number (faultRun 1 evTxFailed (srcNi 0) t d (txDetail status acount rank))
    else d

/-- What stands for "the same tile" in R194: the tile, or the chain instance. -/
def Origin.source : Origin → Nat
  | .word tile _ => tile
  | .chain number _ => 256 + number

/-- Entry `tag` completes with a status: it becomes free after SUCCESS at ATTEMPT 0, else quarantined
(Table 11.5); a put that failed is remembered for the adds behind it (R194). -/
def completeOp (tag status acount : Nat) (d : Dev) : Dev :=
  let e := getTrack tag d
  let e1 : Track := if status = 0 ∧ e.attempt = 0 then {}
    else { e with state := .quar, doneFrame := d.clk.ticksPlaced, data := [] }
  let d1 := setTrack tag e1 d
  let d2 := if e.kind = 0 ∧ 1 < status then
      { d1 with rem.failedPuts := d1.rem.failedPuts ++ [(e.origin.source, e.tenant, e.rank)] }
    else d1
  forRank (takenRank e.tenant e.srank d) (reportOp e.origin e.tenant e.rank status acount) d2

/-! ## Dispatch (R251 to R254) -/

/-- What a dispatch came to. -/
inductive Sent where
  | wait
  | notSent (status : Nat)
  | sent
  deriving DecidableEq, Repr

def Track.open_ (e : Track) : Bool := e.state == .send || e.state == .wait || e.state == .resolve

/-- Entries that count toward a limit: all but free ones (R252). -/
def entriesUsed (d : Dev) : Nat := d.rem.track.length
def tenantEntries (t : Nat) (d : Dev) : Nat := (d.rem.track.filter fun e => e.2.tenant == t).length

/-- The lowest free entry. -/
def freeTag (d : Dev) : Option Nat := (List.range 16384).find? fun i => (getTrack i d).state == .free

/-- The key of a cached peer record. -/
def windowKey (t srank peer : Nat) : Nat := (t * 2 ^ 20 + srank) * 2 ^ 20 + peer

/-- Whether an add must wait for an earlier put of its source to the same rank, and whether one failed. -/
def putsOpen (o : Origin) (t rank : Nat) (d : Dev) : Bool :=
  d.rem.track.any fun e => e.2.open_ && e.2.kind == 0 && e.2.tenant == t && e.2.rank == rank &&
    e.2.origin.source == o.source
def putFailed (o : Origin) (t rank : Nat) (d : Dev) : Bool := d.rem.failedPuts.contains (o.source, t, rank)

/-- Whether R254 holds the operation back: an incomplete one whose first SEQ is 4,096 or more below the new
one's last. -/
def spanHeld (t srank peer last : Nat) (d : Dev) : Bool :=
  d.rem.track.any fun e => e.2.open_ && e.2.tenant == t && e.2.srank == srank && e.2.rank == peer &&
    decide (4096 ≤ (last + 2 ^ 32 - e.2.seq) % 2 ^ 32) && decide ((last + 2 ^ 32 - e.2.seq) % 2 ^ 32 < 2 ^ 31)

/-- A read of a tile's scratch; none where it leaves scratch. -/
def scratchRead (t off n : Nat) (d : Dev) : Option (Bytes × Bool × Dev) :=
  if off + n ≤ scratchSize then some (physRead (scratchAddr t off) n d) else none

/-- The local source of a put. -/
def readSource (x : Track) (ctx : Nat) (d : Dev) : Sent × Bytes × Dev :=
  if x.kind ≠ 0 then (.sent, [], d)
  else if x.side = 0 then
    match scratchRead x.tile x.local_ x.len d with
    | none => (.notSent 8, [], d)
    | some (b, ue, d1) =>
      if ue then (.notSent 8, [], faultRun 2 evScratchUe (srcTile x.tile) x.tenant d1) else (.sent, b, d1)
  else
    let r := vaFetch niTlb x.tenant ctx x.local_ x.len d
    match r.1 with
    | .ok => (.sent, r.2.1, r.2.2)
    | .wait => (.wait, [], r.2.2)
    | m => (.notSent 8, [], raiseMet m (srcNi 0) x.tenant r.2.2)

/-- A tracked operation dispatches: it takes an entry, SEQ values and its packets (R251 to R254), waits at its
queue, or completes without being sent. -/
def dispatchOp (x : Track) (ctx : Nat) (d : Dev) : Sent × Dev :=
  match rankLookup x.tenant x.rank d with
  | (.miss, d1) => (.wait, d1)
  | (.invalid, d1) => (.notSent 7, faultRun 1 evRankInvalid (srcNi 0) x.tenant d1)
  | (.coord _, d1) =>
    if x.kind = 2 ∧ putsOpen x.origin x.tenant x.rank d1 then (.wait, d1)
    else if x.kind = 2 ∧ putFailed x.origin x.tenant x.rank d1 then (.notSent 9, d1)
    else if 16384 ≤ entriesUsed d1 ∨ tenantGet x.tenant 0x33 d1 ≤ tenantEntries x.tenant d1 then (.wait, d1)
    else if Sparse.get false d1.rem.windowCache (windowKey x.tenant x.srank x.rank) = false then
      (.wait, if d1.rem.fillWait.contains (x.tenant, x.srank, x.rank) then d1
        else { d1 with rem.fillWait := d1.rem.fillWait ++ [(x.tenant, x.srank, x.rank)]
                       rem.counts := bumpTable d1.rem.counts 6 1 })
    else
      match readPeer x.tenant ctx x.rank d1 with
      | (.wait, _, d2) => (.wait, d2)
      | (m, p, d2) =>
        if m.done then
          let n := x.packets
          if spanHeld x.tenant x.srank x.rank ((p.next + n - 1) % 2 ^ 32) d2 then (.wait, d2)
          else
            match readSource x ctx d2 with
            | (.sent, bs, d3) =>
              (match writeNextSeq x.tenant ctx x.rank ((p.next + n) % 2 ^ 32) d3 with
              | (.wait, d4) => (.wait, d4)
              | (m, d4) =>
                if m.done then
                  match freeTag d4 with
                  | none => (.wait, d4)
                  | some tag =>
                    (.sent, sendAttempt tag (setTrack tag { x with
                      state := .send, seq := p.next, count := n, attempt := 0, data := bs } d4))
                else (.notSent 8, raiseMet m (srcNi 0) x.tenant d4))
            | (r, _, d3) => (r, d3)
        else (.notSent 8, raiseMet m (srcNi 0) x.tenant d2)

/-- WINDOW_CACHE_FILL: the first peer record waited for is read into the window cache. An access that fails leaves its
fault to the operation that asked. -/
def windowCacheFill (d : Dev) : Dev :=
  match d.rem.fillWait with
  | [] => d
  | (t, srank, peer) :: rest =>
    match readPeer t (rankCtx t srank d) peer d with
    | (.wait, _, d1) => d1
    | (_, _, d1) =>
      let c := cacheRoom d1.rem.windowCache d1.rem.windowPinned d1
      let pin := Sparse.get false d1.net.pinned (rankKey t peer) && decide (d1.rem.windowPinned.length < 4096)
      { c.2 with
        rem.fillWait := rest
        rem.windowCache := Sparse.set false c.1 (windowKey t srank peer) true
        rem.windowPinned := if pin then Sparse.set false d1.rem.windowPinned (windowKey t srank peer) true
          else d1.rem.windowPinned }

/-! ## Network-interface words (Table 6.12, R148) -/

/-- The operation a word of OP 0, 1 or 2 asks for. -/
def wordOp (tile : Nat) (q : QWord) (d : Dev) : Track :=
  let w := q.word
  if wOp w = 2 then
    { tenant := q.tenant, srank := ctxRank q.tenant q.ctx d, rank := wField w 32 20, kind := 2, tile := tile,
      counter := wField w 52 14, value := wField w 66 32, origin := .word tile q.number }
  else
    { tenant := q.tenant, srank := ctxRank q.tenant q.ctx d, rank := wField w 32 20, kind := wOp w, tile := tile,
      local_ := wField w 52 17 * 64, remote := wField w 69 48, len := (wField w 117 11 + 1) * 64,
      side := if tile < 128 then 0 else 1, origin := .word tile q.number }

/-- The fields of a word that the head checks (R143 step 1, R148): a reserved OP, a remote address not a
multiple of 64, and reserved bits of a start-chain word. -/
def niFieldBad (w : BitVec 128) : Bool :=
  decide (3 < wOp w) || cueBad w || (decide (wOp w ≤ 1) && wField w 69 6 != 0) || (wOp w == 2 && wField w 98 30 != 0) ||
    (wOp w == 3 && wField w 60 68 != 0)

/-- The local side of a reel's put or get: the reel word has no tile, so its local address is a VA that the
descriptor's own field gives. -/
def withReelLocal (q : QWord) (x : Track) : Track := if q.reel.isSome then { x with local_ := q.local2, side := 1 } else x

/-- The word at the head of the network-interface queue of a tile. -/
def niHead (op tile : Nat) (q : QWord) (d : Dev) : Dev :=
    if (wOp q.word = op ∨ 3 < wOp q.word) ∧ enginesRun tile d then
      if niFieldBad q.word then wordField tile 6 d
      else if wOp q.word ≠ 2 ∧ q.reel.isNone ∧
          conflict tile [(wField q.word 52 17 * 64, (wField q.word 117 11 + 1) * 64)] [] d then
        rejectHead tile 6 1 evRnnConflict d
      else
        match headWait tile q d with
        | (false, d1) => d1
        | (true, d1) =>
          let x := withReelLocal q (wordOp tile q d1)
          match dispatchOp x q.ctx d1 with
          | (.wait, d2) => d2
          | (.sent, d2) => dispatchHead tile 6 .running d2
          | (.notSent s, d2) => reportOp x.origin x.tenant x.rank s 0 (dispatchHead tile 6 .running d2)
    else d

/-- NI_PUT, NI_GET and NI_COUNTER_ADD: the head of the network-interface queue of a tile, where its OP is `op`,
dispatches. A reserved OP is rejected by whichever of them meets it. -/
def niWord (op tile : Nat) (d : Dev) : Dev :=
  match headOf tile 6 d with
  | none => d
  | some q => forRank (q.ctx == 1) (niHead op tile q) d

/-! ## At the target (R256, R257) -/

/-- A packet that waits at the network interface is taken. -/
def takeLocal (f : Packet → Bool) (d : Dev) : Option (Packet × Dev) :=
  (takeFirst f d.net.local_).map fun r => (r.1, { d with net.local_ := r.2 })

/-- A packet that must wait goes back to the head. -/
def putBack (p : Packet) (d : Dev) : Dev := { d with net.local_ := p :: d.net.local_ }

/-- The 128-bit block a payload begins with. -/
def blockOf (p : Packet) : Nat := leNat (p.payload.take 16)

/-- OPC of a TXREQ. -/
def opcOf (p : Packet) : Nat := bitsOf (blockOf p) 50 2

/-- A malformed request is discarded and counted as old (R255). -/
def requestBad (p : Packet) : Bool :=
  let b := blockOf p
  decide (p.payload.length < 16) ||
  (if p.typ = 2 then bitsOf b 96 32 != 0
   else bitsOf b 50 2 == 3 || bitsOf b 53 11 != 0 || bitsOf b 123 5 != 0 ||
     (bitsOf b 50 2 == 2 && bitsOf b 96 16 != 0))

/-- An answer leaves at once, or, where the answered writes and the record update have gone to the twin, when
their records have been acknowledged (R257, R320, R321). -/
def answer (held : Bool) (p : Packet) (d : Dev) : Dev :=
  if held && anyProtected p.tenant d then { d with rem.answers := d.rem.answers ++ [(mseqAfter d, p)] }
  else inject p d

/-- Answers whose records have been acknowledged, or that no longer wait for the twin, leave. -/
def releaseAnswers (d : Dev) : Dev :=
  let ready (a : Nat × Packet) : Bool := !mirroring d || ackedBelow a.1 d
  (d.rem.answers.filter ready).foldl (fun d a => inject a.2 d) { d with rem.answers := d.rem.answers.filter fun a => !ready a }

/-- The response packet to a request (Table 11.3). -/
def response (p : Packet) (seq tstat : Nat) (more : Nat := 0) (data : Bytes := []) : Packet :=
  let b := blockOf p
  { typ := if p.typ = 2 then 3 else 1, cls := if p.typ = 2 then 0 else 3, tenant := p.tenant, srank := p.drank,
    drank := p.srank, dst := p.src,
    payload := leBytes 16 (blockHead seq (bitsOf b 32 14) (bitsOf b 46 4) + tstat * 2 ^ 50 + more) ++ data }

/-- The context that a request reaches: none where the tenant holds no run that is Armed, Running or Halted. -/
def targetCtx (p : Packet) (d : Dev) : Option Nat :=
  if (heldRanks p.tenant d).isEmpty then none else some (rankCtx p.tenant p.drank d)

/-- A request is refused: its unicast sender is answered. A put is answered at its LAST packet only. -/
def refuse (p : Packet) (seq tstat : Nat) (d : Dev) : Dev :=
  if p.mc || (p.typ == 0 && opcOf p == 0 && !bitOf (blockOf p) 52) then d else answer false (response p seq tstat) d

/-- The first SEQ of the put that a packet belongs to. -/
def putFirst (p : Packet) : Nat :=
  if bitOf (blockOf p) 52 then (bitsOf (blockOf p) 0 32 + 2 ^ 32 - bitsOf (blockOf p) 112 11) % 2 ^ 32
  else bitsOf (blockOf p) 0 32

/-- A put packet at its target. -/
def putArrives (p : Packet) (d0 : Dev) : Dev :=
    let b := blockOf p
    let seq := bitsOf b 0 32
    let data := p.payload.drop 16
    let va := bitsOf b 64 48
    if requestBad p then bumpRem 5 d0
    else
      match targetCtx p d0 with
      | none => refuse p (putFirst p) 4 d0
      | some ctx =>
        if p.mc ∨ seq = 0 then
          match vaWrite niTlb p.tenant ctx va true data d0 with
          | (.wait, d1) => putBack p d1
          | (m, d1) =>
            if m.done then (if p.mc || !bitOf b 52 then d1 else answer true (response p (putFirst p) 0) d1)
            else refuse p (putFirst p) 3 (raiseMet m (srcNi 0) p.tenant d1)
        else
          match readPeer p.tenant ctx p.srank d0 with
          | (.wait, _, d1) => putBack p d1
          | (m, r, d1) =>
            if m.done then
              let v := r.classify seq
              match v.1 with
              | .old => bumpRem 5 d1
              | _ =>
                let applied := if v.1 = .duplicate then (Met.ok, bumpRem 4 d1) else vaWrite niTlb p.tenant ctx va true data d1
                match applied with
                | (.wait, d2) => putBack p d2
                | (m2, d2) =>
                  let r2 := if v.1 = .duplicate ∨ m2.done = false then v.2 else v.2.mark seq
                  match writeWindow p.tenant ctx p.srank r2 d2 with
                  | (.wait, d3) => putBack p d3
                  | (m3, d3) =>
                    if m2.done && m3.done then
                      if bitOf b 52 then
                        let all := (seqRange (putFirst p) (bitsOf b 112 11 + 1)).all fun s =>
                          decide (r2.place s < 4096) && bitOf r2.applied (r2.place s)
                        answer true (response p (putFirst p) (if all then 0 else 1)) d3
                      else d3
                    else refuse p (putFirst p) 3 (raiseMet (if m2.done then m3 else m2) (srcNi 0) p.tenant d3)
            else refuse p (putFirst p) 3 (raiseMet m (srcNi 0) p.tenant d1)

/-- TXREQ_PUT (R256, R257). -/
def txreqPut (d : Dev) : Dev :=
  match takeLocal (fun p => p.typ == 0 && (opcOf p == 0 || opcOf p == 3)) d with
  | none => d
  | some (p, d0) => forRank (takenRank p.tenant p.drank d0) (putArrives p) d0

/-- A get at its target. -/
def getArrives (p : Packet) (d0 : Dev) : Dev :=
    let b := blockOf p
    let seq := bitsOf b 0 32
    let n := (bitsOf b 112 11 + 1) * 64
    if requestBad p then bumpRem 5 d0
    else
      match targetCtx p d0 with
      | none => refuse p seq 4 d0
      | some ctx =>
        match vaFetch niTlb p.tenant ctx (bitsOf b 64 48) n d0 with
        | (.wait, _, d1) => putBack p d1
        | (m, data, d1) =>
          if m.done then
            let pieces := (List.range ((n + 223) / 224)).map fun i =>
              response p seq 0 (2 ^ 56 + i * 2 ^ 57) ((data.drop (224 * i)).take 224)
            answer false (response p seq 0) (pieces.foldl (fun d q => answer false q d) d1)
          else refuse p seq 3 (raiseMet m (srcNi 0) p.tenant d1)

/-- TXREQ_GET: every arrival is read again and answered with data, then a data-less response (R257). -/
def txreqGet (d : Dev) : Dev :=
  match takeLocal (fun p => p.typ == 0 && opcOf p == 1) d with
  | none => d
  | some (p, d0) => forRank (takenRank p.tenant p.drank d0) (getArrives p) d0

/-- A query at its target. -/
def queryArrives (p : Packet) (d0 : Dev) : Dev :=
    let b := blockOf p
    let first := bitsOf b 64 32
    let n := bitsOf b 112 11 + 1
    if requestBad p then bumpRem 5 d0
    else
      match targetCtx p d0 with
      | none => refuse p first 4 d0
      | some ctx =>
        match readPeer p.tenant ctx p.srank d0 with
        | (.wait, _, d1) => putBack p d1
        | (m, r, d1) =>
          if m.done then
            let top := (first + n - 1) % 2 ^ 32
            let k := (top + 2 ^ 32 - r.h) % 2 ^ 32
            let r1 := if 0 < k ∧ k < 2 ^ 31 then r.shift k top else r
            let d2 := bumpRem 7 d1
            if 4096 ≤ r1.place first ∨ 4096 ≤ r1.place top then answer false (response p first 7) d2
            else
              let missing := (seqRange first n).filter fun s => !bitOf r1.applied (r1.place s)
              let r2 := missing.foldl (fun r s => r.fence s) r1
              match writeWindow p.tenant ctx p.srank r2 d2 with
              | (.wait, d3) => putBack p d3
              | (m3, d3) =>
                if m3.done then
                  answer true (response p first (if missing.isEmpty then 5 else 6) ((n - missing.length) % 1024 * 2 ^ 67)) d3
                else refuse p first 3 (raiseMet m3 (srcNi 0) p.tenant d3)
          else refuse p first 3 (raiseMet m (srcNi 0) p.tenant d1)

/-- TXREQ_QUERY: every queried SEQ that is not applied is fenced (R256). A range that reaches above H moves the
window up to it (DEDUCED from Table 11.10, log entry 20). -/
def txreqQuery (d : Dev) : Dev :=
  match takeLocal (fun p => p.typ == 0 && opcOf p == 2) d with
  | none => d
  | some (p, d0) => forRank (takenRank p.tenant p.drank d0) (queryArrives p) d0

/-- The add of a remote counter add at its target: ownership, then the add (R193, R198). The code is the TSTAT. -/
def applyAdd (t i v : Nat) (d : Dev) : Nat × Dev :=
  if !ownsPool t i d then (2, faultRun 1 evCounterRange (srcNi 0) t d)
  else if v = 0 then (2, faultRun 1 evCounterDecrease (srcNi 0) t d)
  else
    match poolAdd i v (modTCount (sliceOf i) (fun c => { c with ctrRemote := satAdd 64 c.ctrRemote 1 }) d) true with
    | (.applied, d1) => (0, d1)
    | (.wrapped, d1) => (2, faultRun 1 evCounterWrap (srcNi 0) t d1)

/-- A remote add at its target. -/
def caddArrives (p : Packet) (d0 : Dev) : Dev :=
    let b := blockOf p
    let seq := bitsOf b 0 32
    let i := bitsOf b 50 14
    let v := bitsOf b 64 32
    if requestBad p then bumpRem 5 d0
    else
      match targetCtx p d0 with
      | none => refuse p seq 4 (staleAdd i (some p.tenant) d0)
      | some ctx =>
        if p.mc ∨ seq = 0 then
          let r := applyAdd p.tenant i v d0
          if p.mc then r.2 else if r.1 = 0 then answer true (response p seq 0) r.2 else refuse p seq r.1 r.2
        else
          match readPeer p.tenant ctx p.srank d0 with
          | (.wait, _, d1) => putBack p d1
          | (m, w, d1) =>
            if m.done then
              let c := w.classify seq
              match c.1 with
              | .old => bumpRem 5 d1
              | .duplicate => answer true (response p seq 0) (bumpRem 4 d1)
              | .apply =>
                let r := applyAdd p.tenant i v d1
                match writeWindow p.tenant ctx p.srank (if r.1 = 0 then c.2.mark seq else c.2) r.2 with
                | (m2, d3) =>
                  if m2.done then (if r.1 = 0 then answer true (response p seq 0) d3 else refuse p seq r.1 d3)
                  else refuse p seq 3 (raiseMet m2 (srcNi 0) p.tenant d3)
            else refuse p seq 3 (raiseMet m (srcNi 0) p.tenant d1)

/-- CADD_PACKET (R193, R195, R256). -/
def caddPacket (d : Dev) : Dev :=
  match takeLocal (fun p => p.typ == 2) d with
  | none => d
  | some (p, d0) => forRank (takenRank p.tenant p.drank d0) (caddArrives p) d0

/-! ## At the requester (R258, R259, R263) -/

/-- A replay: every packet is sent again under the next ATTEMPT. -/
def replay (tag : Nat) (d : Dev) : Dev :=
  let e := getTrack tag d
  sendAttempt tag (bumpRem 0 (setTrack tag
    { e with state := .send, attempt := e.attempt + 1, sent := 0, got := [], gotEnd := false } d))

/-- The deadline of an entry: T_link and T_rsp after its first transmission (Table 11.7). -/
def respTime (e : Track) (d : Dev) : Nat := tenantGet e.tenant 0x34 d * tUs
def deadlineAt (e : Track) (d : Dev) : Nat := e.firstTx + 2000 * tUs + respTime e d

/-- A get has everything: its data-less response and every data packet. -/
def getDone (e : Track) : Bool := e.gotEnd && decide (e.got.length = (e.len + 223) / 224)

/-- Data of a get is written at the requester. -/
def writeGet (e : Track) (pidx : Nat) (bs : Bytes) (d : Dev) : Met × Dev :=
  if e.side = 0 then
    if e.local_ + 224 * pidx + bs.length ≤ scratchSize then
      let w := physWrite (scratchAddr e.tile (e.local_ + 224 * pidx)) bs d
      (.ok, if w.1 then faultRun 2 evScratchUe (srcTile e.tile) e.tenant w.2 else w.2)
    else (.fault 1 (e.local_ + 224 * pidx), d)
  else
    let tag := match e.origin with
      | .word tile _ => segFrames tile d
      | .chain inst _ => ((d.coll.chains.find? fun x => x.number == inst).map fun x => (rankCtx x.tenant x.rank d, x.r)).toList
    let w := vaWrite niTlb e.tenant (rankCtx e.tenant e.srank d) (e.local_ + 224 * pidx) false bs (tagWork tag d)
    (w.1, tagWork [] w.2)

/-- A response for the current attempt of a waiting entry. -/
def waitResponse (p : Packet) (tag tstat : Nat) (d : Dev) : Dev :=
  let e := getTrack tag d
  let b := blockOf p
  match tstat with
  | 0 =>
    if e.kind = 1 then
      if bitOf b 56 then
        let i := bitsOf b 57 10
        let bs := p.payload.drop 16
        if (e.len + 223) / 224 ≤ i ∨ e.got.contains i then bumpRem 3 d
        else
          match writeGet e i bs d with
          | (.wait, d1) => putBack p d1
          | (m, d1) =>
            if m.done then
              let e1 := { e with got := e.got ++ [i] }
              let d2 := setTrack tag e1 d1
              if getDone e1 then completeOp tag 0 0 d2 else d2
            else completeOp tag 8 0 (raiseMet m (srcNi 0) e.tenant d1)
      else
        let e1 := { e with gotEnd := true }
        let d2 := setTrack tag e1 d
        if getDone e1 then completeOp tag 0 0 d2 else d2
    else completeOp tag 0 0 d
  | 1 => if e.attempt < 11 ∧ d.now < deadlineAt e d then replay tag d else d
  | 2 => completeOp tag 4 0 d
  | 3 => completeOp tag 5 0 d
  | 4 => completeOp tag 6 0 d
  | _ => d

/-- A response in RESOLVE. -/
def resolveResponse (p : Packet) (tag tstat : Nat) (d : Dev) : Dev :=
  let acount := bitsOf (blockOf p) 67 10
  match tstat with
  | 5 => completeOp tag 1 acount d
  | 6 => completeOp tag 2 acount d
  | 7 => setTrack tag { getTrack tag d with unknown := true } d
  | _ => d

/-- A response packet: late, stale, or for its entry (R263). -/
def takeResponse (typ : Nat) (d : Dev) : Dev :=
  match takeLocal (fun p => p.typ == typ) d with
  | none => d
  | some (p, d0) =>
    let b := blockOf p
    let tag := bitsOf b 32 14
    let e := getTrack tag d0
    let tstat := bitsOf b 50 6
    if 7 < tstat then bumpRem 3 d0
    else if e.open_ = false ∨ e.tenant ≠ p.tenant ∨ e.seq ≠ bitsOf b 0 32 ∨ (typ = 3 ∧ e.kind ≠ 2) then bumpRem 2 d0
    else if e.attempt ≠ bitsOf b 46 4 then bumpRem 3 d0
    else if e.unknown then d0
    else if e.state = .wait then forRank (takenRank e.tenant e.srank d0) (waitResponse p tag tstat) d0
    else if e.state = .resolve then resolveResponse p tag tstat d0
    else d0

/-- RESPONSE_TIMEOUT: T_rsp since the attempt's first packet, before the deadline, below ATTEMPT 11. -/
def responseTimeout (tag : Nat) (d : Dev) : Dev :=
  let e := getTrack tag d
  if e.state = .wait ∧ e.unknown = false ∧ e.attempt < 11 ∧ e.attemptTx + respTime e d ≤ d.now ∧ d.now < deadlineAt e d then
    replay tag d
  else d

/-- A query leaves, and its time and epoch are noted. -/
def sendQuery (tag : Nat) (d : Dev) : Dev :=
  let e := getTrack tag d
  inject (queryPacket tag e) (setTrack tag { e with queryAt := d.now, queryEpoch := epoch d } d)

/-- TRANSACTION_DEADLINE: a put or add enters RESOLVE; a get completes under R260. -/
def transactionDeadline (tag : Nat) (d : Dev) : Dev :=
  let e := getTrack tag d
  if e.state = .wait ∧ e.unknown = false ∧ deadlineAt e d ≤ d.now then
    if e.kind = 1 then setTrack tag { e with unknown := true } d
    else sendQuery tag (bumpRem 1 (setTrack tag { e with state := .resolve, resolveAt := d.now } d))
  else d

/-- QUERY_RESEND: every T_rsp, and at a change of the injection epoch. -/
def queryResend (tag : Nat) (d : Dev) : Dev :=
  let e := getTrack tag d
  if e.state = .resolve ∧ e.unknown = false ∧ (e.queryAt + respTime e d ≤ d.now ∨ e.queryEpoch ≠ epoch d) then sendQuery tag d
  else d

/-- RESOLVE_TIMEOUT: T_res in RESOLVE. -/
def resolveTimeout (tag : Nat) (d : Dev) : Dev :=
  let e := getTrack tag d
  if e.state = .resolve ∧ e.resolveAt + tenantGet e.tenant 0x35 d * tMs ≤ d.now then setTrack tag { e with unknown := true } d
  else d

/-- LIFETIME_HOLD_EXPIRY: at the fourth tick after the last request transmission an entry that could not be
resolved completes LINK_LOST_UNKNOWN (R260). -/
def lifetimeHoldExpiry (tag : Nat) (d : Dev) : Dev :=
  let e := getTrack tag d
  if e.open_ ∧ e.unknown ∧ e.lastTxFrame + 4 ≤ d.clk.ticksPlaced then completeOp tag 3 0 d else d

/-- QUARANTINE_END: at the fourth tick after completion the entry is free. -/
def quarantineEnd (tag : Nat) (d : Dev) : Dev :=
  let e := getTrack tag d
  if e.state = .quar ∧ e.doneFrame + 4 ≤ d.clk.ticksPlaced then setTrack tag {} d else d

/-- Open entries that a test names complete with ABORTED; at a teardown, those of the tenant (R264). -/
def abortEntries (gone : Track → Bool) (d : Dev) : Dev :=
  (d.rem.track.filter fun e => e.2.open_ && gone e.2).foldl (fun d e => completeOp e.1 0x0A 0 d) d
def abortTracked (t : Nat) (d : Dev) : Dev := abortEntries (fun e => e.tenant == t) d

/-- What the network interface holds of a tenant is dropped at its teardown: packets not yet injected, cached
records and windows, and failed puts. -/
def dropRemote (t : Nat) (d : Dev) : Dev :=
  { d with
    net.inject := d.net.inject.filter fun p => p.tenant != t
    net.held := d.net.held.filter fun p => p.tenant != t
    rem.windowCache := d.rem.windowCache.filter fun e => e.1 / 2 ^ 40 != t
    rem.windowPinned := d.rem.windowPinned.filter fun e => e.1 / 2 ^ 40 != t
    rem.fillWait := d.rem.fillWait.filter fun e => e.1 != t
    rem.failedPuts := d.rem.failedPuts.filter fun e => e.2.1 != t
    rem.answers := d.rem.answers.filter fun e => e.2.tenant != t }

/-! ## The commands -/

def niOk (t : Nat) : Bool := decide (t ≤ 128)
def tagOk (t : Nat) : Bool := decide (t < 16384)

def execNiPut (tile : Nat) (s : State) : Host.Outcome State Fault Refusal := onDev (niOk tile) (asTile tile (niWord 0 tile)) s
def execNiGet (tile : Nat) (s : State) : Host.Outcome State Fault Refusal := onDev (niOk tile) (asTile tile (niWord 1 tile)) s
def execNiCounterAdd (tile : Nat) (s : State) : Host.Outcome State Fault Refusal := onDev (niOk tile) (asTile tile (niWord 2 tile)) s
def execWindowCacheFill (s : State) : Host.Outcome State Fault Refusal := onDev true windowCacheFill s
def execTxreqPut (s : State) : Host.Outcome State Fault Refusal := onDev true txreqPut s
def execTxreqGet (s : State) : Host.Outcome State Fault Refusal := onDev true txreqGet s
def execTxreqQuery (s : State) : Host.Outcome State Fault Refusal := onDev true txreqQuery s
def execCaddPacket (s : State) : Host.Outcome State Fault Refusal := onDev true caddPacket s
def execTxrsp (s : State) : Host.Outcome State Fault Refusal := onDev true (takeResponse 1) s
def execCack (s : State) : Host.Outcome State Fault Refusal := onDev true (takeResponse 3) s
def execResponseTimeout (tag : Nat) (s : State) : Host.Outcome State Fault Refusal := onDev (tagOk tag) (responseTimeout tag) s
def execTransactionDeadline (tag : Nat) (s : State) : Host.Outcome State Fault Refusal := onDev (tagOk tag) (transactionDeadline tag) s
def execQueryResend (tag : Nat) (s : State) : Host.Outcome State Fault Refusal := onDev (tagOk tag) (queryResend tag) s
def execResolveTimeout (tag : Nat) (s : State) : Host.Outcome State Fault Refusal := onDev (tagOk tag) (resolveTimeout tag) s
def execLifetimeHoldExpiry (tag : Nat) (s : State) : Host.Outcome State Fault Refusal := onDev (tagOk tag) (lifetimeHoldExpiry tag) s
def execQuarantineEnd (tag : Nat) (s : State) : Host.Outcome State Fault Refusal := onDev (tagOk tag) (quarantineEnd tag) s

end Sys2Proof.Machine
end

