-- ==== Sys2Proof/Machine/Coll.lean ====
section
/-!
DEFINITION. Collectives and triggered-operation chains (chapter 13), and the slot windows of VC-S (R239).
-/
namespace Sys2Proof.Machine

/-! ## Byte ranges -/

/-- Whether two ranges (offset, length) share a byte. -/
def overlaps (a b : Nat × Nat) : Bool := decide (a.1 < b.1 + b.2) && decide (b.1 < a.1 + a.2)

/-- How far the bytes from `a` on are covered by ranges. -/
def coveredTo (rs : List (Nat × Nat)) : Nat → Nat → Nat
  | 0, a => a
  | n + 1, a =>
    match rs.find? fun r => decide (r.1 ≤ a) && decide (a < r.1 + r.2) with
    | some r => coveredTo rs n (r.1 + r.2)
    | none => a

/-- Whether [a, a + n) is covered. -/
def covered (rs : List (Nat × Nat)) (a n : Nat) : Bool := decide (a + n ≤ coveredTo rs rs.length a)

/-- A range is added, joined to the one it continues. -/
def addRange (rs : List (Nat × Nat)) (r : Nat × Nat) : List (Nat × Nat) :=
  match rs with
  | [] => [r]
  | x :: xs => if x.1 + x.2 = r.1 then (x.1, x.2 + r.2) :: xs else x :: addRange xs r

/-! ## Instances -/

def bumpColl (i : Nat) (d : Dev) : Dev := { d with coll.counts := bumpTable d.coll.counts i 1 }

/-- DETAIL of the COLL events. -/
def collDetail (cctx cseg : Nat) : Nat := cctx + cseg * 2 ^ 12

/-- An instance of a segment at a held rank. -/
def sameInst (t rank cctx cseg : Nat) (x : CollInst) : Bool :=
  x.tenant == t && x.rank == rank && x.cctx == cctx && x.cseg == cseg
def findInst (t rank cctx cseg : Nat) (d : Dev) : Option CollInst := d.coll.insts.find? (sameInst t rank cctx cseg)

/-- An instance is put in place of the one it continues. -/
def putInst (x : CollInst) (d : Dev) : Dev :=
  { d with coll.insts := d.coll.insts.filter (fun y => !sameInst x.tenant x.rank x.cctx x.cseg y) ++ [x] }
def dropInst (t rank cctx cseg : Nat) (d : Dev) : Dev :=
  { d with coll.insts := d.coll.insts.filter fun y => !sameInst t rank cctx cseg y }

/-- align64. -/
def align64 (n : Nat) : Nat := roundUp n 64

/-- The staging slot, partial area and result of segment `s` (R296). -/
def Ctx.slot (c : Ctx) (s : Nat) : Nat := c.stage + s * align64 (c.segb + c.psz)
def Ctx.partial_ (c : Ctx) (s : Nat) : Nat := c.slot s + c.segb
def Ctx.res (c : Ctx) (s : Nat) : Nat := c.result + s * align64 c.rsz

/-- An access of a segment that fails abandons it (Table 13.9). -/
def abandonSegment (m : Met) (t rank cctx cseg : Nat) (d : Dev) : Dev :=
  raiseMet m (srcNi 0) t (dropInst t rank cctx cseg d)

/-! ## Handing in (R295, R296) -/

/-- What a hand-in meets before any byte moves. -/
inductive HandIn where
  | ok
  | config
  | notMember
  | overflow
  deriving DecidableEq, Repr

/-- The checks of a hand-in of `total` bytes of format `dfmt` (16 for bytes of no stated format). `index` says
that a word uses index mode; a barrier is handed in only by HANDIN (`chain`). -/
def handInCheck (t ctx cctx cseg total dfmt : Nat) (index chain : Bool) (d : Dev) : HandIn :=
  match liveCtx t cctx d with
  | none => .config
  | some c =>
    let rank := ctxRank t ctx d
    match c.posOf rank with
    | none => .notMember
    | some p =>
      if c.nseg ≤ cseg ∨ total ≠ c.segb ∨ (c.kind = 5 ∧ chain = false) ∨ (c.kind = 3 ∧ p ≠ c.root) ∨
          (c.kind ≤ 1 ∧ dfmt ≠ 16 ∧ dfmt ≠ c.etype) ∨ (dfmt ≠ 16 ∧ isMx dfmt) ∨ (index ∧ (c.kind < 2 ∨ 4 < c.kind)) then .config
      else
        match findInst t rank cctx cseg d with
        | some x => if x.begun || decide (0 < x.accepted) then .overflow else .ok
        | none => .ok

/-- The event of a hand-in that is not accepted; COLL_OVERFLOW is counted. -/
def handInEvent (h : HandIn) (configEvent source t cctx cseg : Nat) (d : Dev) : Dev :=
  match h with
  | .ok => d
  | .config => faultRun 1 configEvent source t d
  | .notMember => faultRun 1 evCollNotMember (srcNi 0) t d (collDetail cctx cseg)
  | .overflow => faultRun 2 evCollOverflow (srcNi 0) t (bumpColl 4 d) (collDetail cctx cseg)

/-- The instance a contribution belongs to. -/
def instOrNew (t rank cctx cseg pos : Nat) (d : Dev) : CollInst :=
  (findInst t rank cctx cseg d).getD { tenant := t, rank := rank, pos := pos, cctx := cctx, cseg := cseg }

/-- Bytes of a contribution are accepted at offset `off`: written to the local area of the staging slot. With
the last of SEGB bytes the segment is handed in. -/
def handInBytes (t ctx cctx cseg off : Nat) (bs : Bytes) (d : Dev) : Met × Dev :=
  match liveCtx t cctx d with
  | none => (.ok, d)
  | some c =>
    let rank := ctxRank t ctx d
    match vaWrite niTlb t ctx (c.slot cseg + off) false bs d with
    | (m, d1) =>
      if m.done then
        let x := instOrNew t rank cctx cseg ((c.posOf rank).getD 0) d1
        let n := x.accepted + bs.length
        (m, putInst { x with accepted := n, begun := x.begun || decide (c.segb ≤ n),
                             runFrame := if decide (c.segb ≤ n) && !x.begun then tagFrame t ctx d1 else x.runFrame } d1)
      else (m, d1)

/-! ## Arrivals (R297, R311, R330) -/

/-- Whether a run has mirrored regions, so that a byte may arrive again with its value (R330). -/
def recoveryArrival (t ctx va : Nat) (bs : Bytes) (d : Dev) : Bool :=
  mirrored t d &&
    (let r := vaRead niTlb t ctx va bs.length d
     r.1.done && r.2.1 == bs)

/-- Where an offset of the exchange space lies. -/
def exchangeVa (c : Ctx) (cseg off : Nat) : Nat := if off < c.psz then c.partial_ cseg + off else c.res cseg + (off - c.psz)

/-- The exchange-space ranges of [off, off + n), cut where partials end. -/
def exchangeParts (c : Ctx) (off n : Nat) : List (Nat × Nat) :=
  if off < c.psz ∧ c.psz < off + n then [(off, c.psz - off), (c.psz, off + n - c.psz)] else [(off, n)]

/-- Arriving bytes are written, part by part. -/
def writeExchange (t ctx : Nat) (c : Ctx) (cseg off : Nat) (bs : Bytes) (d : Dev) : Met × Dev :=
  (exchangeParts c off bs.length).foldl (fun acc p =>
    if acc.1.done then vaWrite niTlb t ctx (exchangeVa c cseg p.1) true ((bs.drop (p.1 - off)).take p.2) acc.2 else acc) (.ok, d)

/-- The payload of an arrival record: context, segment, length, offset (or the position a barrier heard), position. -/
def arrivalItem (cctx cseg pos off n : Nat) : Bytes :=
  leBytes 2 cctx ++ leBytes 2 cseg ++ leBytes 2 n ++ leBytes 4 off ++ leBytes 4 pos

/-- The length that marks the end of an instance in place of an arrival. -/
def instanceEnd : Nat := 0xFFFF

/-- An arrival at a held position is a control-state item (Table 14.4, item 2). -/
def mirrorArrival (t rank cctx cseg pos off n : Nat) (d : Dev) : Dev :=
  mirrorItem t (rankCtx t rank d) 2 true (arrivalItem cctx cseg pos off n) d

/-- A scheduled-data packet at its rank. -/
def sdataArrives (p : Packet) (d0 : Dev) : Dev :=
    let b := blockOf p
    let cctx := bitsOf b 0 12
    let cseg := bitsOf b 12 16
    let off := bitsOf b 28 32
    let bs := p.payload.drop 16
    let t := p.tenant
    let reject (d : Dev) : Dev := raiseT 4 evCollReject (srcNi 0) t (bumpColl 3 d) (collDetail cctx cseg)
    if (heldRanks t d0).isEmpty then reject d0
    else if (getRun t d0).state == .halted && rankCtx t p.drank d0 == 0 then d0
    else
      match liveCtx t cctx d0 with
      | none => reject d0
      | some c =>
        match c.posOf p.srank, c.posOf p.drank with
        | some sp, some pos =>
          let ctx := rankCtx t p.drank d0
          if p.mc && p.srank == p.drank then d0
          else if c.nseg ≤ cseg then reject d0
          else
            let x := instOrNew t p.drank cctx cseg pos d0
            let first := !x.begun && c.kind == 3 && pos != c.root
            let x1 := if first then { x with begun := true, runFrame := (getRun t d0).index } else x
            let overflow (d : Dev) : Dev := faultRun 2 evCollOverflow (srcNi 0) t (bumpColl 4 d) (collDetail cctx cseg)
            if c.kind = 5 then
              mirrorArrival t p.drank cctx cseg pos sp 0 (putInst { x1 with heard := if x1.heard.contains sp then x1.heard else x1.heard ++ [sp] } d0)
            else if c.psz + c.rsz < off + bs.length then overflow (putInst x1 d0)
            else if x1.arrived.any (fun r => overlaps r (off, bs.length)) then
              if (exchangeParts c off bs.length).all fun q =>
                  recoveryArrival t ctx (exchangeVa c cseg q.1) ((bs.drop (q.1 - off)).take q.2) d0 then
                { d0 with twin.counts := bumpTable d0.twin.counts 7 1 }
              else overflow (putInst x1 d0)
            else
              match writeExchange t ctx c cseg off bs d0 with
              | (.wait, d1) => putBack p d1
              | (m, d1) =>
                if m.done then
                  mirrorArrival t p.drank cctx cseg pos off bs.length (putInst { x1 with arrived := addRange x1.arrived (off, bs.length) } d1)
                else abandonSegment m t p.drank cctx cseg d1
        | _, _ => reject d0

/-- SDATA (R297): the first scheduled-data packet that waits is placed. -/
def sdata (d : Dev) : Dev :=
  match takeLocal (fun p => p.typ == 4) d with
  | none => d
  | some (p, d0) => forRank (takenRank p.tenant p.drank d0) (sdataArrives p) d0

/-! ## Steps (R298 to R300, Table 13.5) -/

/-- What one step asks: the exchange ranges that must have arrived, what is written to the own result (local
result offset, and the send source), and what is sent to a position (or to the group). -/
structure StepPlan where
  needs : List (Nat × Nat) := []
  hears : List Nat := []
  own : List (Nat × Nat × Nat) := []
  sends : List (Nat × Nat × Nat) := []
  adds : Bool := false
  deriving DecidableEq, Repr

/-- The group, as the destination of a multicast. -/
def toGroup : Nat := 65536

/-- The halves of a ring segment: offset, length, reversed. -/
def Ctx.halves (c : Ctx) : List (Nat × Nat × Bool) :=
  if c.alg = 1 then [(0, c.segb / 2, false), (c.segb / 2, c.segb / 2, true)] else [(0, c.segb, false)]

/-- A position of a half, and back. -/
def Ctx.flip (c : Ctx) (rev : Bool) (p : Nat) : Nat := if rev then c.n - 1 - p else p

/-- Step `k` of a ring reduction of one half. `own` names a result offset, the exchange offset of its value, and
a length. -/
def ringPlan (c : Ctx) (p lo len : Nat) (rev : Bool) (k : Nat) : StepPlan :=
  let n := c.n
  let b := len / n
  let pp := c.flip rev p
  let dest := c.flip rev ((pp + 1) % n)
  if k + 1 < n then
    let off := lo + (pp + 2 * n - 1 - k) % n * b
    { needs := if k = 0 then [] else [(off, b)], sends := [(dest, off, b)], adds := decide (0 < k) }
  else if k + 1 = n then
    let off := lo + pp * b
    { needs := if n = 1 then [] else [(off, b)]
      own := [(if c.kind = 1 then 0 else off, off, b)]
      sends := if c.kind = 1 ∨ n = 1 then [] else [(dest, c.psz + off, b)]
      adds := decide (1 < n) }
  else
    let off := lo + (pp + 2 * n - (k - (n - 1))) % n * b
    { needs := [(c.psz + off, b)], sends := [(dest, c.psz + off, b)] }

/-- The levels of the tree at which position `p` receives, below level `l`. -/
def treeLevels (n p l : Nat) : List Nat :=
  (List.range l).filter fun j => decide (p % 2 ^ (j + 1) = 0) && decide (p + 2 ^ j < n)

/-- The level at which position `p` of a tree sends: the lowest set bit of p; the top for position 0. -/
def sendLevel (n p : Nat) : Nat :=
  ((List.range (ceilLog2 n)).find? fun l => decide (p % 2 ^ (l + 1) = 2 ^ l)).getD (ceilLog2 n)

/-- The plan of step `k` of half `h` at position `p`, none where there is no such step. -/
def stepPlan (c : Ctx) (p h k : Nat) : Option StepPlan :=
  let n := c.n
  match c.kind, c.alg with
  | 0, 2 =>
    if h = 0 ∧ k = 0 then
      let l := sendLevel n p
      let needs := (treeLevels n p l).map fun j => (j * c.segb, c.segb)
      some (if p = 0 then { needs := needs, own := [(0, c.psz, c.segb)], sends := [(toGroup, c.psz, c.segb)], adds := !needs.isEmpty }
            else { needs := needs, sends := [(p - 2 ^ l, l * c.segb, c.segb)], adds := !needs.isEmpty })
    else none
  | 0, _ =>
    match c.halves[h]? with
    | some (lo, len, rev) => if k < max 1 (2 * n - 2) then some (ringPlan c p lo len rev k) else none
    | none => none
  | 1, _ => if h = 0 ∧ k < n then some (ringPlan c p 0 c.segb false k) else none
  | 2, _ =>
    if h = 0 ∧ k < max 1 (n - 1) then
      let blk := (p + n - k) % n
      some { needs := if k = 0 then [] else [(blk * c.segb, c.segb)]
             own := if k = 0 then [(p * c.segb, p * c.segb, c.segb)] else []
             sends := if n = 1 then [] else [((p + 1) % n, blk * c.segb, c.segb)] }
    else none
  | 3, 0 =>
    if h = 0 ∧ k = 0 then
      if p = c.root then some { own := [(0, 0, c.segb)], sends := if n = 1 then [] else [((p + 1) % n, 0, c.segb)] }
      else if (p + 1) % n = c.root then none
      else some { needs := [(0, c.segb)], sends := [((p + 1) % n, 0, c.segb)] }
    else none
  | 3, _ => if h = 0 ∧ k = 0 ∧ p = c.root then some { own := [(0, 0, c.segb)], sends := [(toGroup, 0, c.segb)] } else none
  | 4, _ =>
    if h = 0 ∧ k < max 1 (n - 1) then
      let b := c.segb / n
      some { own := if k = 0 then [(p * b, p * b, b)] else [], sends := if n = 1 then [] else [((p + 1 + k) % n, p * b, b)] }
    else none
  | _, _ =>
    if h = 0 ∧ k = 0 then
      some (if p = 0 then { hears := (List.range (n - 1)).map (· + 1), sends := [(toGroup, 0, 0)] } else { sends := [(0, 0, 0)] })
    else none

/-- A fold of byte strings with ⊕, the running partial on the left. -/
def foldBytes (c : Ctx) (x : Bytes) (ps : List Bytes) : Bytes := ps.foldl (fun a p => stepBytes c.rop c.etype a p) x

/-- Reads gathered one after another. -/
def readMany (t ctx : Nat) (l : List (Nat × Nat)) (d : Dev) : Met × List Bytes × Dev :=
  l.foldl (fun acc p =>
    if acc.1.done then
      let r := vaFetch niTlb t ctx p.1 p.2 acc.2.2
      (if r.1.done then acc.1 else r.1, acc.2.1 ++ [r.2.1], r.2.2)
    else acc) (.ok, [], d)

/-- The bytes a member sends or keeps for [off, off + len) of the exchange space of `dest`: what R299 gives, from
the contribution, the arrived partials and the result. -/
def sendBytes (t ctx : Nat) (c : Ctx) (p cseg dest off len : Nat) (d : Dev) : Met × Bytes × Dev :=
  let x := c.slot cseg
  let part := c.partial_ cseg
  match c.kind, c.alg with
  | 5, _ => (.ok, [], d)
  | 4, _ => let r := readMany t ctx [(x + (if dest = toGroup then p else dest) * len, len)] d; (r.1, r.2.1.flatten, r.2.2)
  | 3, _ =>
    let r := readMany t ctx [(if p = c.root then x + off else c.res cseg + off, len)] d
    (r.1, r.2.1.flatten, r.2.2)
  | 2, _ =>
    let r := readMany t ctx [(if off = p * c.segb then x else c.res cseg + off, len)] d
    (r.1, r.2.1.flatten, r.2.2)
  | 0, 2 =>
    let r := readMany t ctx ((x, len) :: (treeLevels c.n p (sendLevel c.n p)).map fun j => (part + j * c.segb, len)) d
    (r.1, foldBytes c (r.2.1.headD []) (r.2.1.drop 1), r.2.2)
  | _, _ =>
    if c.psz ≤ off then
      let r := readMany t ctx [(c.res cseg + (off - c.psz), len)] d
      (r.1, r.2.1.flatten, r.2.2)
    else
      let half := (c.halves.find? fun h => decide (h.1 ≤ off) && decide (off < h.1 + h.2.1)).getD (0, c.segb, false)
      let j := (off - half.1) / (half.2.1 / c.n)
      let pp := c.flip half.2.2 p
      if j = (pp + c.n - 1) % c.n then
        let r := readMany t ctx [(x + off, len)] d
        (r.1, r.2.1.flatten, r.2.2)
      else
        let r := readMany t ctx [(part + off, len), (x + off, len)] d
        (r.1, stepBytes c.rop c.etype (r.2.1.headD []) (r.2.1.getD 1 []), r.2.2)

/-- The SDATA packets of one chunk: 224 data bytes each, in ascending offset; a barrier's is empty. -/
def sdataPackets (t rank : Nat) (c : Ctx) (cseg dest off : Nat) (bs : Bytes) (d : Dev) : List Packet :=
  let cls := slotClass t c.cctx d
  (List.range (max 1 ((bs.length + 223) / 224))).map fun i =>
    { typ := 4, cls := cls, tenant := t, srank := rank, window := c.cctx + 1
      drank := if dest = toGroup then 0 else c.rankAt dest
      mc := decide (dest = toGroup), dst := if dest = toGroup then c.group * 64 else 0
      payload := leBytes 16 (c.cctx + cseg * 2 ^ 12 + (off + 224 * i) * 2 ^ 28) ++ (bs.drop (224 * i)).take 224 }

/-- The adder unit that adds: the first that is not fenced. -/
def firstUnit (d : Dev) : Nat := ((List.range 4).find? fun u => !bitOf d.coll.fence u).getD 0

/-- The adder checks of a step (R308, R309): `fails` checks in a row find a mismatch. Two on one unit fence it;
one is repaired by the repeat. The flag says whether a unit was left to finish. -/
def adderChecks : Nat → Dev → Bool × Dev
  | 0, d => (true, d)
  | 1, d => (true, raise 0 evReduceRecompute (srcNi (firstUnit d)) (bumpColl 0 d))
  | n + 2, d =>
    match (List.range 4).find? fun u => !bitOf d.coll.fence u with
    | none => (false, d)
    | some u =>
      let d1 := raise 4 evReduceResidue (srcNi u) (bumpColl 1 { d with coll.fence := d.coll.fence + 2 ^ u })
      if d1.coll.fence = 15 then (false, raiseFatal evReduceFencedAll (srcNi u) d1) else adderChecks n d1

/-- One planned step is run: the own result is written, the chunks leave. -/
def runStep (x : CollInst) (c : Ctx) (h : Nat) (pl : StepPlan) (d : Dev) : Dev :=
  let ctx := rankCtx x.tenant x.rank d
  let own := pl.own.foldl (fun acc o =>
    if acc.1.done then
      let v := sendBytes x.tenant ctx c x.pos x.cseg toGroup o.2.1 o.2.2 acc.2
      if v.1.done then vaWrite niTlb x.tenant ctx (c.res x.cseg + o.1) false v.2.1 v.2.2 else (v.1, v.2.2)
    else acc) (Met.ok, d)
  let sent := pl.sends.foldl (fun acc o =>
    if acc.1.done then
      let v := sendBytes x.tenant ctx c x.pos x.cseg o.1 o.2.1 o.2.2 acc.2
      if v.1.done then
        (acc.1, (sdataPackets x.tenant x.rank c x.cseg o.1 o.2.1 v.2.1 v.2.2).foldl (fun d p => inject p d) v.2.2)
      else (v.1, v.2.2)
    else acc) own
  match sent with
  | (.wait, d1) => d1
  | (m, d1) =>
    if m.done then
      putInst { x with
        stepA := if h = 0 then x.stepA + 1 else x.stepA, stepB := if h = 0 then x.stepB else x.stepB + 1
        sent := x.sent ++ pl.sends
        arrived := pl.own.foldl (fun r o => addRange r (c.psz + o.1, o.2.2)) x.arrived } d1
    else abandonSegment m x.tenant x.rank x.cctx x.cseg d1

/-- Whether a step's operands are complete. -/
def stepReady (x : CollInst) (pl : StepPlan) : Bool :=
  x.begun && pl.needs.all (fun r => covered x.arrived r.1 r.2) && pl.hears.all (x.heard.contains ·)

/-- An effect of an instance that began in run frame `r`: its mirror records carry that frame. -/
def inFrame (ctx r : Nat) (f : Dev → Dev) (d : Dev) : Dev :=
  tagWork [] (forRank (ctx == 1) f (tagWork [(ctx, r)] d))

/-- COLLECTIVE_STEP: the next step of a segment at a held rank whose operands are complete; `fails` counts the
residue checks in a row that find a mismatch; an armed error adds one. -/
def collectiveStep (t rank cctx cseg fails : Nat) (d : Dev) : Dev :=
  match findInst t rank cctx cseg d, liveCtx t cctx d with
  | some x, some c =>
    let next (h : Nat) : Option StepPlan := (stepPlan c x.pos h (if h = 0 then x.stepA else x.stepB)).filter (stepReady x)
    match (next 0).map ((0, ·)) <|> (next 1).map ((1, ·)) with
    | none => d
    | some (h, pl) =>
      let a := if pl.adds && c.rop == 0 then
          let e := takeArmed 3 (firstUnit d) d
          adderChecks (if e.1 then fails + 1 else fails) e.2
        else (true, d)
      if a.1 then inFrame (rankCtx t rank d) x.runFrame (runStep x c h pl) a.2 else a.2
  | _, _ => d

/-- Whether a packet of a segment has not yet left the network interface. -/
def unsent (t rank cctx cseg : Nat) (d : Dev) : Bool :=
  (d.net.inject ++ d.net.held).any fun p => p.typ == 4 && p.tenant == t && p.srank == rank &&
    bitsOf (blockOf p) 0 12 == cctx && bitsOf (blockOf p) 12 16 == cseg

/-- Whether a member has completed a segment (R302). -/
def segmentDone (x : CollInst) (c : Ctx) (d : Dev) : Bool :=
  x.begun && (stepPlan c x.pos 0 x.stepA).isNone && (stepPlan c x.pos 1 x.stepB).isNone &&
  (if c.kind = 5 then (x.pos == 0 || x.heard.contains 0) else covered x.arrived c.psz c.rsz) &&
  !unsent x.tenant x.rank x.cctx x.cseg d && !syncPending x.tenant (c.res x.cseg) c.rsz d

/-- COLLECTIVE_SEGMENT_COMPLETE: DONE goes up by 1 and the instance ends. -/
def collectiveSegmentComplete (t rank cctx cseg : Nat) (d : Dev) : Dev :=
  match findInst t rank cctx cseg d, liveCtx t cctx d with
  | some x, some c =>
    if segmentDone x c d then
      inFrame (rankCtx t rank d) x.runFrame (fun d0 =>
        let d1 := mirrorItem t (rankCtx t rank d) 2 false (arrivalItem cctx cseg x.pos 0 instanceEnd)
          (bumpColl 2 (dropInst t rank cctx cseg d0))
        if ownsPool t c.doneCtr d1 then
          match poolAdd c.doneCtr 1 d1 with
          | (.applied, d2) => d2
          | (.wrapped, d2) => faultRun 1 evCounterWrap (srcNi 0) t d2
        else faultRun 1 evCounterRange (srcNi 0) t d1) d
    else d
  | _, _ => d

/-- R330: an incomplete instance resends what it has sent to a position, and every multicast. -/
def refreshInst (x : CollInst) (positions : List Nat) (d : Dev) : Dev :=
  match liveCtx x.tenant x.cctx d with
  | none => d
  | some c =>
    (x.sent.filter fun o => o.1 == toGroup || positions.contains o.1).foldl (fun d o =>
      let v := sendBytes x.tenant (rankCtx x.tenant x.rank d) c x.pos x.cseg o.1 o.2.1 o.2.2 d
      if v.1.done then (sdataPackets x.tenant x.rank c x.cseg o.1 o.2.1 v.2.1 v.2.2).foldl (fun d p => inject p d) v.2.2
      else v.2.2) d

/-- The alias that a bank gives a coordinate. -/
def aliasIn (b c : Nat) (d : Dev) : Nat :=
  match (List.range 16).find? fun i =>
      let a := dictGet (0x4801 + b) (0x10 + i) d
      bitOf a 36 && bitsOf a 0 18 == c with
  | some i => bitsOf (dictGet (0x4801 + b) (0x10 + i) d) 18 18
  | none => c

/-- The epoch refresh at a switch of the injection epoch (R330). -/
def epochRefresh (d : Dev) : Dev :=
  d.coll.insts.foldl (fun d x =>
    match liveCtx x.tenant x.cctx d with
    | none => d
    | some c =>
      let moved := (List.range c.n).filter fun p =>
        let e := Sparse.get (2 ^ 32) d.net.rankCache (rankKey x.tenant (c.rankAt p))
        e != 2 ^ 32 && aliasIn 0 (bitsOf e 0 18) d != aliasIn 1 (bitsOf e 0 18) d
      if moved.isEmpty then d else refreshInst x moved d) d

/-! ## Chains (R304 to R306) -/

/-- A chain instance starts, or waits where 256 run. -/
def startChain (t rank : Nat) (body : Body) (entry : Bytes) (window r : Nat) (auto : Bool) (word : Option (Nat × Nat))
    (d : Dev) : Dev :=
  { d with
    coll.nextChain := d.coll.nextChain + 1
    coll.chains := d.coll.chains ++ [{
      number := d.coll.nextChain, tenant := t, rank := rank, body := body.off, first := fieldAt entry 0 4,
      count := fieldAt entry 4 2, window := window, op := 0, r := r, auto := auto, word := word, waiting := [],
      late := false }] }

/-- A start-chain word at the head of its queue. -/
def startChainHead (tile : Nat) (q : QWord) (d : Dev) : Dev :=
    if (wOp q.word = 3 ∨ 3 < wOp q.word) ∧ enginesRun tile d then
      if niFieldBad q.word then wordField tile 6 d
      else
        match headWait tile q d with
        | (false, d1) => d1
        | (true, d1) =>
          let r := if q.ctx = 0 then (getRun q.tenant d1).index else tagFrame q.tenant q.ctx d1
          match programAt q.tenant q.ctx r d1 with
          | none => rejectHead tile 6 1 evChainConfig d1
          | some (body, bs) =>
            let i := wField q.word 44 16
            if bodyChains bs body.slots ≤ i then rejectHead tile 6 1 evChainConfig d1
            else if 256 ≤ d1.coll.chains.length then d1
            else
              startChain q.tenant (ctxRank q.tenant q.ctx d1) body (chainAt bs body.slots i) (wField q.word 32 12)
                r false (some (tile, q.number)) (dispatchHead tile 6 .running d1)
    else d

/-- NI_START_CHAIN: an OP 3 word at the head of a tile's network-interface queue. -/
def niStartChain (tile : Nat) (d : Dev) : Dev :=
  match headOf tile 6 d with
  | none => d
  | some q => forRank (q.ctx == 1) (startChainHead tile q) d

/-- Chain `i` of the program of run frame `r` of a rank context starts by itself; beyond 256 it waits. -/
def autoStart (t ctx r i : Nat) (d : Dev) : Dev :=
  match programAt t ctx r d with
  | none => d
  | some (body, bs) =>
    let e := chainAt bs body.slots i
    if 256 ≤ d.coll.chains.length then { d with coll.waitingStarts := d.coll.waitingStarts ++ [(t, ctx, r, i)] }
    else startChain t (ctxRank t ctx d) body e (bitsOf (fieldAt e 8 2) 0 12) r true none d

/-- CHAIN_AUTO_START: every chain marked AUTO in the program of run frame `r` starts (R304). -/
def autoStartAll (t ctx r : Nat) (d : Dev) : Dev :=
  match programAt t ctx r d with
  | none => d
  | some (body, bs) =>
    ((List.range (bodyChains bs body.slots)).filter fun i => bitOf (fieldAt (chainAt bs body.slots i) 6 2) 0).foldl
      (fun d i => autoStart t ctx r i d) d

/-- Automatic starts that waited go ahead while fewer than 256 run. -/
def autoStarts (d : Dev) : Dev :=
  match d.coll.waitingStarts with
  | [] => d
  | (t, ctx, r, i) :: rest =>
    if 256 ≤ d.coll.chains.length then d else autoStart t ctx r i { d with coll.waitingStarts := rest }

/-- Whether an operation keeps Table 13.7 and names counters its tenant owns (R306). -/
def chainOpGood (t : Nat) (b : Bytes) (d : Dev) : Bool :=
  let act := fieldAt b 0 1
  let trig := fieldAt b 2 2
  let sig := fieldAt b 6 2
  let c := fieldAt b 0x0C 4
  let v := fieldAt b 0x10 8
  let w := fieldAt b 0x18 8
  decide (act ≤ 4) && decide (fieldAt b 1 1 < 2) && !bitOf trig 14 && !bitOf sig 14 &&
  (!bitOf trig 15 || ownsPool t (bitsOf trig 0 14) d) && (!bitOf sig 15 || ownsPool t (bitsOf sig 0 14) d) &&
  (match act with
   | 0 => decide (c < 2 ^ 20) && decide (v < 2 ^ 59) && decide (w < 2 ^ 48)
   | 1 => decide (c < 2 ^ 20) && decide (v < 2 ^ 14) && decide (w < 2 ^ 32) && decide (0 < w)
   | 2 => decide (c < 2 ^ 28) && decide (v < 2 ^ 48) && w == 0
   | 3 => c == 0 && decide (v < 2 ^ 14) && decide (w < 2 ^ 32) && decide (0 < w) && ownsPool t (bitsOf v 0 14) d
   | _ => decide (c < 2 ^ 12) && decide (v < 2 ^ 59) && decide (w < 2 ^ 48))

/-- CHAIN_CONFIG: the instance is abandoned. -/
def chainConfig (x : ChainInst) (d : Dev) : Dev := abandonChain x.number (faultRun 1 evChainConfig (srcNi 0) x.tenant d)

/-- Multicast puts of an instance whose last packet has left are complete (R251). -/
def settleMputs (x : ChainInst) (d : Dev) : Dev :=
  x.waiting.foldl (fun d op =>
    let r := chainOpBytes x op d
    let left := (r.2.2.net.inject ++ r.2.2.net.held).any fun p => p.typ == 0 && p.mc && p.tenant == x.tenant &&
      p.srank == x.rank && groupOf p == bitsOf (fieldAt r.2.1 0x0C 4) 0 12
    if fieldAt r.2.1 0 1 = 4 ∧ left = false then chainOpDone x.number op r.2.2 else r.2.2) d

/-- An operation is issued: the instance goes on, and awaits it where it is not complete at once. -/
def chainIssued (number : Nat) (await : Bool) (d : Dev) : Dev :=
  { d with coll.chains := d.coll.chains.map fun y => if y.number = number then
      { y with op := y.op + 1, waiting := if await then y.waiting ++ [y.op] else y.waiting } else y }

/-- The action of an operation whose time has come. -/
def chainAct (x : ChainInst) (act : Nat) (b : Bytes) (d : Dev) : Dev :=
  let t := x.tenant
  let ctx := rankCtx t x.rank d
  let v := fieldAt b 0x10 8
  let w := fieldAt b 0x18 8
  let c := fieldAt b 0x0C 4
  let tracked (e : Track) : Dev :=
    match dispatchOp e ctx d with
    | (.wait, d1) => d1
    | (.sent, d1) => chainIssued x.number true d1
    | (.notSent s, d1) => reportOp e.origin t e.rank s 0 (chainIssued x.number true d1)
  match act with
  | 0 => tracked { tenant := t, srank := x.rank, rank := c, kind := 0, side := 1, local_ := bitsOf v 0 48,
                   remote := w, len := (bitsOf v 48 11 + 1) * 64, window := x.window + 1, origin := .chain x.number x.op }
  | 1 => tracked { tenant := t, srank := x.rank, rank := c, kind := 2, counter := v, value := w, origin := .chain x.number x.op }
  | 2 =>
    let cctx := bitsOf c 0 12
    let cseg := bitsOf c 12 16
    match liveCtx t cctx d with
    | none => chainConfig x d
    | some k =>
      match handInCheck t ctx cctx cseg k.segb 16 false true d with
      | .ok =>
        (match vaFetch niTlb t ctx (bitsOf v 0 48) k.segb d with
        | (.wait, _, d1) => d1
        | (m, bs, d1) =>
          if m.done then
            match handInBytes t ctx cctx cseg 0 bs d1 with
            | (.wait, d2) => d2
            | (m2, d2) =>
              if m2.done then chainOpDone x.number x.op (chainIssued x.number true d2)
              else abandonChain x.number (abandonSegment m2 t x.rank cctx cseg d2)
          else abandonChain x.number (abandonSegment m t x.rank cctx cseg d1))
      | .config => chainConfig x d
      | h => abandonChain x.number (handInEvent h evChainConfig (srcNi 0) t cctx cseg d)
  | 3 =>
    (match poolAdd (bitsOf v 0 14) w d with
    | (.applied, d1) => chainOpDone x.number x.op (chainIssued x.number true d1)
    | (.wrapped, d1) => abandonChain x.number (faultRun 1 evCounterWrap (srcNi 0) t d1))
  | _ =>
    let n := (bitsOf v 48 11 + 1) * 64
    match vaFetch niTlb t ctx (bitsOf v 0 48) n d with
    | (.wait, _, d1) => d1
    | (m, bs, d1) =>
      if m.done then
        let k := (n + 223) / 224
        let cls := slotClass t x.window d1
        let ps : List Packet := (List.range k).map fun i =>
          { typ := 0, cls := cls, tenant := t, srank := x.rank, mc := true, dst := bitsOf c 0 12 * 64, window := x.window + 1
            payload := leBytes 16 ((if i + 1 = k then 2 ^ 52 else 0) + (w + 224 * i) % 2 ^ 48 * 2 ^ 64 + (k - 1) * 2 ^ 112) ++
              (bs.drop (224 * i)).take 224 }
        chainIssued x.number true (ps.foldl (fun d p => inject p d) d1)
      else abandonChain x.number (raiseMet m (srcNi 0) t d1)

/-- A triggered operation of action `act` of instance `number`: it begins when the earlier ones allow it and its
trigger is there (R305). An operation that breaks R306 is met by any of these commands. -/
def chainOpNow (act number : Nat) (d : Dev) : Dev :=
  match d.coll.chains.find? fun x => x.number == number with
  | none => d
  | some x0 =>
    let d0 := settleMputs x0 d
    match d0.coll.chains.find? fun x => x.number == number with
    | none => d0
    | some x =>
      if x.count ≤ x.op then d0
      else
        let r := chainOpBytes x x.op d0
        if r.1.done = false then
          (if r.1 = .wait then r.2.2 else abandonChain number (raiseMet r.1 (srcNi 0) x.tenant r.2.2))
        else
          let b := r.2.1
          let a := fieldAt b 0 1
          if a ≠ act ∧ a ≤ 4 then r.2.2
          else if bitOf (fieldAt b 1 1) 0 && !x.waiting.isEmpty && chainOpGood x.tenant b r.2.2 then r.2.2
          else if chainOpGood x.tenant b r.2.2 = false then chainConfig x r.2.2
          else if bitOf (fieldAt b 2 2) 15 then
            match poolWait (.chain number) (bitsOf (fieldAt b 2 2) 0 14) (fieldAt b 8 4 + fieldAt b 4 2 * x.r) r.2.2 with
            | (true, d1) => chainAct x a b d1
            | (false, d1) => d1
          else chainAct x a b r.2.2

/-- A chain row, in the run frame of its instance. -/
def chainOp (act number : Nat) (d : Dev) : Dev :=
  match d.coll.chains.find? fun x => x.number == number with
  | none => d
  | some x => inFrame (rankCtx x.tenant x.rank d) x.r (chainOpNow act number) d

/-- CHAIN_INSTANCE_END: every operation has been issued and has completed; an OP 3 word retires, and an
automatic start that waited goes ahead. -/
def chainInstanceEnd (number : Nat) (d : Dev) : Dev :=
  match d.coll.chains.find? fun x => x.number == number with
  | none => d
  | some x0 =>
    let d0 := settleMputs x0 d
    match d0.coll.chains.find? fun x => x.number == number with
    | none => d0
    | some x =>
      if x.op = x.count ∧ x.waiting.isEmpty then
        autoStarts (chainWordDone x true { d0 with coll.chains := d0.coll.chains.filter fun y => y.number != number })
      else d0

/-- R311: the segments and chain instances of a tenant's own rank stop. -/
def stopCollectives (t : Nat) (d : Dev) : Dev :=
  let mine := d.coll.chains.filter fun x => x.tenant == t && rankCtx t x.rank d == 0
  mine.foldl (fun d x => abandonChain x.number d)
    { d with coll.insts := d.coll.insts.filter fun x => !(x.tenant == t && rankCtx t x.rank d == 0)
             coll.waitingStarts := d.coll.waitingStarts.filter fun w => w.1 != t }

/-! ## Slot windows (R239) -/

/-- SLOT_WINDOW_OPEN: a window of the context is open now. -/
def slotWindowOpen (t cctx : Nat) (d : Dev) : Dev := if slotNow t cctx d then slotOpen t cctx d else d

/-- SLOT_WINDOW_CLOSE: no window of the context is open now; after its last window unsent packets move. -/
def slotWindowClose (t cctx : Nat) (d : Dev) : Dev :=
  if slotNow t cctx d then d else slotClose t cctx (!slotLeft t cctx d) d

/-! ## The commands -/

def tenantOk (t : Nat) : Bool := decide (t < 1024)

def execSdata (s : State) : Host.Outcome State Fault Refusal := onDev true sdata s
def execCollectiveStep (tenant rank cctx cseg fails : Nat) (s : State) : Host.Outcome State Fault Refusal :=
  onDev (tenantOk tenant) (collectiveStep tenant rank cctx cseg fails) s
def execCollectiveSegmentComplete (tenant rank cctx cseg : Nat) (s : State) : Host.Outcome State Fault Refusal :=
  onDev (tenantOk tenant) (collectiveSegmentComplete tenant rank cctx cseg) s
def execNiStartChain (tile : Nat) (s : State) : Host.Outcome State Fault Refusal := onDev (niOk tile) (asTile tile (niStartChain tile)) s
def execChainPut (chain : Nat) (s : State) : Host.Outcome State Fault Refusal := onDev true (chainOp 0 chain) s
def execChainAdd (chain : Nat) (s : State) : Host.Outcome State Fault Refusal := onDev true (chainOp 1 chain) s
def execChainHandin (chain : Nat) (s : State) : Host.Outcome State Fault Refusal := onDev true (chainOp 2 chain) s
def execChainSignal (chain : Nat) (s : State) : Host.Outcome State Fault Refusal := onDev true (chainOp 3 chain) s
def execChainMput (chain : Nat) (s : State) : Host.Outcome State Fault Refusal := onDev true (chainOp 4 chain) s
def execChainInstanceEnd (chain : Nat) (s : State) : Host.Outcome State Fault Refusal := onDev true (chainInstanceEnd chain) s
def execSlotWindowOpen (tenant cctx : Nat) (s : State) : Host.Outcome State Fault Refusal :=
  onDev (tenantOk tenant) (slotWindowOpen tenant cctx) s
def execSlotWindowClose (tenant cctx : Nat) (s : State) : Host.Outcome State Fault Refusal :=
  onDev (tenantOk tenant) (slotWindowClose tenant cctx) s

end Sys2Proof.Machine
end

