-- ==== Sys2Proof/Machine/Dma.lean ====
section
/-!
DEFINITION. The DMA engines (chapter 7): descriptors, spaces and rows, chains and their completion, guarded
ingest (chapter 15), and the patrol scrubber. Engine e below 128 is tile e's; 128 + n is die n's complex.
-/
namespace Sys2Proof.Machine

/-! ## Descriptors (Table 7.3) -/

def dKind (b : Bytes) : Nat := bitsOf (fieldAt b 0 1) 0 4
def dSrcSp (b : Bytes) : Nat := bitsOf (fieldAt b 1 1) 0 4
def dDstSp (b : Bytes) : Nat := bitsOf (fieldAt b 1 1) 4 4
def dSrcTile (b : Bytes) : Nat := fieldAt b 2 1
def dDstTile (b : Bytes) : Nat := fieldAt b 3 1
def dFlags (b : Bytes) : Nat := fieldAt b 4 2
def dCounter (b : Bytes) : Nat := fieldAt b 6 2
def dSrc (b : Bytes) : Nat := fieldAt b 8 8
def dDst (b : Bytes) : Nat := fieldAt b 0x10 8
def dLen (b : Bytes) : Nat := fieldAt b 0x18 4
def dCount1 (b : Bytes) : Nat := fieldAt b 0x1C 2 + 1
def dCount2 (b : Bytes) : Nat := fieldAt b 0x1E 2 + 1
def dSrcS1 (b : Bytes) : Int := signedOf 64 (fieldAt b 0x20 8)
def dDstS1 (b : Bytes) : Int := signedOf 64 (fieldAt b 0x28 8)
def dSrcS2 (b : Bytes) : Int := signedOf 32 (fieldAt b 0x30 4) * 64
def dDstS2 (b : Bytes) : Int := signedOf 32 (fieldAt b 0x34 4) * 64
def dAux (b : Bytes) : Nat := fieldAt b 0x38 4
def dAmount (b : Bytes) : Nat := fieldAt b 0x3C 2 + 1

/-- Whether an engine is a tile's, and the die of an engine. -/
def isTileEngine (e : Nat) : Bool := decide (e < 128)
def dieOf (e : Nat) : Nat := if e < 128 then e / 64 else e - 128

/-- Spaces allowed as source and as destination (Table 7.5, R213). -/
def srcSpaceOk (e sp : Nat) : Bool := if isTileEngine e then decide (sp ≤ 4) else sp == 0 || sp == 4
def dstSpaceOk (e sp : Nat) : Bool := if isTileEngine e then decide (sp ≤ 6) else sp == 0 || sp == 4 || sp == 5

/-- The range of a space. -/
def spaceEnd : Nat → Nat
  | 1 => 0x600000
  | 2 => 0x100000
  | 3 => 0x80000
  | 4 => 0x600000
  | _ => 2 ^ 48

/-- Whether every row of a side lies in the range of its space, at addresses that space allows (R166). -/
def rowsInside (sp addr len c1 c2 : Nat) (s1 s2 : Int) : Bool :=
  let a : Int := (addr : Int)
  let e1 := ((c1 : Int) - 1) * s1
  let e2 := ((c2 : Int) - 1) * s2
  decide (0 ≤ a + min 0 e1 + min 0 e2) && decide (a + max 0 e1 + max 0 e2 + (len : Int) ≤ (spaceEnd sp : Int)) &&
  (!(decide (1 ≤ sp) && decide (sp ≤ 4)) || (addr % 4 == 0 && (c1 == 1 || decide (s1 % 4 = 0))))

/-- Whether AUX keeps Table 7.4. -/
def auxGood (b : Bytes) : Bool :=
  if dKind b = 2 then bitsOf (dAux b) 16 16 == 0
  else if dDstSp b = 6 then bitsOf (dAux b) 28 4 == 0
  else if dKind b = 1 then true
  else dAux b == 0

/-- The counter rules of a descriptor that signals (R165, Table 7.12). -/
def signalGood (e t : Nat) (b : Bytes) (d : Dev) : Bool :=
  !bitOf (dFlags b) 0 || (!bitOf (dCounter b) 14 &&
    (if bitOf (dCounter b) 15 then ownsPool t (bitsOf (dCounter b) 0 14) d
     else isTileEngine e && decide (bitsOf (dCounter b) 0 14 < 48)))

/-- The ingest stream of tenant `t` with a stream ID, where one is enabled (R355). -/
def ingestOf (t id : Nat) (d : Dev) : Option Nat :=
  (List.range 16).find? fun s =>
    let v := tenantGet t (0x50 + s) d
    bitOf v 16 && bitsOf v 0 16 == id && !(Sparse.get {} (getRun t d).ingest s).off

/-- Whether the partner holds a run of the tenant. -/
def partnerRun (t : Nat) (d : Dev) : Bool := partnerGet (0x5000 + t) 2 d != 0

/-- Whether a descriptor raises DMA_CONFIG as it starts (Table 7.12, R166, R355). -/
def configBad (e t : Nat) (b : Bytes) (d : Dev) : Bool :=
  let k := dKind b
  let gather := k == 3
  decide (3 < k) || bitsOf (fieldAt b 0 1) 4 4 != 0 || bitsOf (dFlags b) 2 14 != 0 || fieldAt b 0x3E 2 != 0 ||
  bitsOf (dSrc b) 48 16 != 0 || bitsOf (dDst b) 48 16 != 0 || !auxGood b || !signalGood e t b d ||
  !srcSpaceOk e (dSrcSp b) || !dstSpaceOk e (dDstSp b) ||
  dLen b % 4 != 0 || decide (dLen b < 4) || decide (16777216 < dLen b) ||
  (k == 1 && (dSrcSp b != 0 || (dDstSp b == 6 && decide (2 ^ 32 ≤ dSrc b)))) ||
  (gather && (!isTileEngine e || dSrcSp b != 1 || dCount2 b != 1 || dSrc b % 4 != 0 ||
    decide (0x600000 < dSrc b + 16 * dCount1 b))) ||
  (k == 2 && (decide (dLen b < 36) || dDstSp b == 5 || dDstSp b == 6 || (ingestOf t (bitsOf (dAux b) 0 16) d).isNone)) ||
  ((k == 0 || k == 2) && !rowsInside (dSrcSp b) (dSrc b) (dLen b) (dCount1 b) (dCount2 b) (dSrcS1 b) (dSrcS2 b)) ||
  (dDstSp b != 6 && !rowsInside (dDstSp b) (dDst b) (dLen b) (dCount1 b) (dCount2 b) (dDstS1 b) (dDstS2 b)) ||
  ((k == 0 || k == 2) && dSrcSp b == 4 && (decide (128 ≤ dSrcTile b) || (!isTileEngine e && dSrcTile b / 64 != dieOf e))) ||
  (dDstSp b == 4 && (decide (128 ≤ dDstTile b) || (!isTileEngine e && dDstTile b / 64 != dieOf e))) ||
  (dDstSp b == 5 && !partnerRun t d)

/-! ## Reading and writing a space -/

/-- How an access of a row ended: `ue` an uncorrectable word, with the code of its event; `stop` the descriptor is
abandoned, with the reel status (R181, Table 9.9) and the code of the event. -/
inductive RowMet where
  | ok
  | ue (code : Nat)
  | wait
  | stop (status code : Nat)
  deriving DecidableEq, Repr

/-- Who makes the accesses of a row: the engine, the SOURCE of its events, the tenant and the run context. -/
structure Requester where
  e : Nat
  src : Nat
  t : Nat
  ctx : Nat

/-- SOURCE of an engine's events; DEDUCED (log entry 22): of a TRANSFER, the reel stands in place of the chain
(chapter 9). -/
def engineSrc (e : Nat) : Nat := if e < 128 then srcTile e else srcDie (e - 128)
def Chain.requester (x : Chain) : Requester :=
  { e := x.tile, src := match x.reel with | some (r, _) => srcReel r | none => engineSrc x.tile, t := x.tenant, ctx := x.ctx }

/-- The event of an uncorrectable word of a space. -/
def spaceUe (sp : Nat) : Nat := if sp = 2 ∨ sp = 3 then evAccumUe else evScratchUe

/-- A failed virtual access of a row. -/
def rowFault (m : Met) (q : Requester) (d : Dev) : RowMet × Dev :=
  match m with
  | .wait => (.wait, d)
  | .ok => (.ok, d)
  | .ue => (.ue m.code, d)
  | .fault _ _ => (.stop 3 m.code, raiseMet m q.src q.t d)
  | _ => (.stop 9 m.code, raiseMet m q.src q.t d)

/-- The tile of a local space. -/
def spaceTile (e sp named : Nat) : Nat := if sp = 4 then named else e

/-- Whether a tile's owner is the requesting tenant (R164). -/
def ownedBy (tile t : Nat) (d : Dev) : Bool := (getTile tile d).owner == t

def scratchOwner (q : Requester) (d : Dev) : RowMet × Dev := (.stop 3 (0x1000 + evScratchOwner), faultRun 1 evScratchOwner q.src q.t d)

/-- The rows of a plane (`z` bytes each) that hold a faulty word of [a, a + n) become poisoned (R91, R167). -/
def poisonRows (tile z base a n : Nat) (d : Dev) : Dev :=
  ((errsIn d.mem.err a n).filter fun p => p.2 == 2).foldl (fun d p =>
    modTile tile (fun x => { x with poison := Sparse.set false x.poison ((p.1 * 8 - base) / z) true }) d) d

/-- The physical address and row size of a tile's space. -/
def spaceAddr (tile sp off : Nat) : Nat :=
  if sp = 2 then accAddr tile off else if sp = 3 then idxAddr tile off else scratchAddr tile off
def spaceRow (sp : Nat) : Nat := if sp = 3 then 256 else 512

/-- `n` bytes of a space are read. Words found uncorrectable are delivered as read (Table 3.12, R167). -/
def spaceRead (q : Requester) (sp named addr n : Nat) (d : Dev) : RowMet × Bytes × Dev :=
  if sp = 0 then
    let r := vaFetch q.e q.t q.ctx addr n d
    let f := rowFault r.1 q r.2.2
    (f.1, r.2.1, f.2)
  else
    let tile := spaceTile q.e sp named
    if ownedBy tile q.t d then
      let r := physRead (spaceAddr tile sp addr) n d
      if r.2.1 then
        if sp = 2 ∨ sp = 3 then
          (.ue (0x2000 + evAccumUe), r.1, faultRun 2 evAccumUe (srcTile tile) q.t
            (poisonRows tile (spaceRow sp) (spaceAddr tile sp 0) (spaceAddr tile sp addr) n r.2.2))
        else (.ue (0x2000 + evScratchUe), r.1, faultRun 2 evScratchUe (srcTile tile) q.t r.2.2)
      else (.ok, r.1, r.2.2)
    else
      let f := scratchOwner q d
      (f.1, [], f.2)

/-- The rows of the accumulator that [off, off + n) covers whole lose their poison flag (R167). -/
def clearPoison (tile off n : Nat) (d : Dev) : Dev :=
  (List.range (n / 512 + 1)).foldl (fun d i =>
    let r := (off + 511) / 512 + i
    if r * 512 + 512 ≤ off + n then modTile tile (fun x => { x with poison := Sparse.set false x.poison r false }) d else d) d

/-- The direct records of a space-5 write, in pieces (R318). -/
def directWrite (t va : Nat) (bs : Bytes) (d : Dev) : Dev :=
  (recordPieces bs).foldl (fun d p => mirrorSend
    { kind := 8, tenant := t, rank := (getRun t d).rank, rframe := (getRun t d).index, addr := va + p.1, data := p.2 } d) d

/-- Bytes are written to a space. -/
def spaceWrite (q : Requester) (sp named addr : Nat) (bs : Bytes) (d : Dev) : RowMet × Dev :=
  if sp = 0 then
    if mirrored q.t d && journalFull d then (.wait, raiseJournalFull d)
    else
      let w := vaWrite q.e q.t q.ctx addr false bs d
      rowFault w.1 q w.2
  else if sp = 5 then
    if d.twin.state = 2 then (.ok, directWrite q.t addr bs d)
    else (.stop 2 (0x1000 + evTwinUnreachable), faultRun 1 evTwinUnreachable q.src q.t d)
  else
    let tile := spaceTile q.e sp named
    if ownedBy tile q.t d then
      let w := physWrite (spaceAddr tile sp addr) bs d
      let d1 := if sp = 2 then clearPoison tile addr bs.length w.2 else w.2
      if w.1 then (.ue (0x2000 + spaceUe sp), faultRun 2 (spaceUe sp) (srcTile tile) q.t d1) else (.ok, d1)
    else scratchOwner q d

/-! ## Guarded blocks (R354 to R357) -/

/-- A stamp of the present moment (Table 15.4). -/
def stampNow (t src srck die : Nat) (d : Dev) : Bytes :=
  let f := eventStamp d
  leBytes 16 (f.1 + f.2 % 2 ^ 32 * 2 ^ 48 + t * 2 ^ 80 + src * 2 ^ 90 + srck * 2 ^ 96 + die * 2 ^ 97)

/-- An ingest stream's run state changed. -/
def modIngest (t s : Nat) (f : IngestRun → IngestRun) (d : Dev) : Dev :=
  modRun t (fun r => { r with ingest := Sparse.modify {} r.ingest s f }) d

/-- The state block as bytes. -/
def ingestBlock (g : IngestRun) : Bytes :=
  leBytes 8 g.next ++ leBytes 8 g.last ++ leBytes 8 g.entries ++ leBytes 8 (if g.tsv then 1 else 0) ++ fillBytes 32 0

/-- The first failing check of Table 15.9, 0 for none. -/
def ingestReason (id maxgap len : Nat) (g : IngestRun) (row : Bytes) : Nat :=
  let plen := fieldAt row 4 4
  let ts := fieldAt row 0x10 8
  if fieldAt row 0 2 ≠ id then 1
  else if fieldAt row 2 1 ≠ 1 ∨ fieldAt row 3 1 ≠ 0 ∨ fieldAt row 0x18 4 ≠ 0 then 2
  else if plen % 4 ≠ 0 ∨ len < plen + 32 then 3
  else if crc32c (row.take 0x1C ++ (row.drop 32).take plen) ≠ fieldAt row 0x1C 4 then 4
  else if fieldAt row 8 8 < g.next then 5
  else if g.tsv ∧ (ts < g.last ∨ (maxgap ≠ 0 ∧ maxgap * 1000 < ts - g.last)) then 6
  else 0

/-- 1 is added to a stream's counter, where it names one. -/
def ingestCount (q : Requester) (field : Nat) (d : Dev) : Dev :=
  if bitOf field 15 then
    if ownsPool q.t (bitsOf field 0 14) d then
      match poolAdd (bitsOf field 0 14) 1 d with
      | (.applied, d1) => d1
      | (.wrapped, d1) => faultRun 1 evCounterWrap q.src q.t d1
    else staleAdd (bitsOf field 0 14) (some q.t) d
  else d

/-- A fault on a state block or ring abandons the descriptor and disables the stream (R358). -/
def ingestFault (m : Met) (q : Requester) (s : Nat) (d : Dev) : RowMet × Dev :=
  let f := rowFault m q (if m = .wait then d else modIngest q.t s (fun g => { g with off := true }) d)
  (match f.1 with | .ue c => .stop 9 c | .ok => .stop 9 0 | x => x, f.2)

/-- Row `row`, read as `bs`, is checked against its stream; what reaches the destination is what R356 says. -/
def guardedRow (q : Requester) (b bs : Bytes) (dst : Nat) (d : Dev) : RowMet × Dev :=
  match ingestOf q.t (bitsOf (dAux b) 0 16) d with
  | none => (.stop 2 (0x1000 + evDmaConfig), faultRun 1 evDmaConfig q.src q.t d)
  | some s =>
    let v := tenantGet q.t (0x50 + s) d
    let sva := bitsOf v 64 64
    let g0 := Sparse.get {} (getRun q.t d).ingest s
    let rd := if g0.loaded then (Met.ok, ([] : Bytes), d) else vaFetch q.e q.t q.ctx sva 64 d
    if rd.1 ≠ .ok then ingestFault rd.1 q s rd.2.2
    else
      let g : IngestRun := if g0.loaded then g0 else
        { loaded := true, next := fieldAt rd.2.1 0 8, last := fieldAt rd.2.1 8 8, entries := fieldAt rd.2.1 16 8,
          tsv := bitOf (fieldAt rd.2.1 24 8) 0 }
      let d0 := rd.2.2
      let reason := ingestReason (bitsOf (dAux b) 0 16) (bitsOf v 32 32) (dLen b) g bs
      let blk := fieldAt bs 8 8
      if reason = 0 then
        match spaceWrite q (dDstSp b) (dDstTile b) dst ((bs.drop 32).take (fieldAt bs 4 4)) d0 with
        | (.wait, d1) => (.wait, d1)
        | (.stop st c, d1) => (.stop st c, d1)
        | (m, d1) =>
          let g1 : IngestRun := { g with next := blk + 1, last := fieldAt bs 0x10 8, tsv := true }
          let w := vaWrite q.e q.t q.ctx sva false (ingestBlock g1) d1
          if w.1 ≠ .ok then ingestFault w.1 q s w.2
          else
            let d2 := ingestCount q (bitsOf v 208 16) (modIngest q.t s (fun _ => g1) w.2)
            let skipped := blk - g.next
            let d3 := modRun q.t (fun r => { r with accepted := satAdd 64 r.accepted 1, skipped := satAdd 64 r.skipped skipped }) d2
            (m, if skipped = 0 then d3
              else raiseT 4 evIngestGap q.src q.t d3 (skipped % 2 ^ 32 + bitsOf (dAux b) 0 16 * 2 ^ 32))
      else
        let slots := bitsOf v 192 16
        let entry := bs.take 32 ++ leBytes 8 dst ++ leBytes 8 reason ++ stampNow q.t 0 1 0 d0
        let w := if slots = 0 then (Met.ok, d0)
          else vaWrite q.e q.t q.ctx (bitsOf v 128 64 + g.entries % slots * 64) false entry d0
        if w.1 ≠ .ok then ingestFault w.1 q s w.2
        else
          let g1 : IngestRun := { g with entries := if slots = 0 then g.entries else g.entries + 1 }
          let w2 := vaWrite q.e q.t q.ctx sva false (ingestBlock g1) w.2
          if w2.1 ≠ .ok then ingestFault w2.1 q s w2.2
          else
            let d2 := ingestCount q (bitsOf v 224 16) (modIngest q.t s (fun _ => g1) w2.2)
            let d3 := modRun q.t (fun r => { r with quarantined := satAdd 64 r.quarantined 1 }) d2
            let detail := reason + bitsOf (dAux b) 0 16 * 2 ^ 4 + blk % 2 ^ 28 * 2 ^ 20
            (.ok, if bitOf v 17 then faultRun 1 evIngestQuarantine q.src q.t d3 detail
              else raiseT 4 evIngestQuarantine q.src q.t d3 detail)

/-! ## Rows (R166) -/

/-- The address of row (i, j) of a side. -/
def rowAddr (addr : Nat) (s1 s2 : Int) (i j : Nat) : Nat := ((addr : Int) + (i : Int) * s1 + (j : Int) * s2).toNat

/-- A row is read. -/
def rowRead (q : Requester) (b : Bytes) (i j : Nat) (d : Dev) : RowMet × Bytes × Dev :=
  match dKind b with
  | 1 =>
    let pat := leBytes 4 (if dDstSp b = 6 then dSrc b else dAux b)
    (.ok, (List.replicate (dLen b / 4) pat).flatten, d)
  | 3 =>
    let l := spaceRead q 1 0 (dSrc b + 16 * i) 16 d
    (match l.1 with
    | .ok => spaceRead q 0 0 (bitsOf (fieldAt l.2.1 0 8) 0 48) (dLen b) l.2.2
    | .ue c => let r := spaceRead q 0 0 (bitsOf (fieldAt l.2.1 0 8) 0 48) (dLen b) l.2.2
               (if r.1 = .ok then .ue c else r.1, r.2.1, r.2.2)
    | m => (m, [], l.2.2))
  | _ => spaceRead q (dSrcSp b) (dSrcTile b) (rowAddr (dSrc b) (dSrcS1 b) (dSrcS2 b) i j) (dLen b) d

/-- A row that has been read is written. `k` is its number in the order of R166. -/
def rowWrite (q : Requester) (k : Nat) (b bs : Bytes) (i j : Nat) (d : Dev) : RowMet × Dev :=
  let dst := rowAddr (dDst b) (dDstS1 b) (dDstS2 b) i j
  if dKind b = 2 then guardedRow q b bs dst d
  else if dDstSp b = 6 then
    let w := handInBytes q.t q.ctx (bitsOf (dAux b) 0 12) (bitsOf (dAux b) 12 16) (k * dLen b) bs d
    rowFault w.1 q w.2
  else spaceWrite q (dDstSp b) (dDstTile b) dst bs d

/-- One row, number `k`; `held` is the row as read where its write waited. -/
def oneRow (q : Requester) (k : Nat) (b : Bytes) (held : Option Bytes) (d : Dev) : RowMet × Option Bytes × Dev :=
  let i := k % dCount1 b
  let j := k / dCount1 b
  let rd := match held with
    | some bs => (RowMet.ok, bs, d)
    | none => rowRead q b i j d
  match rd with
  | (.wait, _, d1) => (.wait, none, d1)
  | (.stop s c, _, d1) => (.stop s c, none, d1)
  | (m, bs, d1) =>
    match rowWrite q k b bs i j d1 with
    | (.wait, d2) => (.wait, some bs, d2)
    | (.ok, d2) => (m, none, d2)
    | (w, d2) => (w, none, d2)

/-- Rows from number `k` on, `n` of them at most: how it ended, the event of the first uncorrectable word (0: none),
the next row and the row held. -/
def manyRows (q : Requester) (b : Bytes) : Nat → Nat → Option Bytes → Nat → Dev → RowMet × Nat × Nat × Option Bytes × Dev
  | 0, k, held, ue, d => (.ok, ue, k, held, d)
  | n + 1, k, held, ue, d =>
    match oneRow q k b held d with
    | (.wait, h, d1) => (.wait, ue, k, h, d1)
    | (.stop s c, _, d1) => (.stop s c, ue, k, none, d1)
    | (.ue c, _, d1) => manyRows q b n (k + 1) none (if ue = 0 then c else ue) d1
    | (.ok, _, d1) => manyRows q b n (k + 1) none ue d1

/-! ## Chains (R168, R181) -/

/-- The chains of an engine, and one changed. -/
def sameChain (x y : Chain) : Bool := x.tile == y.tile && x.number == y.number && x.reel == y.reel
def putChain (x : Chain) (d : Dev) : Dev := { d with chains := d.chains.map fun y => if sameChain x y then x else y }

/-- How a chain has failed: the reel status and the code of the event. -/
def failWith (status code : Nat) : Nat := status + 256 * code

/-- A chain is over: its word retires, or its descriptor completes. -/
def closeChain (x : Chain) (d : Dev) : Dev :=
  if x.flight.isEmpty && decide (x.count ≤ x.nextIndex) then
    let d1 := { d with chains := d.chains.filter fun y => !sameChain x y }
    match x.reel with
    | some (r, s) => setDescStatus r s (x.failed % 256) (x.failed / 256) d1
    | none => finishWord x.tile 5 x.number (x.failed == 0) 0 d1
  else d

/-- Writes in flight of a descriptor go on from the row it had reached. -/
def runDesc (x : Chain) (f : DmaRun) (d : Dev) : Dev :=
  let b := f.desc
  let r := manyRows x.requester b (dCount1 b * dCount2 b - f.row) f.row f.held 0 d
  let x1 : Chain := if r.2.1 ≠ 0 ∧ x.reel.isSome ∧ x.failed = 0 then { x with failed := failWith 9 r.2.1 } else x
  let d1 := r.2.2.2.2
  match r.1 with
  | .stop s c =>
    let y := { x1 with failed := if x1.failed = 0 then failWith s c else x1.failed, nextIndex := x1.count,
                       flight := x1.flight.filter fun g => decide (g.index < f.index) }
    closeChain y (putChain y d1)
  | .wait => putChain { x1 with flight := x1.flight.map fun g => if g.index = f.index then
      { f with row := r.2.2.1, held := r.2.2.2.1 } else g } d1
  | _ => putChain { x1 with flight := x1.flight.map fun g => if g.index = f.index then
      { f with written := true, row := r.2.2.1, held := none, waitMseq := mseqAfter d1 } else g } d1

/-- The checks of a descriptor as it starts, then its rows. -/
def startDesc (x : Chain) (k : Nat) (b : Bytes) (d : Dev) : Dev :=
  let f : DmaRun := { index := k, desc := b, started := true, written := false, failed := false, waitMseq := 0,
                      chain := x.number, row := 0, held := none }
  let y := { x with nextIndex := k + 1, flight := x.flight ++ [f] }
  let bad (c : Nat) (d : Dev) : Dev :=
    let z := { y with failed := if y.failed = 0 then failWith 2 c else y.failed, nextIndex := y.count,
                      flight := y.flight.filter fun g => decide (g.index < k) }
    closeChain z (putChain z d)
  if configBad x.tile x.tenant b d then bad (0x1000 + evDmaConfig) (faultRun 1 evDmaConfig x.requester.src x.tenant d)
  else if dDstSp b = 6 then
    let cctx := bitsOf (dAux b) 0 12
    let cseg := bitsOf (dAux b) 12 16
    match handInCheck x.tenant x.ctx cctx cseg (dLen b * dCount1 b * dCount2 b) 16 false false d with
    | .ok => runDesc y f (putChain y d)
    | h => bad 0 (handInEvent h evDmaConfig x.requester.src x.tenant cctx cseg d)
  else runDesc y f (putChain y d)

/-- The rows (start, length) of a side of a descriptor, and the accumulator rows they touch. -/
def sideRanges (addr len c1 c2 : Nat) (s1 s2 : Int) : List (Nat × Nat) :=
  (List.range c2).flatMap fun j => (List.range c1).map fun i => (rowAddr addr s1 s2 i j, len)
def accRanges (l : List (Nat × Nat)) : List (Nat × Nat) :=
  l.map fun x => (x.1 / 512, (x.1 + x.2 + 511) / 512 - x.1 / 512)

/-- The scratch and accumulator ranges of tile `e` that a descriptor of its own engine touches. -/
def descRanges (e : Nat) (b : Bytes) : List (Nat × Nat) × List (Nat × Nat) :=
  let own (sp named : Nat) : Bool := sp == 1 || (sp == 4 && named == e)
  let src := sideRanges (dSrc b) (dLen b) (dCount1 b) (dCount2 b) (dSrcS1 b) (dSrcS2 b)
  let dst := sideRanges (dDst b) (dLen b) (dCount1 b) (dCount2 b) (dDstS1 b) (dDstS2 b)
  let reads := dKind b == 0 || dKind b == 2
  ((if reads && own (dSrcSp b) (dSrcTile b) then src else []) ++ (if own (dDstSp b) (dDstTile b) then dst else []) ++
     (if dKind b = 3 then [(dSrc b, 16 * dCount1 b)] else []),
   (if reads && dSrcSp b == 2 then accRanges src else []) ++ (if dDstSp b = 2 then accRanges dst else []))

/-- Whether a chain touches what the tile's sequencer has reserved, as its descriptors stand now (R125). -/
def chainConflict (e base count : Nat) (d : Dev) : Bool :=
  !(seqRuns e d).isEmpty &&
    (conflict e [(base, 64 * count)] [] d || (List.range count).any fun i =>
      let r := descRanges e (Mem.readN d.mem.phys (scratchAddr e (base + 64 * i)) 64)
      conflict e r.1 r.2 d)

/-- A chain word at the head of a DMA queue. -/
def dmaHead (tile : Nat) (q : QWord) (d : Dev) : Dev :=
    if enginesRun tile d then
      if wOp q.word ≠ 0 ∨ wField q.word 57 71 ≠ 0 ∨ cueBad q.word then wordField tile 5 d
      else if d.chains.any fun x => x.tile == tile then d
      else if chainConflict tile (wField q.word 32 17 * 64) (wField q.word 49 8 + 1) d then
        rejectHead tile 5 1 evRnnConflict d
      else
        match headWait tile q d with
        | (false, d1) => d1
        | (true, d1) =>
          let d2 := dispatchHead tile 5 .running d1
          { d2 with chains := d2.chains ++ [{
            tile := tile, tenant := q.tenant, ctx := q.ctx, base := wField q.word 32 17 * 64, count := wField q.word 49 8 + 1,
            nextIndex := 0, flight := [], reel := none, number := q.number, failed := 0 }] }
    else d

/-- DMA_CHAIN: a chain word at the head of a tile's DMA queue starts its chain. The engine runs one word at a
time. -/
def dmaChain (tile : Nat) (d : Dev) : Dev :=
  match headOf tile 5 d with
  | none => d
  | some q => forRank (q.ctx == 1) (dmaHead tile q) d

/-- The chain of an engine goes on with a descriptor of KIND `k`. -/
def dmaNext (k e : Nat) (x : Chain) (d : Dev) : Dev :=
    match x.flight.find? fun f => !f.written && dKind f.desc == k with
    | some f => runDesc x f d
    | none =>
      if x.nextIndex < x.count ∧ x.flight.length < 4 ∧ x.reel = none then
        let off := x.base + 64 * x.nextIndex
        if scratchSize < off + 64 then
          let y := { x with failed := failWith 2 (0x1000 + evDmaConfig), nextIndex := x.count }
          closeChain y (putChain y (faultRun 1 evDmaConfig (srcTile e) x.tenant d))
        else
          let r := physRead (scratchAddr e off) 64 d
          if r.2.1 then
            let y := { x with failed := failWith 9 (0x2000 + evScratchUe), nextIndex := x.count }
            closeChain y (putChain y (faultRun 2 evScratchUe (srcTile e) x.tenant r.2.2))
          else if bitOf (dFlags r.1) 1 && !x.flight.isEmpty then r.2.2
          else if dKind r.1 = k ∨ 3 < dKind r.1 then startDesc x x.nextIndex r.1 r.2.2
          else r.2.2
      else d

/-- One of DMA_COPY, DMA_FILL, DMA_GUARDED_COPY and DMA_GATHER (KIND `k`) of an engine: a descriptor of that kind
whose rows still wait goes on; else the next in line is read and, where it is of that kind, executed. A
descriptor of a reserved KIND is met by any of them. -/
def dmaRow (k e : Nat) (d : Dev) : Dev :=
  match d.chains.find? fun x => x.tile == e with
  | none => d
  | some x => forRank (x.ctx == 1) (dmaNext k e x) d

/-- Whether the writes of a descriptor meet their condition (R168): records to the twin acknowledged for space 5
and for writes into a SYNC region. -/
def writesMet (x : Chain) (f : DmaRun) (d : Dev) : Bool :=
  let waits := dDstSp f.desc == 5 || (dDstSp f.desc == 0 && x.ctx == 0 && mirroring d &&
    (regions x.tenant d).any fun g => !g.frameMode && regionProtected x.tenant g.index d)
  f.written && (!waits || !mirroring d || ackedBelow f.waitMseq d)

/-- The first descriptor of a chain whose writes meet their condition completes. -/
def descriptorDone (e : Nat) (x : Chain) (d : Dev) : Dev :=
    match x.flight.find? fun f => writesMet x f d with
    | none => d
    | some f =>
      let b := f.desc
      let y := { x with flight := x.flight.filter fun g => g.index != f.index }
      if bitOf (dFlags b) 0 then
        let c := bitsOf (dCounter b) 0 14
        if bitOf (dCounter b) 15 && !ownsPool x.tenant c d then
          closeChain y (putChain y (staleAdd c (some x.tenant) d))
        else
          match (if bitOf (dCounter b) 15 then poolAdd c (dAmount b) d else localAdd e c (dAmount b) d) with
          | (.applied, d1) => closeChain y (putChain y d1)
          | (.wrapped, d1) =>
            let z := { y with failed := failWith 4 (0x1000 + evCounterWrap), nextIndex := y.count, flight := y.flight.filter fun g => decide (g.index < f.index) }
            closeChain z (putChain z (faultRun 1 evCounterWrap x.requester.src x.tenant d1))
      else closeChain y (putChain y d)

/-- DMA_DESCRIPTOR_COMPLETE: the first descriptor of an engine whose writes meet their condition adds its signal
and completes; with the last of a chain the word retires. -/
def dmaDescriptorComplete (e : Nat) (d : Dev) : Dev :=
  match d.chains.find? fun x => x.tile == e && x.flight.any (fun f => writesMet x f d) with
  | none => d
  | some x => forRank (x.ctx == 1) (descriptorDone e x) d

/-! ## The patrol scrubber (R175) -/

/-- The tenant and virtual address of a physical address in a mirrored region, where the twin holds its unit
current: the pages of the regions are walked. -/
def mirroredPlace (pa : Nat) (d : Dev) : Option (Nat × Nat) :=
  (runTenants d).findSome? fun t =>
    (regions t d).findSome? fun g =>
      ((List.range (g.units * 32)).find? fun i =>
        (match (walk t (g.base + i * 65536) false d).1 with
         | .dev p => p / 65536 == pa / 65536
         | _ => false)).map fun i => (t, g.base + i * 65536 + pa % 65536)

/-- The scrubber meets the word at `pa`: the rules of Table 7.8 without a reader. -/
def scrubWord (pa : Nat) (d : Dev) : Dev :=
  let e := Sparse.get 0 d.mem.err (pa / 8)
  if e = 1 then countCorrected pa (setErr (pa / 8) 0 d)
  else if e = 2 then
    if inStore pa d then
      raise 4 evMirrorStoreUe (srcChannel (pseudoChannel pa)) (countUncorrectable pa d) (pa / 64)
    else
      match mirroredPlace pa d with
      | some (t, va) =>
        if twinCurrent t va d then askRepair t va pa d
        else raise 4 evHbmUeLatent (srcChannel (pseudoChannel pa)) (countUncorrectable pa d) (pa / 64)
      | none => raise 4 evHbmUeLatent (srcChannel (pseudoChannel pa)) (countUncorrectable pa d) (pa / 64)
  else d

/-- The partner is asked to seed a unit again (R323): a repair request with the one payload byte 1. -/
def askReseed (t g unit : Nat) (d : Dev) : Dev :=
  mirrorSend { kind := 5, tenant := t, region := g, addr := unit * unitSize, data := [1] } d

/-- The journal record that lies at byte `off` of the journal's space: records lie packed in MSEQ order. -/
def journalAt : List MirrorRec → Nat → Option MirrorRec
  | [], _ => none
  | r :: rs, off => if off < 16 + r.data.length then some r else journalAt rs (off - (16 + r.data.length))

/-- A unit of the mirror store that holds an uncorrectable word is seeded again by the partner; for a word of the
journal, the unit that its record covers (R323). -/
def storeRefresh (pa : Nat) (d : Dev) : Dev :=
  match storeOwner pa d with
  | none => d
  | some (t, g, off) =>
    if t = 1024 then
      match journalAt d.twin.journal off with
      | some r => if r.kind = 0 then askReseed r.tenant r.region (r.addr / unitSize) d else d
      | none => d
    else askReseed t g (off / unitSize) d

/-- PATROL_SCRUB: the scrubber reads the 64-bit word at HBM address `addr`; with the last word a pass ends. -/
def patrolScrub (addr : Nat) (d : Dev) : Dev :=
  let pa := addr / 8 * 8
  let store := inStore pa d && Sparse.get 0 d.mem.err (pa / 8) == 2
  let d1 := scrubWord pa d
  let d2 := if store then storeRefresh pa d1 else d1
  if pa + 8 = hbmEnd then { d2 with mem.scrubAt := 0, mem.scrubPasses := d2.mem.scrubPasses + 1 }
  else { d2 with mem.scrubAt := pa + 8 }

/-! ## The commands -/

def engineOk (e : Nat) : Bool := decide (e < 130)

def execDmaChain (tile : Nat) (s : State) : Host.Outcome State Fault Refusal := onTile tile (dmaChain tile) s
def execDmaCopy (engine : Nat) (s : State) : Host.Outcome State Fault Refusal := onDev (engineOk engine) (asTile engine (dmaRow 0 engine)) s
def execDmaFill (engine : Nat) (s : State) : Host.Outcome State Fault Refusal := onDev (engineOk engine) (asTile engine (dmaRow 1 engine)) s
def execDmaGuardedCopy (engine : Nat) (s : State) : Host.Outcome State Fault Refusal :=
  onDev (engineOk engine) (asTile engine (dmaRow 2 engine)) s
def execDmaGather (engine : Nat) (s : State) : Host.Outcome State Fault Refusal := onDev (engineOk engine) (asTile engine (dmaRow 3 engine)) s
def execDmaDescriptorComplete (engine : Nat) (s : State) : Host.Outcome State Fault Refusal :=
  onDev (engineOk engine) (asTile engine (dmaDescriptorComplete engine)) s
def execPatrolScrub (addr : Nat) (s : State) : Host.Outcome State Fault Refusal :=
  onDev (decide (addr < hbmEnd)) (patrolScrub addr) s

end Sys2Proof.Machine
end

