-- ==== Sys2Proof/Machine/Collector.lean ====
section
/-!
DEFINITION. The batch collectors (chapter 3) and the result-age monitor (chapter 15).
-/
namespace Sys2Proof.Machine

/-! ## Stream records (Table 3.7) -/

/-- Stream `k` counts 64 to a die. -/
def streamRec (k : Nat) (d : Dev) : Nat := dictGet (0x2440 + k / 64) (k % 64 + 1) d
def stTenant (v : Nat) : Nat := bitsOf v 0 10
def stClass (v : Nat) : Nat := bitsOf v 16 8
def stMax (v : Nat) : Nat := bitsOf v 24 8
def stHold (v : Nat) : Nat := bitsOf v 32 32
def stTile (v : Nat) : Nat := bitsOf v 64 8
def stRelease (v : Nat) : Nat := bitsOf v 72 8
def stSlots (v : Nat) : Nat := bitsOf v 80 8
def stEnable (v : Nat) : Bool := bitOf v 88
def stTick (v : Nat) : Bool := bitOf v 89
def stRing (v : Nat) : Nat := bitsOf v 96 32
def stConsumed (v : Nat) : Nat := bitsOf v 128 16

def getStream (k : Nat) (d : Dev) : Stream := Sparse.get {} d.streams k
def modStream (k : Nat) (f : Stream → Stream) (d : Dev) : Dev := { d with streams := Sparse.modify {} d.streams k f }

/-! ## Deadline streams (Table 15.5) -/

def dlRec (t s : Nat) (d : Dev) : Nat := tenantGet t (0x40 + s) d
def dlIntr (v : Nat) : Bool := bitOf v 1
def dlLinked (v : Nat) : Bool := bitOf v 2
def dlPolicy (v : Nat) : Nat := bitsOf v 8 8
def dlLink (v : Nat) : Nat := bitsOf v 16 7
def dlLimit (v : Nat) : Nat := bitsOf v 32 32
def dlCounter (v : Nat) : Nat := bitsOf v 64 14
def dlSlots (v : Nat) : Nat := bitsOf v 80 16
def dlSlotB (v : Nat) : Nat := bitsOf v 96 32
def dlRing (v : Nat) : Nat := bitsOf v 128 64
def dlDelivery (v : Nat) : Nat := bitsOf v 192 64
def dlLog (v : Nat) : Nat := bitsOf v 256 8
def dlVector (v : Nat) : Nat := bitsOf v 272 16
def dlCount (v : Nat) : Nat := bitsOf v 320 64
def dlGood (v : Nat) : Nat := bitsOf v 384 64

def getDl (t s : Nat) (d : Dev) : DeadlineRun := Sparse.get {} (getRun t d).deadline s
def modDl (t s : Nat) (f : DeadlineRun → DeadlineRun) (d : Dev) : Dev :=
  modRun t (fun r => { r with deadline := Sparse.modify {} r.deadline s f }) d

/-- Whether a deadline stream works: enabled and not disabled by a fault. -/
def dlOn (t s : Nat) (d : Dev) : Bool := bitOf (dlRec t s d) 0 && !(getDl t s d).off

/-! ## Releases (R70 to R74) -/

/-- RESULT_PENDING: batch `j` of stream `k` registers result j with every deadline stream linked to it (R352). -/
def resultPending (k j frame offset : Nat) (d : Dev) : Dev :=
  let t := stTenant (streamRec k d)
  ((List.range 16).filter fun s => dlOn t s d && dlLinked (dlRec t s d) && dlLink (dlRec t s d) == k).foldl
    (fun d s => modDl t s (fun x => { x with pending := x.pending ++ [(j, frame, offset)] }) d) d

/-- The reason a stream would release now, 0 for none (R71). -/
def releaseReason (k : Nat) (d : Dev) : Nat :=
  let v := streamRec k d
  let x := getStream k d
  match x.pending with
  | [] => 0
  | r :: _ =>
    if stMax v ≤ x.pending.length then 1
    else if r.at_ + stHold v * 10 * tNs ≤ d.now then 2
    else if x.tickDue then 3
    else if x.flush then 4
    else 0

/-- Whether a slot is free and the consumer tile is the tenant's, its clear finished (R71, R164). -/
def slotFree (k : Nat) (d : Dev) : Bool :=
  let v := streamRec k d
  let tile := getTile (stTile v) d
  decide ((getStream k d).batch < poolValue (stConsumed v) d + stSlots v) && tile.owner == stTenant v && tile.switchTo.isNone

/-- The header of a batch (Table 3.9) and its entries (R73). -/
def batchBytes (k reason : Nat) (x : Stream) (tenant : Nat) : Bytes :=
  match x.pending with
  | [] => []
  | r0 :: _ =>
    let stamp := r0.frame + r0.offset * 2 ^ 48 + tenant * 2 ^ 80 + (k % 64) * 2 ^ 90 + (k / 64) * 2 ^ 97
    leBytes 8 x.batch ++ leBytes 1 x.pending.length ++ leBytes 1 reason ++ leBytes 2 (min 0xFFFF x.dropped) ++
      fillBytes 4 0 ++ leBytes 16 stamp ++ fillBytes 32 0 ++
      (x.pending.flatMap fun r => leBytes 8 (r.row % 2 ^ 48 + r.tag * 2 ^ 48) ++ leBytes 4 ((r.at_ - r0.at_) / tNs) ++ fillBytes 4 0)

/-- BATCH_RELEASE: the slot is written, then the release counter goes up by 1. -/
def batchRelease (k reason : Nat) (d : Dev) : Dev :=
  let v := streamRec k d
  let x := getStream k d
  let t := stTenant v
  let w := physWrite (scratchAddr (stTile v) (stRing v + x.batch % stSlots v * 2112)) (batchBytes k reason x t) d
  let d1 := if w.1 then faultRun 2 evScratchUe (srcTile (stTile v)) t w.2 else w.2
  let first := x.pending.headD { row := 0, tag := 0, at_ := 0, frame := 0, offset := 0 }
  let d2 := resultPending k x.batch first.frame first.offset (modStream k (fun y =>
    { y with pending := [], batch := y.batch + 1, dropped := 0, blocked := false, tickDue := false, flush := false }) d1)
  match localAdd (stTile v) (stRelease v) 1 d2 with
  | (.applied, d3) => d3
  | (.wrapped, d3) => faultRun 1 evCounterWrap (srcTile (stTile v)) t d3

/-- A stream that is due releases, or is blocked (COLLECTOR_BLOCKED, once for each blocked period). -/
def streamTry (k : Nat) (d0 : Dev) : Dev :=
  let d := if stEnable (streamRec k d0) then poolTouch (stConsumed (streamRec k d0)) d0 else d0
  let reason := releaseReason k d
  if stEnable (streamRec k d) = false ∨ reason = 0 then d
  else if slotFree k d then batchRelease k reason d
  else if (getStream k d).blocked then d
  else raiseT 4 evCollectorBlocked (srcDie (k / 64)) (stTenant (streamRec k d)) (modStream k (fun x => { x with blocked := true }) d)

/-- A request of tenant `t` arrives at a die's collector (R70). -/
def collectorRequest (die t : Nat) (record : Bytes) (d : Dev) : Dev :=
  let r := leNat (record.take 16)
  let k := die * 64 + bitsOf r 48 6
  let v := streamRec k d
  if bitsOf r 54 1 ≠ die ∨ stEnable v = false ∨ stTenant v ≠ t then
    raiseT 1 evCollectorReject (srcDie die) t (modStream k (fun x => { x with rejected := satAdd 64 x.rejected 1 }) d)
  else
    let d1 := if stMax v ≤ (getStream k d).pending.length then streamTry k d else d
    if stMax v ≤ (getStream k d1).pending.length then
      raiseT 4 evCollectorDrop (srcDie die) t (modStream k (fun x => { x with dropped := x.dropped + 1 }) d1)
    else
      let st := eventStamp d1
      modStream k (fun x => { x with pending := x.pending ++
        [{ row := bitsOf r 0 48, tag := bitsOf r 64 16, at_ := d1.now, frame := st.1, offset := st.2 }] }) d1

/-- COLLECTOR_EVALUATION of a die: the streams that are due, urgent before planned before bulk, lower number
first. -/
def collectorEvaluation (die : Nat) (d : Dev) : Dev :=
  let ks := (List.range 64).map (die * 64 + ·)
  ([2, 1, 0].flatMap fun c => ks.filter fun k => stClass (streamRec k d) == c).foldl (fun d k => streamTry k d) d

/-- At a tick, streams with the release-at-tick flag and a pending request become due (R71). -/
def collectorTick (d : Dev) : Dev :=
  d.streams.foldl (fun d p => if stTick (streamRec p.1 d) && !p.2.pending.isEmpty then
    modStream p.1 (fun x => { x with tickDue := true }) d else d) d

/-- A flush of a stream through its tenant's entry. -/
def flushStream (t v : Nat) (d : Dev) : Dev :=
  let k := bitsOf v 0 7
  if stEnable (streamRec k d) && stTenant (streamRec k d) == t && !(getStream k d).pending.isEmpty then
    modStream k (fun x => { x with flush := true }) d
  else d

/-- A stream is disabled: its pending requests are dropped and counted (R69). -/
def disableStream (k : Nat) (d : Dev) : Dev :=
  modStream k (fun x => { x with pending := [], dropped := x.dropped + x.pending.length, tickDue := false, flush := false }) d

/-- At a teardown the tenant's pending requests are discarded (R74). -/
def dropRequests (t : Nat) (d : Dev) : Dev :=
  d.streams.foldl (fun d p => if stTenant (streamRec p.1 d) = t then
    modStream p.1 (fun x => { x with pending := [], tickDue := false, flush := false, blocked := false }) d else d) d

/-! ## The result-age monitor (R350 to R353) -/

/-- The frame period in ns. -/
def periodNs (d : Dev) : Nat := 2 ^ periodK d * 1000

/-- The local time of a moment, as ns of the building clock: FRAME·P + OFFSET (R349). -/
def clockNs (at_ : Nat) (d : Dev) : Int :=
  ((d.clk.frame * periodNs d : Nat) : Int) + ((at_ : Int) - (d.clk.lastTick : Int)) / (tNs : Int)

/-- A stream stops working and the run halts (R358). -/
def dlFault (t s : Nat) (d : Dev) : Dev :=
  faultRun 1 evDeadlineStreamFault 0 t (modDl t s (fun x => { x with off := true }) d) s

/-- Writes one after another; the first that does not succeed stops. -/
def dlWrites (t : Nat) (l : List (Nat × Bytes)) (d : Dev) : Met × Dev :=
  l.foldl (fun acc w => if acc.1 = .ok then vaWrite (dieTlb 0) t 0 w.1 false w.2 acc.2 else acc) (.ok, d)

/-- Result `j` of a stream is judged: its delivery record, the count word and the vector (R353). -/
def judge (t s j verdict buffer : Nat) (substitute : Option Nat) (origin : Bytes) (d : Dev) : Dev :=
  let v := dlRec t s d
  let x := getDl t s d
  let o := leNat origin
  let age := clockNs d.now d - ((bitsOf o 0 48 * periodNs d + bitsOf o 48 32 : Nat) : Int)
  let record := leBytes 8 j ++ leBytes 1 verdict ++ leBytes 1 buffer ++ fillBytes 6 0 ++ leBytes 4 (min (2 ^ 32 - 1) age.toNat) ++
    fillBytes 4 0 ++ leBytes 8 (substitute.getD (2 ^ 64 - 1)) ++ origin ++ stampNow t 0 1 0 d
  let w := dlWrites t [(dlDelivery v + x.records % 2 ^ dlLog v * 64, record), (dlCount v, leBytes 8 (x.records + 1))] d
  if w.1 = .ok then
    let d1 := modDl t s (fun y => { y with records := y.records + 1, pending := y.pending.filter fun p => p.1 != j }) w.2
    let d2 := modRun t (fun r =>
      match verdict with
      | 0 => { r with onTime := satAdd 64 r.onTime 1 }
      | 1 => { r with late := satAdd 64 r.late 1 }
      | 2 => { r with droppedResults := satAdd 64 r.droppedResults 1 }
      | _ => { r with substituted := satAdd 64 r.substituted 1 }) d1
    if dlIntr v then sendVector (dlVector v) d2 else d2
  else if w.1 = .wait then w.2
  else dlFault t s w.2

/-- DEADLINE_MISSED. -/
def deadlineMissed (t s j : Nat) (d : Dev) : Dev := raiseT 4 evDeadlineMissed 0 t d (s + j % 2 ^ 44 * 16)

/-- Whether the writes of a delivery record and count word need not wait for a repair. -/
def dlReady (t s : Nat) (d : Dev) : Bool × Dev :=
  let v := dlRec t s d
  let a := writeReady (dieTlb 0) t 0 (dlDelivery v + (getDl t s d).records % 2 ^ dlLog v * 64) 64 d
  let b := writeReady (dieTlb 0) t 0 (dlCount v) 8 a.2
  (a.1 && b.1, b.2)

/-- A result that is not on time under policy 1 or 2 has its verdict at once. -/
def judgeMissed (t s j : Nat) (origin : Bytes) (d : Dev) : Dev :=
  let x := getDl t s d
  match (if dlPolicy (dlRec t s d) = 2 then x.lastGood else none) with
  | some g => judge t s j 3 ((x.onTime + 1) % 2) (some g) origin d
  | none => judge t s j 2 0 none origin d

/-- An on-time result: under policy 2 its slot is copied into a last-good buffer first. -/
def judgeOnTime (t s j : Nat) (origin : Bytes) (d : Dev) : Dev :=
  let v := dlRec t s d
  let x := getDl t s d
  if dlPolicy v = 2 then
    let r := vaFetch (dieTlb 0) t 0 (dlRing v + j % dlSlots v * dlSlotB v) (dlSlotB v) d
    if r.1 = .ok then
      match vaWrite (dieTlb 0) t 0 (dlGood v + x.onTime % 2 * dlSlotB v) false r.2.1 r.2.2 with
      | (.ok, d1) =>
        judge t s j 0 (x.onTime % 2) none origin (modDl t s (fun y => { y with onTime := y.onTime + 1, lastGood := some j }) d1)
      | (_, d1) => dlFault t s d1
    else dlFault t s r.2.2
  else judge t s j 0 0 none origin (modDl t s (fun y => { y with onTime := y.onTime + 1, lastGood := some j }) d)

/-- The origin stamp of a linked stream's pending result. -/
def linkedOrigin (t v frame offset : Nat) : Bytes :=
  leBytes 16 (frame + offset * 2 ^ 48 + t * 2 ^ 80 + dlLink v % 64 * 2 ^ 90 + dlLink v / 64 * 2 ^ 97)

/-- A publication that comes after its result's verdict is discarded and counted. -/
def discardLate (t s j : Nat) (d : Dev) : Dev :=
  modRun t (fun r => { r with discardedLate := satAdd 64 r.discardedLate 1 })
    (modDl t s (fun y => { y with dropped := y.dropped.filter (· != j) }) d)

/-- A result with its origin is published at `at_`: on time, or late under its policy. A linked result missed its
deadline at its expiry, which comes first. -/
def publishJudged (t s j at_ : Nat) (origin : Bytes) (d : Dev) : Dev :=
  let v := dlRec t s d
  let n := leNat origin
  let due := ((bitsOf n 0 48 * periodNs d + bitsOf n 48 32 + dlLimit v : Nat) : Int)
  if clockNs at_ d ≤ due then judgeOnTime t s j origin d
  else
    let seen := (getDl t s d).missed.contains j
    let d1 := if seen then modDl t s (fun y => { y with missed := y.missed.filter (· != j) }) d else deadlineMissed t s j d
    if dlPolicy v = 0 then judge t s j 1 0 none origin d1
    else if dlLinked v then discardLate t s j (judgeMissed t s j origin d1)
    else judgeMissed t s j origin d1

/-- Result `j` is published at `at_`; the flag says the monitor need not come back to it. A linked result whose
batch has not been released has no origin and gets no record. -/
def publishOne (t s j at_ : Nat) (d : Dev) : Bool × Dev :=
  let v := dlRec t s d
  let x := getDl t s d
  if x.dropped.contains j then (true, discardLate t s j d)
  else
    match dlReady t s d with
    | (false, d0) => (false, d0)
    | (true, d0) =>
      if dlLinked v then
        match x.pending.find? fun p => p.1 == j with
        | some (_, f, n) => (true, publishJudged t s j at_ (linkedOrigin t v f n) d0)
        | none => (true, d0)
      else
        match vaFetch (dieTlb 0) t 0 (dlRing v + j % dlSlots v * dlSlotB v) 16 d0 with
        | (.wait, _, d1) => (false, d1)
        | (.ok, origin, d1) => (true, publishJudged t s j at_ origin d1)
        | (_, _, d1) => (true, dlFault t s d1)

/-- Results of a stream up to the reported counter value are published in ascending order; the flag says all
were. -/
def publishTo (t s value at_ : Nat) (d : Dev) : Bool × Dev :=
  let x := getDl t s d
  (List.range (value - (x.base + x.judged))).foldl (fun acc _ =>
    if acc.1 && !(getDl t s acc.2).off then
      let r := publishOne t s (getDl t s acc.2).judged at_ acc.2
      (r.1, if r.1 then modDl t s (fun y => { y with judged := y.judged + 1 }) r.2 else r.2)
    else acc) (true, d)

/-- PUBLICATION: the monitor takes the first reported add to a publish counter, and keeps it while a stream's
memory makes it wait. -/
def publication (d : Dev) : Dev :=
  match d.ctr.reports with
  | [] => d
  | (i, value, at_) :: rest =>
    let r := (publishStreams i d).foldl (fun acc k =>
      let x := publishTo (k / 16) (k % 16) value at_ acc.2
      (acc.1 && x.1, x.2)) (true, d)
    if r.1 then { r.2 with ctr.reports := rest } else r.2

/-- RESULT_EXPIRY of a tenant's stream: its first pending result whose time has passed, and that no reported add
has published, is judged (R352). Under policy 0 it waits for its publication. -/
def resultExpiry (t s : Nat) (d : Dev) : Dev :=
  let v := dlRec t s d
  let x := getDl t s d
  if dlOn t s d && dlLinked v then
    let late (p : Nat × Nat × Nat) : Bool := decide (((p.2.1 * periodNs d + p.2.2 + dlLimit v : Nat) : Int) < clockNs d.now d) &&
      !x.missed.contains p.1 && !(d.ctr.reports.any fun r => r.1 == dlCounter v && decide (x.base + p.1 < r.2.1))
    match x.pending.find? late with
    | none => d
    | some (j, f, n) =>
      if dlPolicy v = 0 then deadlineMissed t s j (modDl t s (fun y => { y with missed := y.missed ++ [j] }) d)
      else
        match dlReady t s d with
        | (false, d1) => d1
        | (true, d1) => judgeMissed t s j (linkedOrigin t v f n)
            (deadlineMissed t s j (modDl t s (fun y => { y with dropped := y.dropped ++ [j] }) d1))
  else d

/-! ## The commands -/

def execCollectorRequest (die tenant : Nat) (record : Bytes) (s : State) : Host.Outcome State Fault Refusal :=
  onDev (decide (die < 2) && tenantOk tenant) (collectorRequest die tenant record) s
def execCollectorEvaluation (die : Nat) (s : State) : Host.Outcome State Fault Refusal :=
  onDev (decide (die < 2)) (collectorEvaluation die) s
def execPublication (s : State) : Host.Outcome State Fault Refusal := onDev true publication s
def execResultExpiry (tenant stream : Nat) (s : State) : Host.Outcome State Fault Refusal :=
  onDev (tenantOk tenant && decide (stream < 16)) (resultExpiry tenant stream) s

end Sys2Proof.Machine
end

