-- ==== Sys2Proof/Machine/Obs.lean ====
section
/-!
DEFINITION. Observation (chapter 21): the snapshot at ARM, rings and their space, watches and captures, PC
samples, activity records and the drain.
-/
namespace Sys2Proof.Machine

/-! ## The observation area (R449) -/

/-- Offsets of a ring's block in the area. -/
def ringField (area ring off : Nat) : Nat := area + 0x10 + 32 * ring + off

/-- A ring as the header gives it, and whether it keeps its range. -/
def ringOf (h : Bytes) (i : Nat) : ObsRing :=
  { base := fieldAt h (0x10 + 32 * i) 8, log2 := fieldAt h (0x18 + 32 * i) 1 }
def ringGood (r : ObsRing) : Bool :=
  r.base % 4096 == 0 && decide (r.base < 2 ^ 48) && decide (12 ≤ r.log2) && decide (r.log2 ≤ 30)

/-- Fields of a watch entry (Table 21.2). -/
def owId (e : Bytes) : Nat := fieldAt e 0 2
def owTile (e : Bytes) : Nat := fieldAt e 2 1
def owFlags (e : Bytes) : Nat := fieldAt e 3 1
def owPool (e : Bytes) : Bool := bitOf (owFlags e) 1
def owSource (e : Bytes) : Nat := bitsOf (owFlags e) 2 2
def owRepeat (e : Bytes) : Bool := bitOf (owFlags e) 4
def owCounter (e : Bytes) : Nat := fieldAt e 4 2
def owStep (e : Bytes) : Nat := fieldAt e 8 8
def owInterval (e : Bytes) : Nat := fieldAt e 0x10 8
def owSrc (e : Bytes) : Nat := fieldAt e 0x18 8
def owRow (e : Bytes) : Nat := fieldAt e 0x20 4
def owCount (e : Bytes) : Nat := fieldAt e 0x24 4
def owStride (e : Bytes) : Int := signedOf 64 (fieldAt e 0x28 8)
def owName (e : Bytes) : Nat := fieldAt e 0x30 4

/-- The end of the space of a watch's source. -/
def owSpaceEnd : Nat → Nat
  | 0 => 2 ^ 48
  | 1 => 0x600000
  | _ => 0x100000

/-- The address of row `i` of a watch. -/
def owAddr (e : Bytes) (i : Nat) : Int := (owSrc e : Int) + (i : Int) * owStride e

/-- Whether an entry keeps R452. -/
def watchGood (t mask : Nat) (e : Bytes) (d : Dev) : Bool :=
  decide (1 ≤ owId e) && decide (owTile e < 128) && bitOf mask (owTile e) && bitsOf (owFlags e) 5 3 == 0 &&
  decide (owSource e < 3) && (if owPool e then ownsPool t (owCounter e) d else decide (owCounter e < 48)) &&
  fieldAt e 6 2 == 0 && allZero (e.drop 0x34) && (!owRepeat e || (decide (1 ≤ owInterval e) && decide (owInterval e ≤ 2 ^ 32))) &&
  owSrc e % 64 == 0 && owRow e % 64 == 0 && decide (64 ≤ owRow e) && decide (owRow e ≤ 16777216) &&
  decide (1 ≤ owCount e) && decide (owCount e ≤ 65536) && decide (owRow e * owCount e ≤ 64 * 2 ^ 20) &&
  decide (owStride e % 64 = 0) &&
  (let last := owAddr e (owCount e - 1)
   decide (0 ≤ last) && decide (last + (owRow e : Int) ≤ (owSpaceEnd (owSource e) : Int)) &&
   decide (owSrc e + owRow e ≤ owSpaceEnd (owSource e)))

/-- OBS_CONFIG with the watch ID, 0 for the area. -/
def obsConfig (t id : Nat) (d : Dev) : Dev := raiseT 4 evObsConfig 0 t d id

/-- OBS_FAULT: the tenant's observation is off until its next ARM (R460). -/
def obsFault (t : Nat) (d : Dev) : Dev := raiseT 4 evObsFault 0 t (modObs t (fun o => { o with on := false }) d)

/-- The snapshot that an accepted ARM takes: the block was read as `h` where `ok`. PROD of every enabled ring
becomes 0. -/
def obsArm (t mask : Nat) (ok : Bool) (h : Bytes) (d : Dev) : Dev :=
  let area := tenantGet t 0x0D d + 0x80000
  let n := fieldAt h 6 2
  let en := fieldAt h 8 1
  let rings := (List.range 4).map fun i => (i, ringOf h i)
  let off := modObs t (fun _ => {}) d
  if !ok || fieldAt h 0 4 != 0x534F584A || fieldAt h 4 2 != 1 || decide (120 < n) ||
      (rings.any fun p => bitOf en p.1 && !ringGood p.2) then obsConfig t 0 off
  else
    let entries := (List.range n).map fun j => (h.drop (0x200 + 64 * j)).take 64
    let ws := entries.map fun e =>
      ({ entry := e, step := owStep e, enabled := bitOf (owFlags e) 0 && watchGood t mask e d } : ObsWatch)
    let d1 := modObs t (fun _ => { on := true, enables := en, area := area,
                                   rings := rings.foldl (fun m p => Sparse.set {} m p.1 p.2) [], watches := ws, dailies := 0 }) d
    let d2 := entries.foldl (fun d e => if bitOf (owFlags e) 0 && !watchGood t mask e d then obsConfig t (owId e) d else d) d1
    let d3 := { d2 with tobs := d2.tobs.map fun p => if bitOf mask p.1 then (p.1, { p.2 with packets := 0 }) else p }
    rings.foldl (fun d p =>
      if bitOf en p.1 && (getObs t d).on then
        let w := vaWrite (dieTlb 0) t 0 (ringField area p.1 0x10) false (leBytes 8 0) d
        if w.1.done then w.2 else obsFault t w.2
      else d) d3

/-! ## Rings (R450) -/

/-- Whether a write of a stretch would meet an uncorrectable word it does not cover whole; such a write raises
OBS_FAULT and no other event (R447, R460). -/
def ringUe (t va n : Nat) (d : Dev) : Bool :=
  (pageChunks va n).any fun c => match (place (dieTlb 0) t 0 c.1 true d).1 with
    | .dev pa => (errsIn d.mem.err pa c.2).any fun p =>
        p.2 == 2 && !(decide (pa ≤ p.1 * 8) && decide (p.1 * 8 + 8 ≤ pa + c.2)) && !twinCurrent t c.1 d
    | _ => false

/-- A read for observation: an uncorrectable word is a fault of its own and raises nothing else. -/
def obsLook (t va n : Nat) (d : Dev) : Met × Bytes × Dev :=
  let r := vaRead (dieTlb 0) t 0 va n d
  if r.1 = .ue then (.ue, [], d) else r

/-- The same, with the host reads it needed used up. -/
def obsRead (t va n : Nat) (d : Dev) : Met × Bytes × Dev :=
  let r := obsLook t va n d
  if r.1 = .wait then r else (r.1, r.2.1, dropReads (tenantFn t d) r.2.2)

/-- A write for observation. -/
def obsWrite (t va : Nat) (bs : Bytes) (d : Dev) : Met × Dev :=
  if ringUe t va bs.length d then (.ue, d) else vaWrite (dieTlb 0) t 0 va false bs d

/-- How an attempt to put a record into a ring ended. -/
inductive RingMet where
  | written | noSpace | faulted | waits
  deriving DecidableEq, Repr

/-- Whether a ring has room for `n` more bytes: PROD + n - CONS against its size, CONS read at that moment. -/
def ringSpace (t ring n : Nat) (d : Dev) : RingMet × Dev :=
  let o := getObs t d
  let r := Sparse.get {} o.rings ring
  let c := obsRead t (ringField o.area ring 0x18) 8 d
  if c.1 = .wait then (.waits, c.2.2)
  else if c.1 ≠ .ok then (.faulted, c.2.2)
  else if (r.prod : Int) + (n : Int) - (leNat c.2.1 : Int) ≤ ((2 ^ r.log2 : Nat) : Int) then (.written, c.2.2)
  else (.noSpace, c.2.2)

/-- A record is dropped for want of ring space: counted, and OBS_DROP once per ring and run frame. -/
def ringDrop (t ring : Nat) (d : Dev) : Dev :=
  let frame := (getRun t d).index
  let d1 := obsCount 3 1 d
  if (Sparse.get {} (getObs t d1).rings ring).dropFrame = some frame then d1
  else raiseT 4 evObsDrop 0 t
    (modObs t (fun o => { o with rings := Sparse.modify {} o.rings ring fun r => { r with dropFrame := some frame } }) d1)

/-- The pieces of a record at PROD mod 2^LOG2, wrapping to BASE. -/
def ringPieces (r : ObsRing) (bs : Bytes) : List (Nat × Bytes) :=
  let at_ := r.prod % 2 ^ r.log2
  let n := 2 ^ r.log2 - at_
  [(r.base + at_, bs.take n), (r.base, bs.drop n)].filter fun p => !p.2.isEmpty

/-- The bytes of a record go to its ring; PROD does not move yet. -/
def ringBytes (t ring : Nat) (bs : Bytes) (d : Dev) : RingMet × Dev :=
  let r := Sparse.get {} (getObs t d).rings ring
  let w := (ringPieces r bs).foldl (fun acc p => if acc.1 = .ok then obsWrite t p.1 p.2 acc.2 else acc) (.ok, d)
  (if w.1 = .ok then .written else if w.1 = .wait then .waits else .faulted, w.2)

/-- Whether the bytes of a record meet the condition of R168, and PROD may move. -/
def ringSettled (t ring n : Nat) (d : Dev) : Bool :=
  let r := Sparse.get {} (getObs t d).rings ring
  let at_ := r.prod % 2 ^ r.log2
  !syncPending t (r.base + at_) (min n (2 ^ r.log2 - at_)) d &&
    (decide (at_ + n ≤ 2 ^ r.log2) || !syncPending t r.base (at_ + n - 2 ^ r.log2) d)

/-- PROD moves past a record. -/
def ringAdvance (t ring n : Nat) (d : Dev) : RingMet × Dev :=
  let o := getObs t d
  let r := Sparse.get {} o.rings ring
  let w := obsWrite t (ringField o.area ring 0x10) (leBytes 8 (r.prod + n)) d
  if w.1 = .ok then
    (.written, modObs t (fun o => { o with rings := Sparse.modify {} o.rings ring fun r => { r with prod := r.prod + n } }) w.2)
  else (if w.1 = .wait then .waits else .faulted, w.2)

/-! ## The drain (R451) -/

/-- The bytes of a staged record, and whether a word of it is uncorrectable. -/
def stagedRead (t : Nat) (s : Staged) (d : Dev) : Bytes × Bool × Dev :=
  (halfPieces t s.at_ (fillBytes s.len 0)).foldl (fun acc p =>
    let r := physRead p.1 p.2.length acc.2.2
    (acc.1 ++ r.1, acc.2.1 || r.2.1, r.2.2)) ([], false, d)

/-- The first staged record of a tile leaves the record half. -/
def unstage (t : Nat) (d : Dev) : Dev := modTObs t (fun x => { x with staged := x.staged.drop 1 }) d

/-- A staged record that meets an uncorrectable word is dropped and counted, with no event. -/
def stagedUe (t : Nat) (d : Dev) : Dev :=
  obsCount 3 1 (modTCount t (fun c => { c with corrected := bumpTable c.corrected 8 1 }) d)

/-- OBS_DRAIN: the first staged record of a tile goes to its ring; once its bytes have met their condition,
PROD follows. -/
def obsDrain (t : Nat) (d : Dev) : Dev :=
  match (getTObs t d).staged with
  | [] => d
  | s :: _ =>
    if (getObs s.tenant d).on = false then unstage t (obsCount 3 1 d)
    else if s.written then
      if ringSettled s.tenant s.ring s.len d then
        let a := ringAdvance s.tenant s.ring s.len d
        match a.1 with
        | .written => unstage t (if s.ring = 2 then obsCount 1 1 a.2 else a.2)
        | .waits => a.2
        | _ => unstage t (obsFault s.tenant (obsCount 3 1 a.2))
      else d
    else
      let b := stagedRead t s d
      if b.2.1 then unstage t (stagedUe t b.2.2)
      else
        let sp := ringSpace s.tenant s.ring s.len b.2.2
        match sp.1 with
        | .waits => sp.2
        | .noSpace => unstage t (ringDrop s.tenant s.ring sp.2)
        | .faulted => unstage t (obsFault s.tenant (obsCount 3 1 sp.2))
        | .written =>
          let w := ringBytes s.tenant s.ring b.1 sp.2
          match w.1 with
          | .written => modTObs t (fun x => { x with staged := { s with written := true } :: x.staged.drop 1 }) w.2
          | .waits => w.2
          | _ => unstage t (obsFault s.tenant (obsCount 3 1 w.2))

/-! ## Dailies (R452 to R456) -/

/-- A row of a capture is read. -/
def captureRow (c : Capture) (i : Nat) (d : Dev) : Met × Bytes × Dev :=
  let e := c.entry
  let a := (owAddr e i).toNat
  match owSource e with
  | 0 => obsRead c.tenant a (owRow e) d
  | 1 =>
    let r := physRead (scratchAddr (owTile e) a) (owRow e) d
    (.ok, r.1, r.2.2)
  | _ =>
    let r := physRead (accAddr (owTile e) a) (owRow e) d
    (.ok, r.1, r.2.2)

/-- The data of a capture: its rows in ascending order. -/
def captureData (c : Capture) (d : Dev) : Met × Bytes × Dev :=
  (List.range (owCount c.entry)).foldl (fun acc i =>
    if acc.1 = .ok then
      let r := captureRow c i acc.2.2
      (r.1, acc.2.1 ++ r.2.1, r.2.2)
    else acc) (.ok, [], d)

/-- The bytes of a capture's record. -/
def captureLen (e : Bytes) : Nat := 64 + owRow e * owCount e

/-- The daily header (Table 21.3). -/
def dailyHeader (c : Capture) (data : Bytes) : Bytes :=
  leBytes 2 (owId c.entry) ++ leBytes 1 (owTile c.entry) ++ [0] ++ leBytes 4 (owName c.entry) ++ leBytes 8 c.value ++
    leBytes 8 c.runFrame ++ leBytes 8 (c.frame % 2 ^ 48) ++ leBytes 4 data.length ++ leBytes 4 (crc32c data) ++
    leBytes 8 c.seq ++ c.stamp

/-- The first capture of a tile is over. -/
def endCapture (t : Nat) (d : Dev) : Dev := modTObs t (fun x => { x with captures := x.captures.drop 1 }) d

/-- CAPTURE_COMPLETE: the first capture of a tile has read its rows; its record goes to the dailies ring, and
PROD follows once the bytes have met their condition. -/
def captureComplete (t : Nat) (d : Dev) : Dev :=
  match (getTObs t d).captures with
  | [] => d
  | c :: _ =>
    let n := captureLen c.entry
    if (getObs c.tenant d).on = false then endCapture t (obsCount 3 1 d)
    else if c.written then
      if ringSettled c.tenant 0 n d then
        let a := ringAdvance c.tenant 0 n d
        match a.1 with
        | .written => endCapture t (obsCount 2 1 a.2)
        | .waits => a.2
        | _ => endCapture t (obsFault c.tenant (obsCount 3 1 a.2))
      else d
    else
      let sp := ringSpace c.tenant 0 n d
      match sp.1 with
      | .waits => sp.2
      | .noSpace => endCapture t (ringDrop c.tenant 0 sp.2)
      | .faulted => endCapture t (obsFault c.tenant (obsCount 3 1 sp.2))
      | .written =>
        let r := captureData c sp.2
        if r.1 = .wait then r.2.2
        else if r.1 ≠ .ok then endCapture t (obsFault c.tenant (obsCount 3 1 r.2.2))
        else
          let w := ringBytes c.tenant 0 (dailyHeader c r.2.1 ++ r.2.1) r.2.2
          match w.1 with
          | .written => modTObs t (fun x => { x with captures := { c with written := true } :: x.captures.drop 1 }) w.2
          | .waits => w.2
          | _ => endCapture t (obsFault c.tenant (obsCount 3 1 w.2))

/-- Whether a capture of a tile still holds its next segment: one that has not read its last byte (R455).
`local_` asks for the scratch and accumulator captures of tenant `t` alone. -/
def captureHolds (tile : Nat) (d : Dev) : Bool := (getTObs tile d).captures.any fun c => !c.written
def localCapture (tile t : Nat) (d : Dev) : Bool :=
  (getTObs tile d).captures.any fun c => !c.written && c.tenant == t && owSource c.entry != 0

/-- OBS_HOLD, once for a run frame in which a capture holds a segment start (R455). -/
def raiseObsHold (tile t frame : Nat) (d : Dev) : Dev :=
  if (getTObs tile d).held = some frame then d
  else raiseT 4 evObsHold (srcTile tile) t (modTObs tile (fun x => { x with held := some frame }) d)

/-- STEP after a firing at counter value `v`: raised by INTERVAL until it exceeds `v` (R453). -/
def stepAfter (step interval v : Nat) : Nat := step + (v - step) / interval * interval + interval

/-- One watch is evaluated at the finish of its tile's segment. -/
def evalWatch (tile : Nat) (g : Segment) (j : Nat) (d : Dev) : Dev :=
  match (getObs g.tenant d).watches[j]? with
  | none => d
  | some w =>
    if w.enabled && owTile w.entry == tile then
      let r := if owPool w.entry then poolRead (owCounter w.entry) d else localRead tile (owCounter w.entry) d
      if w.step ≤ r.1 then
        let w1 : ObsWatch := if owRepeat w.entry then { w with step := stepAfter w.step (owInterval w.entry) r.1 }
          else { w with enabled := false }
        let d1 := modObs g.tenant (fun o => { o with watches := o.watches.set j w1 }) r.2
        let sp := ringSpace g.tenant 0 (captureLen w.entry) d1
        match sp.1 with
        | .noSpace => ringDrop g.tenant 0 sp.2
        | .faulted => obsFault g.tenant (obsCount 3 1 sp.2)
        | _ =>
          let seq := (getObs g.tenant sp.2).dailies
          let c : Capture := { tenant := g.tenant, ctx := g.ctx, entry := w.entry, value := r.1, runFrame := g.runFrame,
                               frame := sp.2.clk.frame, stamp := stampNow g.tenant 0 1 0 sp.2, seq := seq }
          modObs g.tenant (fun o => { o with dailies := seq + 1 })
            (modTObs tile (fun x => { x with captures := x.captures ++ [c] }) sp.2)
      else r.2
    else d

/-- WATCH_EVALUATION at the finish of an observation-frame segment of the device's own rank (R453, R460). -/
def watchEvaluation (tile : Nat) (g : Segment) (d : Dev) : Dev :=
  if dictGet 0x7800 4 d = 1 ∧ g.observed ∧ g.ctx = 0 ∧ obsEnabled g.tenant 0 d ∧ (getRun g.tenant d).running then
    (List.range (getObs g.tenant d).watches.length).foldl (fun d j => evalWatch tile g j d) d
  else d

/-! ## Activity (R459) -/

/-- The state of an engine for words of a rank context (Table 6.14): the lowest code above 0 that applies.
Stalls by scratch arbitration are timing the model leaves out. -/
def headState (t e ctx : Nat) (d : Dev) : Nat :=
  let q := (queueOf t e d).filter fun w => w.ctx == ctx
  let x := (execOf t e d).filter fun w => w.ctx == ctx
  let waits := match q.head? with
    | some w => wWctr w.word != 63 && (localPoisoned t (wWctr w.word) d || decide (localValue t (wWctr w.word) d < w.snap))
    | none => false
  if waits then 1
  else if x.any fun w => w.phase == .waitCue || w.phase == .deferred then 2
  else if !x.isEmpty then 4
  else if q.isEmpty then 0
  else if e = 4 ∨ e = 6 then 6 else 4

/-- The place of a count: rank context, engine, and 0 busy, 1 scratch stall, 2 counter wait, 3 cue wait. -/
def activityKey (ctx e k : Nat) : Nat := ctx * 32 + e * 4 + k

/-- The count that a head state adds to. -/
def activityOf : Nat → Option Nat
  | 4 => some 0
  | 1 => some 2
  | 2 => some 3
  | _ => none

/-- `n` cycles pass on a tile. -/
def countTile (n t : Nat) (d : Dev) : Dev :=
  [0, 1].foldl (fun d ctx => (List.range 7).foldl (fun d e =>
    match activityOf (headState t e ctx d) with
    | some k => modTObs t (fun x => { x with activity := Sparse.modify 0 x.activity (activityKey ctx e k) (· + n) }) d
    | none => d) d) d

/-- `n` cycles pass: the activity counters of every tile that has words count them. -/
def countActivity (n : Nat) (d : Dev) : Dev := if n = 0 then d else (d.tiles.map (·.1)).foldl (fun d t => countTile n t d) d

/-- The activity record of a finished segment (Table 21.7). -/
def activityRecord (tile : Nat) (g : Segment) (d : Dev) : Bytes :=
  let x := getTObs tile d
  leBytes 1 tile ++ leBytes 1 g.ctx ++ leBytes 6 (d.clk.frame % 2 ^ 48) ++ leBytes 8 g.runFrame ++
    (List.range 7).flatMap fun e => (List.range 4).flatMap fun k =>
      leBytes 4 (min (2 ^ 32 - 1) (Sparse.get 0 x.activity (activityKey g.ctx e k)))

/-- ACTIVITY_RECORD at the finish of an observation-frame segment. -/
def emitActivity (tile : Nat) (g : Segment) (d : Dev) : Dev :=
  if g.observed ∧ obsEnabled g.tenant 3 d ∧ (getRun g.tenant d).running then
    stageRecord tile g.tenant 3 (activityRecord tile g d) d
  else d

/-- The counts of a rank context start at 0 with each segment. -/
def clearActivity (tile ctx : Nat) (d : Dev) : Dev :=
  modTObs tile (fun x => { x with activity := x.activity.filter fun p => p.1 / 32 != ctx }) d

/-! ## PC sampling (R457) -/

/-- The core code of a tile (Table 6.13): 10 throughout a switch (R347), else the lowest above 0 that applies. -/
def coreCode (t : Nat) (d : Dev) : Nat :=
  let x := getTile t d
  if x.switchTo.isSome then 10
  else
    match x.seg with
    | none => 8
    | some g =>
      if g.ended then (if enginesDone t 127 d then 8 else 7)
      else if x.wait ≠ .free then waitCode x.wait
      else if x.stopped then 11 else 0

/-- The sample record (Table 21.4). -/
def sampleRecord (t : Nat) (d : Dev) : Bytes :=
  let x := getTile t d
  let code := coreCode t d
  let idle := code == 8
  let ctx := match x.seg with | some g => g.ctx | none => 0
  let segcyc := match x.seg with | some g => ccNow d - g.startedAt | none => 0
  leBytes 16 ((if idle then 0 else x.pc / 4 % 65536) + code * 2 ^ 16 +
    (List.range 7).foldl (fun n e => n + headState t e ctx d * 2 ^ (3 * e + 20)) 0 + t * 2 ^ 41 + ctx * 2 ^ 48 +
    (if idle then 0 else segcyc % 2 ^ 32) * 2 ^ 64 + d.clk.frame % 2 ^ 32 * 2 ^ 96)

/-- PC_SAMPLE of a tile: one sample in a cycle whose number is a multiple of 2^n. -/
def pcSample (t : Nat) (d : Dev) : Dev :=
  let cc := ccNow d
  let owner := (getTile t d).owner
  if bitOf (dictGet 0x7800 2 d) t ∧ cc % 2 ^ dictGet 0x7800 1 d = 0 ∧ (getTObs t d).sampledAt ≠ cc + 1 then
    let d1 := obsCount 0 1 (modTObs t (fun x => { x with sampledAt := cc + 1 }) d)
    if obsEnabled owner 1 d1 then stageRecord t owner 1 (sampleRecord t d1) d1 else obsCount 3 1 d1
  else d

/-! ## Teardown (R460) -/

/-- At the teardown tick the tenant's staged records are discarded and counted, and its captures stop. -/
def obsTeardown (t : Nat) (d : Dev) : Dev :=
  let d1 := d.tobs.foldl (fun d p =>
    let gone := (p.2.staged.filter fun s => s.tenant == t).length + (p.2.captures.filter fun c => c.tenant == t).length
    obsCount 3 gone (modTObs p.1 (fun x => { x with staged := x.staged.filter (fun s => s.tenant != t),
                                                    captures := x.captures.filter (fun c => c.tenant != t) }) d)) d
  modObs t (fun _ => {}) d1

/-! ## The rows -/

def execPcSample (tile : Nat) (s : State) : Host.Outcome State Fault Refusal := onTile tile (pcSample tile) s
def execObsDrain (tile : Nat) (s : State) : Host.Outcome State Fault Refusal := onTile tile (obsDrain tile) s

end Sys2Proof.Machine
end

