-- ==== Sys2Proof/Machine/Power.lean ====
section
/-!
DEFINITION. Power cues and thermal control (chapter 16): the frame budget, planned accounts, cue requests and
grants, ramps, grant holds, sensors and the trip. Energies are in units of 0.25 uJ; a credit is 4,000 of them.
-/
namespace Sys2Proof.Machine

/-- One credit, 1 mJ. -/
def credit : Nat := 4000

def bumpPow (i : Nat) (d : Dev) : Dev := { d with pow.counts := bumpTable d.pow.counts i 1 }

/-! ## The frame budget (R362 to R364) -/

/-- The cue pool in credits for a package limit and base allowance in watts. -/
def poolCredits (pl pb : Nat) (d : Dev) : Nat := (pl - pb) * 2 ^ periodK d / 1000
/-- The cue pool at the values in effect. -/
def poolNow (d : Dev) : Nat := poolCredits (dictGet 0x3000 1 d) (dictGet 0x3000 2 d) d

/-- E_r of a run frame of a rank context, in credits. -/
def frameEnergy (t ctx r : Nat) (d : Dev) : Nat :=
  let e := frameEntryOf t ctx r d
  if e.1.done && !e.2.1.isEmpty then entryEnergy e.2.1 else 0

/-- E_r of the present run frame of tenant `t`; with a taken-over rank that runs, the sum of both. -/
def plannedEnergy (t : Nat) (d : Dev) : Nat :=
  let r := (getRun t d).index
  frameEnergy t 0 r d + (if d.twin.taken.any fun x => x.tenant == t && x.resumed then frameEnergy t 1 r d else 0)

/-- What a Running run reserves in a building frame: E_r over its effective factor, rounded up. -/
def reservation (t : Nat) (d : Dev) : Nat :=
  let r := getRun t d
  if r.running && !r.idle then (plannedEnergy t d + r.factor - 1) / max 1 r.factor else 0
def reservations (d : Dev) : Nat := (runTenants d).foldl (fun n t => n + reservation t d) 0

/-- Whether a PL and a PB leave room for the peak of every Armed and Running run (R364). -/
def powerAllowed (pl pb : Nat) (d : Dev) : Bool :=
  decide ((d.runs.filter fun p => p.2.state == .armed || p.2.running).foldl (fun n p =>
    let s := if p.2.state = .armed then 1 else max 1 p.2.factor
    n + (p.2.con.peak + s - 1) / s) 0 ≤ poolCredits pl pb d)

/-- The planned account of a run opens with E_r credits; what floats held returns first (R363, R366). -/
def openAccount (t : Nat) (d : Dev) : Dev :=
  let d1 := { d with pow.floats := d.pow.floats.filter fun p => p.1 % 1024 != t }
  modRun t (fun r => { r with account := plannedEnergy t d1 * credit, overdrawn := false }) d1

/-- The run's account and floats are released (R369). -/
def closeAccount (t : Nat) (d : Dev) : Dev :=
  modRun t (fun r => { r with account := 0 }) { d with pow.floats := d.pow.floats.filter fun p => p.1 % 1024 != t }

/-! ## Charges and requests (R365, R366) -/

/-- The charge of a cue class. -/
def classCharge (c : Nat) : Nat := 4 ^ c

/-- A word's charge: n times the class charge for a sequencer word. -/
def wordCharge (w : BitVec 128) : Nat := if wEng w = 4 then (wField w 82 12 + 1) * classCharge (wCueCls w) else classCharge (wCueCls w)

/-- Whether a word's charge exceeds 16 credits (R365). -/
def chargeBad (w : BitVec 128) : Bool := decide (16 * credit < wordCharge w)

def floatKey (tile t : Nat) : Nat := tile * 1024 + t

/-- A word in execution is granted its cue. -/
def markGranted (tile eng number : Nat) (d : Dev) : Dev :=
  modExec tile eng number (fun q => { q with phase := .granted }) d

/-- Whether the engine that a compute word drives is idle, so that a grant starts a ramp (R367). -/
def engineIdle (tile eng : Nat) (d : Dev) : Bool := if eng = 1 then !(getTile tile d).mvBusy else !(getTile tile d).arrayBusy

/-- Tiles of a die that began a ramp in the last 16 cc. -/
def recentRamps (die : Nat) (d : Dev) : Nat :=
  (d.pow.ramps.filter fun r => r.1 / 64 == die && decide (ccNow d < r.2 + 16)).length

/-- A ramp begins: the engine is no longer idle. -/
def beginRamp (tile eng : Nat) (d : Dev) : Dev :=
  modTile tile (fun x => if eng = 1 then { x with mvBusy := true, mvAt := ccNow d } else { x with arrayBusy := true, arrayAt := ccNow d })
    { d with pow.ramps := (d.pow.ramps.filter fun r => decide (ccNow d < r.2 + 16)) ++ [(tile, ccNow d)] }

/-- A grant is made: at once, with a ramp where the engine is idle, or deferred by the ramp limit. -/
def giveGrant (r : CueReq) (d : Dev) : Dev :=
  if engineIdle r.tile r.eng d then
    if recentRamps (r.tile / 64) d < 4 then markGranted r.tile r.eng r.number (beginRamp r.tile r.eng d)
    else modExec r.tile r.eng r.number (fun q => { q with phase := .deferred })
      (bumpPow 3 { d with pow.deferred := d.pow.deferred ++ [r] })
  else markGranted r.tile r.eng r.number d

/-- A request joins the headroom queue of its tenant's class. -/
def joinQueue (r : CueReq) (d : Dev) : Dev :=
  match classOf r.tenant d with
  | 2 => { d with pow.urgent := d.pow.urgent ++ [r] }
  | 1 => { d with pow.planned := d.pow.planned ++ [r] }
  | _ => { d with pow.bulk := d.pow.bulk ++ [r] }

/-- What a tile's float lacks for a charge, in whole lots of 1 credit. -/
def lotsFor (have_ charge : Nat) : Nat := if charge ≤ have_ then 0 else (charge - have_ + credit - 1) / credit * credit

/-- A planned request is served from the float and the account; where the account is exhausted it joins the
headroom queue, and CUE_OVERDRAW is raised once per run frame. -/
def servePlanned (r : CueReq) (d : Dev) : Dev :=
  let k := floatKey r.tile r.tenant
  let have_ := Sparse.get 0 d.pow.floats k
  let run := getRun r.tenant d
  let lots := lotsFor have_ r.charge
  if run.running ∧ lots ≤ run.account then
    giveGrant r (bumpPow 0 (modRun r.tenant (fun x => { x with account := x.account - lots })
      { d with pow.floats := Sparse.set 0 d.pow.floats k (have_ + lots - r.charge) }))
  else
    let d1 := joinQueue r (bumpPow 2 d)
    if run.running ∧ run.overdrawn = false then
      modRun r.tenant (fun x => { x with overdrawn := true }) (raiseT 4 evCueOverdraw (srcTile r.tile) r.tenant d1)
    else d1

/-- A word that has just dispatched requests its cue. A float that covers the charge grants at once unless every
grant is held. -/
def requestCue (tile eng : Nat) (q : QWord) (d : Dev) : Dev :=
  let r : CueReq := { tile := tile, eng := eng, number := q.number, tenant := q.tenant, charge := wordCharge q.word }
  if wPlan q.word then
    if d.pow.holdAll then { d with pow.fromAccount := d.pow.fromAccount ++ [r] }
    else if lotsFor (Sparse.get 0 d.pow.floats (floatKey tile q.tenant)) r.charge = 0 then servePlanned r d
    else { d with pow.fromAccount := d.pow.fromAccount ++ [r] }
  else joinQueue r d

/-- The request a headroom grant would serve, with the queues without it. -/
def headroomHead (p : Power) : Option (CueReq × Power) :=
  match p.urgent, p.planned, p.bulk with
  | r :: rs, _, _ => some (r, { p with urgent := rs })
  | [], r :: rs, _ => some (r, { p with planned := rs })
  | [], [], r :: rs => some (r, { p with bulk := rs })
  | [], [], [] => none

/-- CUE_GRANT: the first planned request that waits for a lot is served; else one headroom grant is made, at
most every 8 fc. A head that the headroom cannot cover blocks. -/
def cueGrant (d : Dev) : Dev :=
  match (if d.pow.holdAll then [] else d.pow.fromAccount) with
  | r :: rs => servePlanned r { d with pow.fromAccount := rs }
  | [] =>
    if d.pow.holdAll || d.pow.holdHeadroom || (match d.pow.lastGrant with | some t => decide (d.now < t + 8 * tFc) | none => false) then d
    else
      match headroomHead d.pow with
      | none => d
      | some (r, p) =>
        if (r.charge : Int) ≤ d.pow.headroom then
          giveGrant r (bumpPow 1 { d with pow := { p with headroom := p.headroom - (r.charge : Int), lastGrant := some d.now } })
        else d

/-- DEFERRED_RAMP_RELEASE: the deferred grant of the lowest tile whose die may begin a ramp is released. -/
def deferredRampRelease (d : Dev) : Dev :=
  let able := d.pow.deferred.filter fun r => decide (recentRamps (r.tile / 64) d < 4)
  match able with
  | [] => d
  | x :: xs =>
    let r := xs.foldl (fun b y => if y.tile < b.tile then y else b) x
    markGranted r.tile r.eng r.number (beginRamp r.tile r.eng { d with pow.deferred := d.pow.deferred.filter (· != r) })

/-- ARRAY_IDLE: an engine of a tile that no row has entered for 1,024 cc becomes idle (R62, R67). -/
def arrayIdle (tile : Nat) (d : Dev) : Dev :=
  modTile tile (fun x =>
    { x with
      arrayBusy := x.arrayBusy && decide (ccNow d < x.arrayAt + 1024)
      mvBusy := x.mvBusy && decide (ccNow d < x.mvAt + 1024) }) d

/-- R369: at the tick at which a run halts, its words that wait for a cue are granted ahead of every queue; the
headroom, which is that of the new frame (`haltCharge` carries it over the rest of the tick), may go negative. -/
def haltGrants (t : Nat) (d : Dev) : Dev :=
  let mine := (d.pow.fromAccount ++ d.pow.urgent ++ d.pow.planned ++ d.pow.bulk).filter fun r => r.tenant == t
  let p := d.pow
  mine.foldl (fun d r => giveGrant r (bumpPow 1 { d with
      pow.headroom := d.pow.headroom - (r.charge : Int), pow.haltCharge := d.pow.haltCharge + r.charge }))
    { d with
      pow.fromAccount := p.fromAccount.filter fun r => r.tenant != t
      pow.urgent := p.urgent.filter fun r => r.tenant != t
      pow.planned := p.planned.filter fun r => r.tenant != t
      pow.bulk := p.bulk.filter fun r => r.tenant != t }

/-- Requests of a tenant are discarded at its teardown (R369). -/
def dropCues (t : Nat) (d : Dev) : Dev :=
  let p := d.pow
  { d with
    pow.fromAccount := p.fromAccount.filter fun r => r.tenant != t
    pow.urgent := p.urgent.filter fun r => r.tenant != t
    pow.planned := p.planned.filter fun r => r.tenant != t
    pow.bulk := p.bulk.filter fun r => r.tenant != t
    pow.deferred := p.deferred.filter fun r => r.tenant != t }

/-! ## The power monitor (R368) -/

/-- POWER_MONITOR_SAMPLE: the 10 us average is `mw` milliwatts. Each sample stands for 1 us of energy. -/
def powerMonitorSample (mw : Nat) (d : Dev) : Dev :=
  let pl := dictGet 0x3000 1 d * 1000
  let below := if mw < pl then (match d.pow.belowSince with | some t => some t | none => some d.now) else none
  let ended := match below with
    | some t => decide (t + 10 * tUs ≤ d.now)
    | none => false
  let exceeds := decide (pl * 105 < mw * 100)
  let overAll := decide (pl * 110 < mw * 100)
  let begins := (exceeds && !d.pow.holdHeadroom) || (overAll && !d.pow.holdAll)
  let d1 := { d with
    pow.avgMw := mw
    pow.energy := d.pow.energy + mw
    pow.belowSince := below
    pow.holdHeadroom := exceeds || (d.pow.holdHeadroom && !ended)
    pow.holdAll := overAll || (d.pow.holdAll && !ended) }
  if begins && !d.pow.holdRaised then raise 4 evPowerHold 0 (bumpPow 4 { d1 with pow.holdRaised := true })
  else if begins then bumpPow 4 d1 else d1

/-! ## Sensors (R370, R373) -/

/-- Insertion into an ascending list. -/
def insertSorted (x : Int) : List Int → List Int
  | [] => [x]
  | y :: ys => if x ≤ y then x :: y :: ys else y :: insertSorted x ys

/-- Twice the median: the sum of the middle two for an even count. -/
def medianTwice (l : List Int) : Int :=
  let s := l.foldl (fun a x => insertSorted x a) []
  if s.length % 2 = 0 then s.getD (s.length / 2 - 1) 0 + s.getD (s.length / 2) 0 else 2 * s.getD (s.length / 2) 0

/-- The sensors of a die that are not excluded. -/
def dieSensors (die : Nat) (d : Dev) : List Nat :=
  (List.range 16).filter fun s => !Sparse.get false d.pow.excluded (die * 16 + s)

/-- A sensor is excluded until the next cold reset. -/
def excludeSensor (die s : Nat) (d : Dev) : Dev :=
  raise 4 evSensorFault (srcSensor die s)
    (bumpPow 7 { d with pow.excluded := Sparse.set false d.pow.excluded (die * 16 + s) true })

/-- The device trips (R373). -/
def thermalTrip (source : Nat) (d : Dev) : Dev :=
  raiseFatal evThermalTrip source { d with pow.tripped := true, boot.tripLatch := true, clk.ccBase := ccNow d, clk.stopped := true }

/-- A maximum kept over a frame. -/
def maxOpt (a : Option Int) (x : Int) : Option Int := some (match a with | some y => max x y | none => x)

/-- SENSOR_READ (a die's Tj of the frame is kept plus 1,000, so that 0 says none yet): the 16 junction sensors of a die read `temps`, and the HBM stackTemps `stackTemps`, in 0.1 C. `hotSince` keeps, plus 1, when each sensor's readings
reached 112 C. -/
def sensorRead (die : Nat) (temps stackTemps : List Int) (d : Dev) : Dev :=
  let act := dieSensors die d
  let med := medianTwice (act.map fun s => temps.getD s 0)
  let bad (s : Nat) : Bool :=
    let x := temps.getD s 0
    decide (x < -400) || decide (1500 < x) || decide (300 < (2 * x - med).natAbs)
  let d1 := (act.filter bad).foldl (fun d s => excludeSensor die s d) d
  let good := act.filter fun s => !bad s
  let emergency : Int := (dictGet 0x3000 4 d : Int) * 10
  let tj : Int := if good.length < 8 then emergency else
    (good.map fun s => temps.getD s 0).foldl max (-400)
  let hot := good.filter fun s => decide (1120 ≤ temps.getD s 0)
  let since (s : Nat) : Nat := Sparse.get 0 d.pow.hotSince (die * 16 + s)
  let d2 := { d1 with
    pow.sensors := (List.range 16).foldl (fun m s => Sparse.set 0 m (die * 16 + s) (temps.getD s 0)) d1.pow.sensors
    pow.tj := maxOpt d1.pow.tj tj
    pow.tjDie := Sparse.set 0 d1.pow.tjDie die (max (tj + 1000) (Sparse.get 0 d1.pow.tjDie die))
    pow.stackTemps := (List.range stackTemps.length).foldl (fun m s => Sparse.set 0 m s (stackTemps.getD s 0)) d1.pow.stackTemps
    pow.thbm := stackTemps.foldl (fun m x => maxOpt m x) d1.pow.thbm
    pow.hotSince := (List.range 16).foldl (fun m s =>
      Sparse.set 0 m (die * 16 + s) (if hot.contains s then (if since s = 0 then d.now + 1 else since s) else 0)) d1.pow.hotSince }
  match hot.find? fun s => since s != 0 && decide (since s + 10 * tUs ≤ d.now + 1) with
  | some _ => if d.pow.tripped then d2 else thermalTrip 0 d2
  | none => d2

/-! ## The SOURCE 1 level (R371) -/

/-- Table 16.3 at a tick, from the frame just ended. -/
def thermalLevel (d : Dev) : Dev :=
  let thr : Int := (dictGet 0x3000 3 d : Int) * 10
  let emg : Int := (dictGet 0x3000 4 d : Int) * 10
  let old := d.pow.thermal
  let tj := d.pow.tj.getD (-400)
  let th := d.pow.thbm.getD (-400)
  let cool := if tj < thr - 30 then d.pow.coolFrames + 1 else 0
  let release := decide (dictGet 0x3000 5 d ≤ cool)
  let new : Nat := if emg ≤ tj ∨ 950 ≤ th then min 5 (old + 1) else if thr ≤ tj then max old 1 else if release then old - 1 else old
  let d1 := { d with
    pow.thermal := new
    pow.coolFrames := if emg ≤ tj ∨ 950 ≤ th ∨ release then 0 else cool
    pow.tjDie := (List.range 2).foldl (fun m i => Sparse.set 0 (Sparse.set 0 m (2 + i) (Sparse.get 0 m i)) i 0) d.pow.tjDie
    pow.tj := none, pow.thbm := none }
  if old = 0 ∧ 0 < new then
    raise 4 (if emg ≤ tj ∨ 950 ≤ th then evThermalEmergency else evThermalWarn) 0 (bumpPow 6 d1)
  else if old < new then bumpPow 6 d1 else d1

/-- The smallest level at which the peaks of the Running runs fit the pool. -/
def powerFit (d : Dev) : Option Nat :=
  (List.range 6).find? fun l => decide ((d.runs.filter fun p => p.2.running).foldl (fun n p =>
    n + (p.2.con.peak + 2 ^ l - 1) / 2 ^ l) 0 ≤ poolNow d)

/-- The power level and the frame's pool, reservations and headroom; POWER_OVERCOMMIT once where either the
peaks do not fit at level 5 or the reservations exceed the pool. -/
def powerLevel (d : Dev) : Dev :=
  let c := poolNow d
  let res := reservations d
  let fit := powerFit d
  let base := fit.getD 5
  let exceeds := decide (c < res)
  let d1 := { d with
    pow.pool := c
    pow.reserved := res
    pow.powerLevel := if exceeds then min 5 (base + 1) else base
    pow.headroom := (((c - res) * credit : Nat) : Int) - d.pow.haltCharge
    pow.haltCharge := 0
    pow.holdRaised := false }
  let d2 := if exceeds || fit.isNone then raise 4 evPowerOvercommit 0 (bumpPow 5 d1) else d1
  d2

/-- The SOURCE 1 level. -/
def sourceLevel (d : Dev) : Nat := max d.pow.thermal d.pow.powerLevel

/-! ## The commands -/

def execCueGrant (s : State) : Host.Outcome State Fault Refusal := onDev true cueGrant s
def execDeferredRampRelease (s : State) : Host.Outcome State Fault Refusal := onDev true deferredRampRelease s
def execArrayIdle (tile : Nat) (s : State) : Host.Outcome State Fault Refusal := onTile tile (arrayIdle tile) s
def execPowerMonitorSample (mw : Nat) (s : State) : Host.Outcome State Fault Refusal := onDev true (powerMonitorSample mw) s
def execSensorRead (die : Nat) (temps stackTemps : List Int) (s : State) : Host.Outcome State Fault Refusal :=
  onDev (decide (die < 2)) (sensorRead die temps stackTemps) s

end Sys2Proof.Machine
end

