-- ==== Sys2Proof/Machine/Matrix.lean ====
section
/-!
DEFINITION. The matrix array and the matrix-vector unit (chapters 3 and 4): segment sums, column results,
weights, the operand checks and the commits.
-/
namespace Sys2Proof.Machine

/-! ## Segments and columns (R81 to R88, R93) -/

/-- The operand class of a pair (Table 4.2): h, so that a segment holds 2^h results and e is 2^(h - 3). -/
def classH (a b : Nat) : Nat :=
  let rank (c : Nat) : Nat := if c ≤ 2 then 3 else if c = 9 then 5 else 4
  min (rank a) (rank b)
def classK (h : Nat) : Nat := 16 * 2 ^ h

/-- An element result of modes 0 to 2, and the exact sum of modes 3 and 4 (Tables 3.5 and 3.6). -/
def elemResult (mode : Nat) (a b : Num) : Num :=
  match mode with
  | 0 => a.mul b
  | 1 => (a.add b.neg).abs
  | 2 => let x := a.add b.neg; x.mul x
  | _ => a.add b

/-- A list in pieces of `n`. -/
def pieces {α : Type} (n : Nat) (l : List α) : List (List α) :=
  (List.range ((l.length + n - 1) / n)).map fun i => (l.drop (i * n)).take n

/-- floor(log2) of the largest non-zero element result. -/
def topLog (ps : List Num) : Option Int :=
  ps.foldl (fun m p => match p with
    | .fin _ k e => if k = 0 then m else some (match m with | none => floorLog2 k e | some x => max x (floorLog2 k e))
    | _ => m) none

/-- The fixed-point sum of a segment without special results (R84). -/
def fixedSum (h : Nat) (ps : List Num) : Num :=
  match topLog ps with
  | none => .fin (ps.all Num.isNeg) 0 0
  | some top =>
    let u := top - 19 + (h : Int)
    let s := ps.foldl (fun (s : Int) p => match p with
      | .fin n k e => let q : Int := (scaleFloor k e u : Nat); if n then s - q else s + q
      | _ => s) 0
    if s = 0 then .zero else .fin (decide (s < 0)) s.natAbs u

/-- Promotion of a non-special segment sum under a scale exponent (R85). -/
def promote (x : Int) : Num → Num
  | .fin n k e =>
    if k = 0 then .fin n k e
    else if 128 ≤ floorLog2 k (e + x) then .inf n
    else if floorLog2 k (e + x) < -126 then .fin n 0 0
    else .fin n k (e + x)
  | v => v

/-- The promoted value of a segment; `x` is the sum of the two scale exponents, none where a scale is 0xFF. -/
def segmentValue (h : Nat) (ps : List Num) (x : Option Int) : Num :=
  match x with
  | none => .nan
  | some x =>
    let pos := ps.any (· == .inf false)
    let neg := ps.any (· == .inf true)
    if ps.any Num.isNan || (pos && neg) then .nan
    else if pos then .inf false
    else if neg then .inf true
    else promote x (fixedSum h ps)

/-- The scale exponent of a scale byte. -/
def scaleExp (b : Nat) : Option Int := if b = 255 then none else some ((b : Int) - 127)

/-- The column result of modes 0 to 2: promoted segments added in ascending order (R87). `sa` and `sb` are the
scale bytes of the 32-element blocks, empty for an operand that is not MX. -/
def columnSum (mode h : Nat) (as bs : List Num) (sa sb : List Nat) : Num :=
  let ps := (as.zip bs).map fun p => elemResult mode p.1 p.2
  let n := 2 ^ h
  let exp (l : List Nat) (s : Nat) : Option Int := if l.isEmpty then some 0 else scaleExp (l.getD (s * n / 32) 127)
  let segs := pieces n ps
  let vs := (List.range segs.length).map fun s =>
    segmentValue h (segs.getD s []) (match exp sa s, exp sb s with | some x, some y => some (x + y) | _, _ => none)
  match vs with
  | [] => .zero
  | v :: vs => vs.foldl add32 v

/-- The winner of modes 3 and 4 with its index (R93). -/
def columnWinner (mode ibase : Nat) (as bs : List Num) : Num × Nat :=
  let es := (as.zip bs).map fun p => flush (round32 .nearest (elemResult mode p.1 p.2))
  let cs := (List.range es.length).map fun k => (es.getD k .zero, (ibase + k) % 65536)
  match cs with
  | [] => (.zero, 0)
  | c :: cs => cs.foldl (pickWinner (mode == 4)) c

/-! ## Operands in scratch (R59) -/

/-- The elements of a packed row as encodings. -/
def rawRow (code n : Nat) (bs : Bytes) : List Nat := (List.range n).map fun i => packedElem bs (fmtBits code) i
def rowBytes (code n : Nat) : Nat := (n * fmtBits code + 7) / 8

/-- The values of encodings. -/
def values (code : Nat) (raw : List Nat) : List Num := raw.map (fmtD code).decode

/-- Rows of a tile's scratch; the flag says an uncorrectable word was read. -/
def scratchRows (t : Nat) (rs : List (Nat × Nat)) (d : Dev) : List Bytes × Bool × Dev :=
  rs.foldl (fun acc r =>
    let x := physRead (scratchAddr t r.1) r.2 acc.2.2
    (acc.1 ++ [x.1], acc.2.1 || x.2.1, x.2.2)) ([], false, d)

/-- SCRATCH_UE of an engine's read, where there was one. -/
def scratchUe (t tenant : Nat) (ue : Bool) (d : Dev) : Dev := if ue then faultRun 2 evScratchUe (srcTile t) tenant d else d

/-- Whether `n` rows of `len` bytes, `stride` apart, lie in scratch and do not overlap each other. -/
def rowsFit (base stride n len : Nat) : Bool :=
  decide (base + (n - 1) * stride + len ≤ scratchSize) && (n == 1 || decide (len ≤ stride))

/-! ## The accumulator (R63, R87, R90 to R94) -/

/-- ACCUM_UE of a row: it is poisoned and the run halts. -/
def accumUe (t tenant row : Nat) (d : Dev) : Dev :=
  faultRun 2 evAccumUe (srcTile t) tenant (modTile t (fun x => { x with poison := Sparse.set false x.poison row true }) d)

/-- A row's poison flag. -/
def poisoned (t row : Nat) (d : Dev) : Bool := Sparse.get false (getTile t d).poison row
def setPoison (t row : Nat) (v : Bool) (d : Dev) : Dev :=
  modTile t (fun x => { x with poison := Sparse.set false x.poison row v }) d

/-- The first `n` lanes of a row as FP32 bits, and of the index plane. -/
def readLanes (t row n : Nat) (d : Dev) : List Nat × Bool × Dev :=
  let r := physRead (accAddr t (row * 512)) (4 * n) d
  (elemsOf 4 r.1, r.2)
def readIndices (t row n : Nat) (d : Dev) : List Nat × Bool × Dev :=
  let r := physRead (idxAddr t (row * 256)) (2 * n) d
  (elemsOf 2 r.1, r.2)

/-- A row is committed: lanes 0 to N - 1 take `vals`, and `idx` where the mode has winners. `reads` says the old
lanes were read and found uncorrectable or not; `bad` poisons the row (Table 3.12). -/
def putRow (t tenant row : Nat) (add : Bool) (vals idx : List Nat) (ue bad : Bool) (d : Dev) : Dev :=
  let w := physWrite (accAddr t (row * 512)) (vals.flatMap (leBytes 4)) d
  let v := if idx.isEmpty then (false, w.2) else physWrite (idxAddr t (row * 256)) (idx.flatMap (leBytes 2)) w.2
  let d1 := if !add && vals.length == 128 then setPoison t row false v.2 else v.2
  let d2 := if ue || w.1 || v.1 then accumUe t tenant row d1 else d1
  if bad then setPoison t row true d2 else d2

/-- ROW_COMMIT in modes 0 to 2: each lane takes the chain of its column results. -/
def commitSums (t tenant row : Nat) (add : Bool) (lanes : List (List Num)) (bad : Bool) (d : Dev) : Dev :=
  let old := if add then readLanes t row lanes.length d else ([], false, d)
  let vals := (List.range lanes.length).map fun c =>
    let l := lanes.getD c []
    bits32 (if add then l.foldl add32 (flush (num32 (old.1.getD c 0)))
      else match l with
        | [] => .zero
        | x :: xs => xs.foldl add32 x)
  putRow t tenant row add vals [] old.2.1 bad old.2.2

/-- ROW_COMMIT in modes 3 and 4; an add is a merge in which the prior value comes first (R94). -/
def commitWinners (t tenant row mode : Nat) (add : Bool) (lanes : List (Num × Nat)) (bad : Bool) (d : Dev) : Dev :=
  let old := if add then readLanes t row lanes.length d else ([], false, d)
  let oldI := if add then readIndices t row lanes.length old.2.2 else ([], false, d)
  let res := (List.range lanes.length).map fun c =>
    let x := lanes.getD c (.zero, 0)
    if add then pickWinner (mode == 4) (flush (num32 (old.1.getD c 0)), oldI.1.getD c 0) x else x
  putRow t tenant row add (res.map fun x => bits32 x.1) (res.map (·.2)) (old.2.1 || oldI.2.1) bad oldI.2.2

/-! ## Order between engines (R63, R95) -/

/-- The accumulator rows (first, count) that a matrix, matrix-vector or output word commits or reads. -/
def wordRows (w : BitVec 128) : List (Nat × Nat) :=
  match wEng w, wOp w with
  | 0, 0 => [(wField w 93 11, wField w 66 11 + 1)]
  | 1, 0 => [(wField w 91 11, wField w 66 3 + 1)]
  | 2, 0 => [(wField w 32 11, wField w 43 11 + 1)]
  | 2, 1 => [(wField w 32 11, wField w 43 11 + 1)]
  | _, _ => []

/-- Whether word `q` must wait for an earlier-issued word of engines `es` that touches the same rows. -/
def rowsHeld (t : Nat) (es : List Nat) (q : QWord) (d : Dev) : Bool :=
  es.any fun e => (queueOf t e d ++ (execOf t e d).filter fun x => x.phase != .done && x.phase != .failed).any fun x =>
    decide (x.number < q.number) && (wordRows x.word).any fun r => (wordRows q.word).any (overlap r)

/-! ## Compute words -/

/-- A compute word at the head of its queue. -/
def computeHead (e reserved : Nat) (check : Nat → QWord → Dev → Option Nat) (t : Nat) (q : QWord) (d : Dev) : Dev :=
        if engineFree t e d && (wOp q.word == 0 || decide (reserved ≤ wOp q.word)) then
          if wOp q.word ≠ 0 then wordField t e d
          else
            match check t q d with
            | some num => rejectHead t e 1 num d
            | none =>
              match headWait t q d with
              | (false, d1) => d1
              | (true, d1) => requestCue t e q (dispatchHead t e .waitCue d1)
        else d

/-- A compute word of engine `e` (0 or 1): the head is checked, waits for its counter, dispatches and requests
its cue (R143, R366); a word that holds its cue runs. `check` gives the event of a failed check. -/
def computeRow (e reserved : Nat) (check : Nat → QWord → Dev → Option Nat) (run : Nat → QWord → Dev → Dev) (t : Nat)
    (d : Dev) : Dev :=
  if !enginesRun t d then d
  else
    match (execOf t e d).find? fun q => q.phase == .granted with
    | some q => if rowsHeld t [1 - e, 2] q d then d else finishWord t e q.number true 0 (forRank (q.ctx == 1) (run t q) d)
    | none =>
      match headOf t e d with
      | none => d
      | some q => forRank (q.ctx == 1) (computeHead e reserved check t q) d

/-- The first event of a list whose condition holds. -/
def firstBad (l : List (Bool × Nat)) : Option Nat := (l.find? (·.1)).map (·.2)

/-! ### The matrix array (Table 6.6) -/

def mAbase (w : BitVec 128) : Nat := wField w 32 17 * 64
def mBbase (w : BitVec 128) : Nat := wField w 49 17 * 64
def mM (w : BitVec 128) : Nat := wField w 66 11 + 1
def mK (w : BitVec 128) : Nat := wField w 77 9 + 1
def mN (w : BitVec 128) : Nat := wField w 86 7 + 1
def mFirst (w : BitVec 128) : Nat := wField w 93 11
def mAdd (w : BitVec 128) : Bool := bitOf w.toNat 104
def mMode (w : BitVec 128) : Nat := wField w 105 3
def mAfmt (w : BitVec 128) : Nat := wField w 108 4
def mBfmt (w : BitVec 128) : Nat := wField w 112 4
def mReuse (w : BitVec 128) : Bool := bitOf w.toNat 116

/-- A, B, A-scale and B-scale rows of an array word, as (start, length). -/
def arrayRanges (t : Nat) (q : QWord) (d : Dev) : List (List (Nat × Nat)) :=
  let w := q.word
  let c (op lo : Nat) : Nat := cfgField t q.ctx 0 op lo 17 d * 64
  let nb := (mK w + 31) / 32
  [rowRanges (mAbase w) (c 1 32) (mM w) (rowBytes (mAfmt w) (mK w)),
   if mReuse w then [] else rowRanges (mBbase w) (c 1 49) (mK w) (rowBytes (mBfmt w) (mN w)),
   if isMx (mAfmt w) then rowRanges (c 2 32) (c 2 49) (mM w) nb else [],
   if isMx (mBfmt w) && !mReuse w then rowRanges (c 2 66) (c 2 83) nb (mN w) else []]

/-- The shape checks of Table 3.12 and R80. -/
def arrayShapeBad (w : BitVec 128) : Bool :=
  let a := mAfmt w
  let b := mBfmt w
  decide (4 < mMode w) || a == 0 || decide (9 < a) || b == 0 || decide (9 < b) ||
    (mMode w != 0 && (a != b || decide (2 < a))) || decide (classK (classH a b) < mK w) ||
    ((isMx a || isMx b) && mK w % 32 != 0)

/-- Whether every row of a side fits (R59): the last row ends in scratch and no stride is too short. -/
def sideFits (l : List (Nat × Nat)) : Bool :=
  match l with
  | [] => true
  | (a, len) :: rest => rowsFit a (match rest with | (b, _) :: _ => b - a | [] => 0) l.length len

def arrayCheck (t : Nat) (q : QWord) (d : Dev) : Option Nat :=
  let w := q.word
  firstBad [
    (wField w 117 11 != 0, evWordField),
    (arrayShapeBad w, evMatrixShape),
    (decide (2048 < mFirst w + mM w), evMatrixRowRange),
    (!(arrayRanges t q d).all sideFits, evMatrixOperandRange),
    (mReuse w && !(getTile t d).wLoaded, evMatrixReuse),
    (chargeBad w, evCueCharge),
    (conflict t (arrayRanges t q d).flatten [(mFirst w, mM w)] d, evRnnConflict)]

/-- The key of PE(r, c) in a weight set, and of the scale of column c that PE row r carries (R57). -/
def peKey (r c : Nat) : Nat := r * 128 + c
def peScaleKey (r c : Nat) : Nat := 65536 + r * 128 + c

/-- A weight load into a set: PE(r, c) holds B elements e·r to e·r + e - 1 of column c in slots of 16 / e bits,
for columns 0 to N - 1 (R56, R57). -/
def loadSet (e k n : Nat) (rows : List (List Nat)) (scales : List Bytes) (m : Table Nat) : Table Nat :=
  let z := 16 / e
  let m1 := (List.range ((k + e - 1) / e)).foldl (fun m r => (List.range n).foldl (fun m c =>
    Sparse.set 0 m (peKey r c)
      ((List.range e).foldl (fun v j => v + ((rows.getD (e * r + j) []).getD c 0) % 2 ^ z * 2 ^ (z * j)) 0)) m) m
  (List.range scales.length).foldl (fun m j => (List.range n).foldl (fun m c =>
    Sparse.set 0 m (peScaleKey (32 * j / e) c) ((scales.getD j []).getD c 0).toNat) m) m1

/-- Element k of column c in a set, and the scale of block j. -/
def weightAt (e : Nat) (m : Table Nat) (k c : Nat) : Nat := bitsOf (Sparse.get 0 m (peKey (k / e) c)) (16 / e * (k % e)) (16 / e)
def weightScale (e : Nat) (m : Table Nat) (j c : Nat) : Nat := Sparse.get 0 m (peScaleKey (32 * j / e) c)

/-- The array runs: B is loaded into the shadow set, which the swap makes active, unless the word reuses the
resident weights; each row of A is streamed and its output row committed. -/
def arrayRun (t : Nat) (q : QWord) (d : Dev) : Dev :=
  let w := q.word
  let h := classH (mAfmt w) (mBfmt w)
  let e := 2 ^ (h - 3)
  let k := mK w
  let n := mN w
  let rs := arrayRanges t q d
  let bB := scratchRows t (rs.getD 1 []) d
  let bS := scratchRows t (rs.getD 3 []) bB.2.2
  let aB := scratchRows t (rs.getD 0 []) bS.2.2
  let aS := scratchRows t (rs.getD 2 []) aB.2.2
  let ue := bB.2.1 || bS.2.1 || aB.2.1 || aS.2.1
  let x := getTile t aS.2.2
  let parity := mReuse w && x.wParity
  let set := if mReuse w then x.wActive else loadSet e k n (bB.1.map (rawRow (mBfmt w) n)) bS.1 x.wShadow
  let x1 : Tile := if parity then { x with wActive := [], wShadow := [], wLoaded := false, wParity := false }
    else if mReuse w then x
    else { x with wActive := set, wShadow := x.wActive, wLoaded := true, wParity := false }
  let d1 := scratchUe t q.tenant ue (setTile t { x1 with arrayBusy := true, arrayAt := ccNow d } aS.2.2)
  let d2 := if parity then faultRun 2 evWeightParity (srcTile t) q.tenant
      (modTCount t (fun c => { c with corrected := bumpTable c.corrected 6 1 }) d1) else d1
  let col (c : Nat) : List Num := values (mBfmt w) ((List.range k).map fun i => weightAt e set i c)
  let scol (c : Nat) : List Nat := if isMx (mBfmt w) then (List.range (k / 32)).map fun j => weightScale e set j c else []
  (List.range (mM w)).foldl (fun d m =>
    let a := values (mAfmt w) (rawRow (mAfmt w) k (aB.1.getD m []))
    let sa := if isMx (mAfmt w) then (aS.1.getD m []).map BitVec.toNat else []
    if mMode w < 3 then
      commitSums t q.tenant (mFirst w + m) (mAdd w)
        ((List.range n).map fun c => [columnSum (mMode w) h a (col c) sa (scol c)]) (ue || parity) d
    else
      commitWinners t q.tenant (mFirst w + m) (mMode w) (mAdd w)
        ((List.range n).map fun c => columnWinner (mMode w) (cfgField t q.ctx 0 1 66 16 d) a (col c)) (ue || parity) d) d2

/-- MATRIX_COMPUTE. -/
def matrixCompute (t : Nat) (d : Dev) : Dev := computeRow 0 3 arrayCheck arrayRun t d

/-! ### The matrix-vector unit (Table 6.7, R66 to R68) -/

def vXbase (w : BitVec 128) : Nat := wField w 32 17 * 64
def vWbase (w : BitVec 128) : Nat := wField w 49 17 * 64
def vB (w : BitVec 128) : Nat := wField w 66 3 + 1
def vK (w : BitVec 128) : Nat := wField w 69 15 + 1
def vN (w : BitVec 128) : Nat := wField w 84 7 + 1
def vFirst (w : BitVec 128) : Nat := wField w 91 11
def vAdd (w : BitVec 128) : Bool := bitOf w.toNat 102
def vXfmt (w : BitVec 128) : Nat := wField w 103 4
def vWfmt (w : BitVec 128) : Nat := wField w 107 4
def vReuse (w : BitVec 128) : Bool := bitOf w.toNat 111

/-- x rows, x scales, W and W scales of a matrix-vector word. -/
def mvRanges (t : Nat) (q : QWord) (d : Dev) : List (List (Nat × Nat)) :=
  let w := q.word
  let c (lo : Nat) : Nat := cfgField t q.ctx 1 1 lo 17 d * 64
  let nb := (vK w + 31) / 32
  [if vReuse w then [] else rowRanges (vXbase w) (c 32) (vB w) (rowBytes (vXfmt w) (vK w)),
   if isMx (vXfmt w) && !vReuse w then rowRanges (c 49) (c 66) (vB w) nb else [],
   [(vWbase w, (vK w * vN w * fmtBits (vWfmt w) + 7) / 8)],
   if isMx (vWfmt w) then [(c 83, nb * vN w)] else []]

/-- A matrix-vector operand: any code from 1 to 9 but MXFP6. -/
def mvFormat (c : Nat) : Bool := decide (1 ≤ c) && decide (c ≤ 9) && c != 7 && c != 8

def mvCheck (t : Nat) (q : QWord) (d : Dev) : Option Nat :=
  let w := q.word
  firstBad [
    (wField w 112 16 != 0, evWordField),
    (!mvFormat (vXfmt w) || !mvFormat (vWfmt w) || ((isMx (vXfmt w) || isMx (vWfmt w)) && vK w % 32 != 0) ||
      decide (65536 * 8 < vB w * vK w * fmtBits (vXfmt w)), evMatrixShape),
    (decide (2048 < vFirst w + vB w), evMatrixRowRange),
    (!(mvRanges t q d).all sideFits, evMatrixOperandRange),
    (vReuse w && !(getTile t d).xLoaded, evMatrixReuse),
    (chargeBad w, evCueCharge),
    (conflict t (mvRanges t q d).flatten [(vFirst w, vB w)] d, evRnnConflict)]

/-- Keys of the x buffer: element k of vector b, and its scale of block j. -/
def xKey (b k : Nat) : Nat := b * 65536 + k
def xScaleKey (b j : Nat) : Nat := b * 65536 + 32768 + j

/-- The x buffer after a load. -/
def loadX (rows : List (List Nat)) (scales : List Bytes) : Table Nat :=
  (List.range rows.length).foldl (fun m b =>
    let r := rows.getD b []
    let s := scales.getD b []
    let m1 := (List.range r.length).foldl (fun m k => Sparse.set 0 m (xKey b k) (r.getD k 0)) m
    (List.range s.length).foldl (fun m j => Sparse.set 0 m (xScaleKey b j) (s.getD j 0).toNat) m1) []

/-- The column results of a product in chunks of K_max: the chain that R68 and R89 add up. -/
def chunkSums (h : Nat) (as bs : List Num) (sa sb : List Nat) : List Num :=
  let km := classK h
  let cut (l : List Nat) (i : Nat) : List Nat := (l.drop (i * km / 32)).take (km / 32)
  let pa := pieces km as
  (List.range pa.length).map fun i => columnSum 0 h (pa.getD i []) ((bs.drop (i * km)).take km) (cut sa i) (cut sb i)

/-- The matrix-vector unit runs. -/
def mvRun (t : Nat) (q : QWord) (d : Dev) : Dev :=
  let w := q.word
  let k := vK w
  let n := vN w
  let nb := k / 32
  let h := classH (vXfmt w) (vWfmt w)
  let rs := mvRanges t q d
  let xB := scratchRows t (rs.getD 0 []) d
  let xS := scratchRows t (rs.getD 1 []) xB.2.2
  let wB := scratchRows t (rs.getD 2 []) xS.2.2
  let wS := scratchRows t (rs.getD 3 []) wB.2.2
  let ue := xB.2.1 || xS.2.1 || wB.2.1 || wS.2.1
  let d0 := modTile t (fun x => { x with
    xbuf := if vReuse w then x.xbuf else loadX (xB.1.map (rawRow (vXfmt w) k)) xS.1, xLoaded := true, mvBusy := true
    mvAt := ccNow d }) wS.2.2
  let buf := (getTile t d0).xbuf
  let wb := wB.1.getD 0 []
  let ws := (wS.1.getD 0 []).map BitVec.toNat
  let col (c : Nat) : List Num := values (vWfmt w) ((List.range k).map fun i => packedElem wb (fmtBits (vWfmt w)) (i * n + c))
  let scol (c : Nat) : List Nat := if isMx (vWfmt w) then (List.range nb).map fun j => ws.getD (j * n + c) 0 else []
  (List.range (vB w)).foldl (fun d b =>
    let a := values (vXfmt w) ((List.range k).map fun i => Sparse.get 0 buf (xKey b i))
    let sa := if isMx (vXfmt w) then (List.range nb).map fun j => Sparse.get 0 buf (xScaleKey b j) else []
    commitSums t q.tenant (vFirst w + b) (vAdd w) ((List.range n).map fun c => chunkSums h a (col c) sa (scol c)) ue d)
    (scratchUe t q.tenant ue d0)

/-- MV_COMPUTE. -/
def mvCompute (t : Nat) (d : Dev) : Dev := computeRow 1 2 mvCheck mvRun t d

/-! ## The commands -/

def execMatrixCompute (tile : Nat) (s : State) : Host.Outcome State Fault Refusal := onTile tile (matrixCompute tile) s
def execMatrixStrideConfig (tile : Nat) (s : State) : Host.Outcome State Fault Refusal :=
  onTile tile (configWord tile 0 1 82) s
def execMatrixScaleConfig (tile : Nat) (s : State) : Host.Outcome State Fault Refusal :=
  onTile tile (configWord tile 0 2 100) s
def execMvCompute (tile : Nat) (s : State) : Host.Outcome State Fault Refusal := onTile tile (mvCompute tile) s
def execMvConfig (tile : Nat) (s : State) : Host.Outcome State Fault Refusal := onTile tile (configWord tile 1 1 100) s

end Sys2Proof.Machine
end

