-- ==== Sys2Proof/Machine/OutStage.lean ====
section
/-!
DEFINITION. Conversion under a word's rounding mode with the generator lanes (R97 to R102, R113), and the output
stage (R95 to R105, Table 6.8): words to scratch, fused words and the configuration words.
-/
namespace Sys2Proof.Machine

/-! ## Conversion -/

/-- The key of a generator lane of a rank context. -/
def genKey (ctx lane : Nat) : Nat := ctx * 4096 + lane

/-- The noise width of a code. -/
def noiseBits (nw : Nat) : Nat := 8 + 4 * nw

/-- What converting gives: encodings, what each element did, and the generator lanes after it. -/
structure Converted where
  codes : List Nat := []
  notes : List ConvNote := []
  gen : Table (BitVec 32)
  deriving DecidableEq, Repr

/-- Elements of one block are converted in order. `x` is the scale exponent of an MX block: none outside MX,
some none where the block's scale is 0xFF. -/
def convertBlock (code rnd nw : Nat) (sat : Bool) (x : Option (Option Int)) (key : Nat → Nat) (j0 : Nat) (vs : List Num)
    (acc : Converted) : Converted :=
  (List.range vs.length).foldl (fun a i =>
    let draw := rnd == 2 && code != 0
    let k := key (j0 + i)
    let g := if draw then genAdvance (Sparse.get 0 a.gen k) else 0
    let r : Rnd := if rnd = 0 then .nearest else if rnd = 1 then .zero else .noise nw (genNoise nw g)
    let v := vs.getD i .zero
    let c := match x with
      | none => convert code r sat v
      | some none => (0, .wroteNan)
      | some (some e) => mxElement code r e v
    { codes := a.codes ++ [c.1], notes := a.notes ++ [c.2], gen := if draw then Sparse.set 0 a.gen k g else a.gen }) acc

/-- A list of elements is converted (element j by generator lane `key j`): the encodings, the scale bytes of an
MX destination, and the device with the generators and the counts of R105 brought up to date. -/
def convertAll (t : Nat) (key : Nat → Nat) (code rnd nw : Nat) (sat : Bool) (vs : List Num) (d : Dev) :
    List Nat × List Nat × Dev :=
  let start : Converted := { gen := (getTile t d).gen }
  let blocks := if isMx code then pieces 32 vs else [vs]
  let scales := if isMx code then blocks.map (mxBlockScale code) else []
  let r := (List.range blocks.length).foldl (fun a b =>
    convertBlock code rnd nw sat (if isMx code then some (scales.getD b none) else none) key (32 * b) (blocks.getD b []) a) start
  let count (n : ConvNote) : Nat := (r.notes.filter (· == n)).length
  (r.codes, scales.map fun s => match s with | none => 255 | some e => (e + 127).toNat,
   modTCount t (fun c => { c with
      saturated := satAdd 64 c.saturated (count .saturated)
      nanWritten := satAdd 64 c.nanWritten (count .wroteNan)
      toInf := satAdd 64 c.toInf (count .finiteToInf) }) (modTile t (fun x => { x with gen := r.gen }) d))

/-! ## Output words (Table 6.8) -/

def oFirst (w : BitVec 128) : Nat := wField w 32 11
def oM (w : BitVec 128) : Nat := wField w 43 11 + 1
def oN (w : BitVec 128) : Nat := wField w 54 7 + 1
def oDfmt (w : BitVec 128) : Nat := wField w 61 4
def oRnd (w : BitVec 128) : Nat := wField w 65 2
def oNw (w : BitVec 128) : Nat := wField w 67 2
def oSat (w : BitVec 128) : Bool := bitOf w.toNat 69
def oFunc (w : BitVec 128) : Nat := wField w 70 4
def oCoarse (w : BitVec 128) : Bool := bitOf w.toNat 74
def oScale (w : BitVec 128) : Bool := bitOf w.toNat 75
def oBias (w : BitVec 128) : Bool := bitOf w.toNat 76
def oClip (w : BitVec 128) : Bool := bitOf w.toNat 77
def oVec (w : BitVec 128) : Bool := bitOf w.toNat 78
def oIndex (w : BitVec 128) : Bool := bitOf w.toNat 79
def oDbase (w : BitVec 128) : Nat := wField w 80 17 * 64
def oDstride (w : BitVec 128) : Nat := wField w 97 17 * 64
def oCctx (w : BitVec 128) : Nat := wField w 80 12
def oCseg (w : BitVec 128) : Nat := wField w 97 17

/-- Configuration state of the output stage. -/
def oCfg (t : Nat) (q : QWord) (op lo len : Nat) (d : Dev) : Nat := cfgField t q.ctx 2 op lo len d

/-- Bytes of a destination row. -/
def oRowBytes (w : BitVec 128) : Nat := if oIndex w then 2 * oN w else rowBytes (oDfmt w) (oN w)

/-- Destination rows, MX scales and the two vectors, as (start, length). -/
def outRanges (t : Nat) (q : QWord) (d : Dev) : List (List (Nat × Nat)) :=
  let w := q.word
  let mx := isMx (oDfmt w) && !oIndex w
  [if wOp w = 0 then rowRanges (oDbase w) (oDstride w) (oM w) (oRowBytes w) else [],
   if wOp w = 0 ∧ mx then rowRanges (oCfg t q 4 66 17 d * 64) (oCfg t q 4 83 17 d * 64) (oM w) ((oN w + 31) / 32) else [],
   if oScale w && oVec w then [(oCfg t q 4 32 17 d * 64, 4 * oN w)] else [],
   if oBias w && oVec w then [(oCfg t q 4 49 17 d * 64, 4 * oN w)] else []]

/-- The conditions of R104. -/
def outputBad (t : Nat) (q : QWord) (d : Dev) : Bool :=
  let w := q.word
  let lo := num32 (oCfg t q 3 32 32 d)
  let hi := num32 (oCfg t q 3 64 32 d)
  decide (9 < oDfmt w) || oRnd w == 3 || oNw w == 3 || (oClip w && (lo.isNan || hi.isNan || hi.lt lo)) ||
    decide (8 < oFunc w) || decide (2048 < oFirst w + oM w) || !(outRanges t q d).all sideFits

/-- The values of one row after steps 1 to 4 of Table 4.8. -/
def outValues (t : Nat) (q : QWord) (lanes : List Nat) (poison : Bool) (sv bv : List Nat) (d : Dev) : List Num :=
  let w := q.word
  let lo := num32 (oCfg t q 3 32 32 d)
  let hi := num32 (oCfg t q 3 64 32 d)
  (List.range lanes.length).map fun c =>
    let v0 : Num := if poison then .nan else flush (num32 (lanes.getD c 0))
    let s := num32 (if oVec w then sv.getD c 0 else oCfg t q 2 32 32 d)
    let b := num32 (if oVec w then bv.getD c 0 else oCfg t q 2 64 32 d)
    let v1 := if oScale w then (if oBias w then fma32 v0 s b else mul32 v0 s)
      else if oBias w then fma32 v0 (.fin false 1 0) b else v0
    let v2 := if oClip w && !v1.isNan then (if hi.lt v1 then hi else if v1.lt lo then lo else v1) else v1
    flush (elemFn (oFunc w) (oCoarse w) v2)

/-- PRECISE_ROW and coarse rows alike: row m is read, taken through Table 4.8 and packed; with it its scale
bytes. -/
def outRow (t : Nat) (q : QWord) (m : Nat) (sv bv : List Nat) (d : Dev) : Bytes × Bytes × Dev :=
  let w := q.word
  let row := oFirst w + m
  if oIndex w then
    let r := readIndices t row (oN w) d
    (r.1.flatMap (leBytes 2), [], if r.2.1 then accumUe t q.tenant row r.2.2 else r.2.2)
  else
    let r := readLanes t row (oN w) d
    let d1 := if r.2.1 then accumUe t q.tenant row r.2.2 else r.2.2
    let vs := outValues t q r.1 (poisoned t row d1) sv bv d1
    let c := convertAll t (genKey q.ctx) (oDfmt w) (oRnd w) (noiseBits (oNw w)) (oSat w) vs d1
    (packRow (fmtBits (oDfmt w)) c.1, c.2.1.map (BitVec.ofNat 8), c.2.2)

/-- Bytes written to a tile's scratch by an engine; an uncorrectable word partly covered is SCRATCH_UE (R159). -/
def scratchPut (t tenant off : Nat) (bs : Bytes) (d : Dev) : Dev :=
  let w := physWrite (scratchAddr t off) bs d
  scratchUe t tenant w.1 w.2

/-- The s and beta vectors, where the word names them. -/
def outVectors (t : Nat) (q : QWord) (d : Dev) : List Nat × List Nat × Dev :=
  let rs := outRanges t q d
  let s := scratchRows t (rs.getD 2 []) d
  let b := scratchRows t (rs.getD 3 []) s.2.2
  (elemsOf 4 (s.1.getD 0 []), elemsOf 4 (b.1.getD 0 []), scratchUe t q.tenant (s.2.1 || b.2.1) b.2.2)

/-- An output word to scratch runs: its rows in ascending order. -/
def outputRun (t : Nat) (q : QWord) (d : Dev) : Dev :=
  let w := q.word
  let v := outVectors t q d
  let mxBase := oCfg t q 4 66 17 d * 64
  let mxStride := oCfg t q 4 83 17 d * 64
  (List.range (oM w)).foldl (fun d m =>
    let r := outRow t q m v.1 v.2.1 d
    let d1 := scratchPut t q.tenant (oDbase w + m * oDstride w) r.1 r.2.2
    if r.2.1.isEmpty then d1 else scratchPut t q.tenant (mxBase + m * mxStride) r.2.1 d1) v.2.2

/-- Rows of a fused word from `m` on are handed to the network interface (R146); the word's `status` counts the
rows accepted, so that a row whose write waits is tried again. -/
def fusedRows (t : Nat) (q : QWord) (sv bv : List Nat) : Nat → Nat → Dev → Dev
  | 0, _, d => finishWord t 2 q.number true 0 d
  | n + 1, m, d =>
    let w := q.word
    let r := outRow t q m sv bv d
    match handInBytes q.tenant q.ctx (oCctx w) (oCseg w) (m * oRowBytes w) r.1 d with
    | (.wait, d1) => modExec t 2 q.number (fun x => { x with status := m }) d1
    | (a, _) =>
      let h := handInBytes q.tenant q.ctx (oCctx w) (oCseg w) (m * oRowBytes w) r.1 r.2.2
      if a.done then fusedRows t q sv bv n (m + 1) h.2
      else finishWord t 2 q.number false 0x08 (raiseMet a (srcNi 0) q.tenant h.2) a.code

/-- A fused word goes on from the row it has come to. -/
def fusedRun (t : Nat) (q : QWord) (d : Dev) : Dev :=
  let v := outVectors t q d
  fusedRows t q v.1 v.2.1 (oM q.word - q.status) q.status v.2.2

/-- An output word at the head of its queue. -/
def outputHead (op t : Nat) (q : QWord) (d : Dev) : Dev :=
        let w := q.word
        if (wOp w = op ∨ 4 < wOp w) ∧ engineFree t 2 d then
          if 4 < wOp w ∨ wField w 114 14 ≠ 0 ∨ (op = 1 ∧ wField w 92 5 ≠ 0) ∨ cueBad w then wordField t 2 d
          else if outputBad t q d then rejectHead t 2 1 evOutputConfig d
          else if conflict t (outRanges t q d).flatten [(oFirst w, oM w)] d then rejectHead t 2 1 evRnnConflict d
          else
            match headWait t q d with
            | (false, d1) => d1
            | (true, d1) =>
              if rowsHeld t [0, 1] q d1 then d1
              else if op = 0 then finishWord t 2 q.number true 0 (outputRun t q (dispatchHead t 2 .running d1))
              else
                match handInCheck q.tenant q.ctx (oCctx w) (oCseg w) (oM w * oRowBytes w) (oDfmt w) (oIndex w) false d1 with
                | .ok => fusedRun t q (dispatchHead t 2 .running d1)
                | .config => rejectHead t 2 1 evOutputConfig d1
                | h => handInEvent h evOutputConfig (srcNi 0) q.tenant (oCctx w) (oCseg w) (dropHead t 2 d1)
        else d

/-- OUTPUT_TO_SCRATCH and OUTPUT_FUSED (`op` 0 and 1): the head is checked, waits for its counter and for the
commits issued before it (R95), and runs. A reserved OP is rejected by either. -/
def outputRow (op t : Nat) (d : Dev) : Dev :=
  if !enginesRun t d then d
  else
    match (execOf t 2 d).find? fun q => q.phase == .running with
    | some q => if op = 1 then forRank (q.ctx == 1) (fusedRun t q) d else d
    | none =>
      match headOf t 2 d with
      | none => d
      | some q => forRank (q.ctx == 1) (outputHead op t q) d

/-! ## The commands -/

def execOutputToScratch (tile : Nat) (s : State) : Host.Outcome State Fault Refusal := onTile tile (outputRow 0 tile) s
def execOutputFused (tile : Nat) (s : State) : Host.Outcome State Fault Refusal := onTile tile (outputRow 1 tile) s
def execOutputScalars (tile : Nat) (s : State) : Host.Outcome State Fault Refusal := onTile tile (configWord tile 2 2 96) s
def execOutputClip (tile : Nat) (s : State) : Host.Outcome State Fault Refusal := onTile tile (configWord tile 2 3 96) s
def execOutputVectors (tile : Nat) (s : State) : Host.Outcome State Fault Refusal := onTile tile (configWord tile 2 4 100) s

end Sys2Proof.Machine
end

