-- ==== Sys2Proof/Machine/Lifecycle.lean ====
section
/-!
DEFINITION. The life of a run on the device: its state changes with what the twin is told of them (Table 14.4),
the context area of a tile (R347), container load and arm (R43, R216), and teardown requests.
-/
namespace Sys2Proof.Machine

/-! ## What the twin is told (Table 14.4, items 4 and 5) -/

/-- The code of a run state (0x5000 + t:0x02). -/
def runCode : RunState → Nat
  | .none => 0
  | .created => 1
  | .loaded => 2
  | .armed => 3
  | .running => 4
  | .halted => 5

/-- Subindices that item 5 uses for what no entry holds: the rank, the container, the rank table, and the run
frame index. -/
def itemRank : Nat := 0xF0
def itemContainer : Nat := 0xF1
def itemRankTable : Nat := 0xF2
def itemIndex : Nat := 0xF3

/-- One value of item 5: index, subindex, value. -/
def valueItem (idx sub len v : Nat) : Bytes := leBytes 2 idx ++ leBytes 1 sub ++ leBytes len v

/-- A committed value of a tenant goes to the twin. -/
def mirrorValue (t idx sub len v : Nat) (d : Dev) : Dev := mirrorItem t 0 5 true (valueItem idx sub len v) d

/-- The run frame index goes to the twin. -/
def mirrorIndex (t : Nat) (d : Dev) : Dev := mirrorValue t (0x5000 + t) itemIndex 8 (getRun t d).index d

/-- The run state, with the rank and the addresses that a restore needs, goes to the twin. -/
def mirrorRun (t : Nat) (d : Dev) : Dev :=
  let r := getRun t d
  mirrorValue t (0x5000 + t) 2 1 (runCode r.state)
    (mirrorValue t (0x5000 + t) itemRankTable 8 r.rankTable
      (mirrorValue t (0x5000 + t) itemContainer 8 r.con.base
        (mirrorValue t (0x5000 + t) itemRank 4 r.rank
          (mirrorValue t (0x5000 + t) 4 4 (tenantGet t 4 d) d))))

/-- A run moves to a state. -/
def setRunState (t : Nat) (st : RunState) (d : Dev) : Dev := mirrorRun t (modRun t (fun r => { r with state := st }) d)

/-- A reel's HEAD, TAIL, LASTSEQ, KEY and STATE go to the twin (item 4). -/
def mirrorReel (r : Nat) (d : Dev) : Dev :=
  let x := getReel r d
  mirrorItem x.tenant 0 4 true (leBytes 2 r ++ leBytes 4 x.head ++ leBytes 4 x.tail ++ leBytes 8 x.lastSeq ++
    leBytes 1 x.key ++ leBytes 1 x.state) d

/-- A reel changed, and the twin told. -/
def changeReel (r : Nat) (f : Reel → Reel) (d : Dev) : Dev := mirrorReel r (modReel r f d)

/-- A teardown of tenant `t` is requested (R22, R24). -/
def requestTeardown (t : Nat) (d : Dev) : Dev :=
  modRun t (fun r => if r.teardownPending then r else { r with teardownPending := true }) d

/-! ## The context area (R347) -/

/-- The configuration words the area keeps, in slot order: engine and OP. -/
def contextSlots : List (Nat × Nat) := [(0, 1), (0, 2), (1, 1), (2, 2), (2, 3), (2, 4)]

/-- Where tile `x`'s 4 KiB of a tenant's area lie. -/
def contextVa (t x : Nat) (d : Dev) : Nat := tenantGet t 0x0D d + 4096 * x

/-- The 4 KiB of a tile: generator lanes, registers, local counters and configuration slots. -/
def contextBytes (lane reg lc : Nat → Nat) (slot : Nat × Nat → Nat) : Bytes :=
  padTo 4096 ((List.range 512).flatMap (fun g => leBytes 4 (lane g)) ++
    (List.range 31).flatMap (fun i => leBytes 8 (reg (i + 1))) ++ leBytes 8 0 ++
    (List.range 48).flatMap (fun i => leBytes 8 (lc i)) ++
    contextSlots.flatMap fun s => leBytes 16 (slot s))

/-- The state of a tile as the area holds it. -/
def savedContext (x : Nat) (d : Dev) : Bytes :=
  let y := getTile x d
  contextBytes (fun g => (Sparse.get 0 y.gen (genKey 0 g)).toNat) (fun i => (Sparse.get 0 y.g i).toNat)
    (fun i => (Sparse.get 0 y.lc i).toNat) (fun s => (Sparse.get 0 y.cfg (cfgKey 0 s.1 s.2)).toNat)

/-- A run's initial state of a tile (R216): seeded generator lanes, zeros elsewhere. -/
def initialContext (seed x : Nat) : Bytes :=
  contextBytes (fun g => (genSeed seed x g).toNat) (fun _ => 0) (fun _ => 0) (fun _ => 0)

/-- A table built from its listed items. -/
def tableOf {w : Nat} (l : List (Nat × BitVec w)) : Table (BitVec w) := l.foldl (fun m p => Sparse.set 0 m p.1 p.2) []

/-- The state of a tile taken from the bytes of its area. -/
def restoreContext (x : Nat) (b : Bytes) (d : Dev) : Dev :=
  modTile x (fun y => { y with
    gen := tableOf ((List.range 512).map fun g => (genKey 0 g, BitVec.ofNat 32 (fieldAt b (4 * g) 4)))
    g := tableOf ((List.range 31).map fun i => (i + 1, BitVec.ofNat 64 (fieldAt b (0x800 + 8 * i) 8)))
    lc := tableOf ((List.range 48).map fun i => (i, BitVec.ofNat 64 (fieldAt b (0x900 + 8 * i) 8)))
    lcPoison := []
    cfg := tableOf ((List.range 6).map fun q =>
      let s := contextSlots.getD q (0, 0)
      (cfgKey 0 s.1 s.2, BitVec.ofNat 96 (fieldAt b (0xA80 + 16 * q) 12))) }) d

/-! ## Reading for a descriptor (R216, Table 9.12) -/

/-- How a run-control request went: its status, or that it waits for memory. -/
inductive Control where
  | waits
  | ends (status code : Nat)
  deriving DecidableEq, Repr

/-- A read or write made for a descriptor that did not succeed: a translation fault raises XLATE_FAULT without the
HALT flag; the rest is uncorrectable data. -/
def descFault (m : Met) (src t : Nat) (d : Dev) : Control × Dev :=
  match m with
  | .fault r va => (.ends 0x03 m.code, raiseT 1 evXlateFault src t d (xlateDetail r va))
  | .wait => (.waits, d)
  | _ => (.ends 0x09 m.code, raiseMet m src t d)

/-- What a load or an arm reads of a container, and the first check that fails (0 for none). -/
def checkContainer (t base : Nat) (d : Dev) : Met × Container × Bytes × Parts × Nat × Dev :=
  let h := vaRead (dieTlb 0) t 0 base 256 d
  if h.1 = .ok then
    let c := parseContainer base h.2.1
    let p := readParts t 0 c h.2.2
    (p.1, c, h.2.1, p.2.1, loadChecks t c h.2.1 p.2.1 p.2.2, p.2.2)
  else (h.1, {}, [], { frames := [], tiles := [], sections := [], iface := [] }, 0, h.2.2)

/-- LOAD (R216, R43): the checks 0x01 to 0x08; an accepted load moves the run to Loaded. -/
def loadRun (t base src : Nat) (d : Dev) : Control × Dev :=
  let r := checkContainer t base d
  let d1 := r.2.2.2.2.2
  if r.1 = .wait then (.waits, d1)
  else
    let d2 := dropReads (tenantFn t d1) d1
    if r.1 ≠ .ok then descFault r.1 src t d2
    else if r.2.2.2.2.1 ≠ 0 then (.ends (0x40 + r.2.2.2.2.1) 0, d2)
    else (.ends 0 0, setRunState t .loaded (modRun t (fun x => { x with con := r.2.1 }) d2))

/-- The image of a tile as the container's section holds it: `size` bytes, the rest of instruction memory 0. -/
def loadImage (t ctx x : Nat) (img : Bytes) (d : Dev) : Dev :=
  let b := imemBase x t ctx
  { d with mem.imem := Mem.writeN (d.mem.imem.filter fun c => !(decide (b ≤ c.1) && decide (c.1 < b + 262144))) b img
           mem.imemErr := d.mem.imemErr.filter fun p => !(decide (b ≤ p.1 * 8) && decide (p.1 * 8 < b + 262144)) }

/-- The image of a tile's section. -/
def imageOf (tiles : Bytes) (s : Nat × Bytes) : Bytes :=
  let e := tileEntry tiles s.1
  (s.2.drop (fieldAt e 0x14 4)).take (fieldAt e 0x10 4)

/-- The images of every tile of the mask are loaded. -/
def loadImages (t ctx : Nat) (p : Parts) (d : Dev) : Dev :=
  p.sections.foldl (fun d s => loadImage t ctx s.1 (imageOf p.tiles s) d) d

/-- The entry addresses of the segments of a container's tiles (Table 2.5), under 65,536 tile + segment. -/
def segmentEntries (p : Parts) : Table Nat :=
  p.sections.foldl (fun m s =>
    (List.range (fieldAt (tileEntry p.tiles s.1) 0xC 2)).foldl
      (fun m i => Sparse.set 0 m (s.1 * 65536 + i) (fieldAt s.2 (8 * i) 4)) m) []

/-- The initial state is set in place on a tile (R216). -/
def armTile (t x : Nat) (d : Dev) : Dev :=
  if (getTile x d).owner = t then restoreContext x (initialContext (tenantGet t 4 d) x) d else d

/-- Entries of a rank table that have PIN set enter the rank cache (R231). -/
def pinRanks (t : Nat) (entries : Bytes) (d : Dev) : Dev :=
  (List.range (entries.length / 4)).foldl (fun d i =>
    let e := fieldAt entries (4 * i) 4
    if bitOf e 19 then rankPin t i e d else d) d

/-- The arm checks 0x09 to 0x0B; `rejoin` skips the last (R333). -/
def armChecks (c : Container) (table : Bytes) (d : Dev) : Nat :=
  let count := if fieldAt table 0 4 = 0x4B4E4152 ∧ fieldAt table 4 2 = 1 then fieldAt table 8 4 else 0
  if dictGet 0x2001 1 d < c.opp then 0x09
  else if count ≠ c.rankCount then 0x0A
  else if dictGet 0x6000 6 d = 0 ∧ d.clk.placed ∧ c.start ≤ d.clk.frame then 0x0B
  else 0

/-- Initial state is written for every tile of the mask into the tenant's context area. -/
def armAreas (t : Nat) (tiles : List Nat) (d : Dev) : Met × Dev :=
  tiles.foldl (fun acc x => if acc.1 = .ok then
    vaWrite (dieTlb 0) t 0 (contextVa t x acc.2) false (initialContext (tenantGet t 4 acc.2) x) acc.2 else acc) (.ok, d)

/-- ARM (R216, R43): the checks again, then the rank table, the images and the initial state; an accepted arm
takes the observation snapshot and moves the run to Armed. -/
def armRun (t table src : Nat) (d : Dev) : Control × Dev :=
  let r := checkContainer t (getRun t d).con.base d
  let c := r.2.1
  let h := vaRead (dieTlb 0) t 0 table 64 r.2.2.2.2.2
  let e := vaRead (dieTlb 0) t 0 (table + 64) (4 * c.rankCount) h.2.2
  let o := obsLook t (tenantGet t 0x0D d + 0x80000) 8192 e.2.2
  if r.1 = .wait ∨ (r.1 = .ok ∧ r.2.2.2.2.1 = 0 ∧ (h.1 = .wait ∨ e.1 = .wait ∨ o.1 = .wait)) then
    (.waits, if r.1 = .wait then r.2.2.2.2.2 else o.2.2)
  else if r.1 ≠ .ok then descFault r.1 src t (dropReads (tenantFn t d) r.2.2.2.2.2)
  else if r.2.2.2.2.1 ≠ 0 then (.ends (0x40 + r.2.2.2.2.1) 0, dropReads (tenantFn t d) r.2.2.2.2.2)
  else if h.1 ≠ .ok then descFault h.1 src t (dropReads (tenantFn t d) h.2.2)
  else
    let n := armChecks c h.2.1 d
    if n ≠ 0 then (.ends (0x40 + n) 0, dropReads (tenantFn t d) h.2.2)
    else if e.1 ≠ .ok then descFault e.1 src t (dropReads (tenantFn t d) e.2.2)
    else
      let tiles := bitsSet 128 c.tileMask
      let w := armAreas t tiles (dropReads (tenantFn t d) o.2.2)
      if w.1 ≠ .ok then descFault w.1 src t w.2
      else
        let d1 := modRun t (fun x => { x with con := c, entries := segmentEntries r.2.2.2.1, rank := fieldAt h.2.1 0xC 4, rankTable := table, index := 0 }) w.2
        let d2 := pinRanks t e.2.1 (loadImages t 0 r.2.2.2.1 d1)
        let d3 := tiles.foldl (fun d x => armTile t x d) d2
        (.ends 0 0, setRunState t .armed (obsArm t c.tileMask (o.1 == .ok) o.2.1 d3))

end Sys2Proof.Machine
end

