-- ==== Sys2Proof/Machine/Reels.lean ====
section
/-!
DEFINITION. Reels (chapter 9): opening and closing, doorbells, fetch, arbitration and the start of each
descriptor type, completion, halt and teardown.
-/
namespace Sys2Proof.Machine

/-! ## Reels and their owners (Table 9.1) -/

/-- The owner of a reel: a tile, 128 + die for a DMA complex, 130 for the network interface. -/
def reelOwner (r : Nat) : Nat := if r < 1024 then r / 8 else if r < 1088 then 128 + (r - 1024) / 32 else 130

/-- The reels of an owner, ascending. -/
def ownerReels (o : Nat) : List Nat :=
  if o < 128 then (List.range 8).map (8 * o + ·)
  else if o < 130 then (List.range 32).map (1024 + 32 * (o - 128) + ·)
  else (List.range 64).map (1088 + ·)

def tileReel (r : Nat) : Bool := decide (r < 1024)
def niReel (r : Nat) : Bool := decide (1088 ≤ r)

/-- How many descriptors of a reel may have started and not be complete. -/
def startLimit (r : Nat) : Nat := if tileReel r then 1 else if niReel r then 16 else 4

/-- The die that a reel's counts belong to; the network interface counts with die 0. -/
def reelDie (r : Nat) : Nat := if r < 1024 then r / 512 else if r < 1088 then (r - 1024) / 32 else 0
/-- The TLB that a reel's own accesses use (log entry 23). -/
def reelTlb (r : Nat) : Nat := if niReel r then niTlb else dieTlb (reelDie r)

/-! ## Opening and closing (R204, R205, R420) -/

/-- The context fields as the registers hold them (Table 19.5). -/
def regTenant (x : Reel) : Nat := bitsOf (Sparse.get 0 x.regs 0x00) 0 10
def regClass (x : Reel) : Nat := bitsOf (Sparse.get 0 x.regs 0x00) 10 2
def regSize (x : Reel) : Nat := bitsOf (Sparse.get 0 x.regs 0x00) 16 5
def regVector (x : Reel) : Nat := bitsOf (Sparse.get 0 x.regs 0x00) 21 11
def regIntmod (x : Reel) : Nat := bitsOf (Sparse.get 0 x.regs 0x04) 0 8
def regWaitto (x : Reel) : Nat := bitsOf (Sparse.get 0 x.regs 0x04) 16 16
def regRing (x : Reel) : Nat := Sparse.get 0 x.regs 0x08
def regCompl (x : Reel) : Nat := Sparse.get 0 x.regs 0x10
def regBaseseq (x : Reel) : Nat := Sparse.get 0 x.regs 0x18

/-- Whether the fields keep the ranges of Table 9.2. -/
def openRanges (x : Reel) : Bool :=
  decide (regClass x ≤ 2) && regRing x % 4096 == 0 && decide (4 ≤ regSize x) && decide (regSize x ≤ 16) &&
    regCompl x % 16 == 0 && decide (regBaseseq x ≤ 2 ^ 62)

/-- The OPENERR code of an open: 0, or the first failing reason. -/
def openCheck (x : Reel) (d : Dev) : Nat :=
  let t := regTenant x
  if (getRun t d).present = false then 1
  else if ((vectorOwner (regVector x) d).map (·.1)) ≠ some (tenantFn t d) then 2
  else if openRanges x = false then 3
  else if x.state ≠ 0 then 4
  else if tenantGet t 3 d < regClass x then 5
  else 0

/-- REEL_OPEN. -/
def reelOpen (r : Nat) (d : Dev) : Dev :=
  let x := getReel r d
  let e := openCheck x d
  if e = 0 then
    changeReel r (fun x => { x with
      tenant := regTenant x, cls := regClass x, ring := regRing x, size := regSize x, compl := regCompl x
      vector := regVector x, intmod := regIntmod x, waitto := regWaitto x, baseSeq := regBaseseq x
      key := (x.key + 1) % 256, head := 0, tail := 0, state := 1, openErr := 0, closing := false
      descs := [], intLast := none, intDue := false, stopSaid := false }) d
  else modReel r (fun x => { x with openErr := e }) d

/-- A closing reel with nothing in flight is closed. -/
def closeIfIdle (r : Nat) (d : Dev) : Dev :=
  let x := getReel r d
  if x.closing ∧ x.descs.isEmpty then changeReel r (fun x => { x with state := 0, closing := false }) d else d

/-- REEL_CLOSE: descriptors that have not started are dropped. -/
def reelClose (r : Nat) (d : Dev) : Dev :=
  if (getReel r d).state = 0 then d
  else closeIfIdle r (dropWatch (.reel r)
    (modReel r (fun x => { x with closing := true, descs := x.descs.filter fun y => y.started || y.status.isSome }) d))

/-! ## Doorbells (R206, R222) -/

/-- A discarded doorbell is counted. -/
def dropDoorbell (r : Nat) (d : Dev) : Dev := bumpQueue (reelDie r) 3 d

/-- The pointer copies of a reel differ: the descriptor at its head completes with 0x0A and the reel stops. -/
def reelPointers (r : Nat) (d : Dev) : Dev :=
  let x := getReel r d
  let d1 := raiseT 4 evQueuePtr (srcReel r) x.tenant (bumpQueue (reelDie r) 0 d)
  let code := 0x4000 + evQueuePtr
  match x.descs.find? fun y => !y.started && y.status.isNone with
  | some y => setDescStatus r y.seq 0x0A code d1
  | none =>
    if x.head < x.tail then
      changeReel r (fun z => { z with head := z.head + 1, descs := z.descs ++
        [{ seq := z.baseSeq + z.head, bytes := fillBytes 64 0, atHead := d.now, started := false, status := some 0x0A, code := code }] }) d1
    else changeReel r (fun z => { z with state := 2 }) d1

/-- DOORBELL (Table 9.3). With `spoilt` the copies of the pointer that it moves differ (R222). -/
def doorbell (r v : Nat) (spoilt : Bool) (d : Dev) : Dev :=
  let x := getReel r d
  let tail := bitsOf v 0 32
  if bitsOf v 32 8 ≠ x.key ∨ x.state = 0 then dropDoorbell r d
  else
    let step := (tail + 2 ^ 32 - x.tail % 2 ^ 32) % 2 ^ 32
    let ahead := (tail + 2 ^ 32 - x.head % 2 ^ 32) % 2 ^ 32
    if 2 ^ 31 ≤ step ∨ 2 ^ x.size < ahead then raiseT 4 evDoorbellDrop (srcReel r) x.tenant (dropDoorbell r d)
    else if step = 0 then d
    else
      let d1 := changeReel r (fun y => { y with tail := y.tail + step }) d
      if spoilt then reelPointers r d1 else d1

/-! ## Fields of a descriptor (Tables 9.4, 9.6, 9.7) -/

def rdType (b : Bytes) : Nat := fieldAt b 0 1
def rdFlag (b : Bytes) (i : Nat) : Bool := bitOf (fieldAt b 1 1) i
def rdInd (b : Bytes) : Nat := bitsOf (fieldAt b 1 1) 4 3
def rdWait (b : Bytes) : Nat := fieldAt b 2 2
def rdSignal (b : Bytes) : Nat := fieldAt b 4 2
def rdSamt (b : Bytes) : Nat := fieldAt b 6 2
def rdWval (b : Bytes) : Nat := fieldAt b 8 8
def rdWord (b : Bytes) : BitVec 128 := BitVec.ofNat 128 (fieldAt b 0x10 16)

/-- Whether a counter field names the pool, and its index. -/
def ctrPool (c : Nat) : Bool := bitOf c 15
def ctrIndex (c : Nat) : Nat := bitsOf c 0 14

/-! ## The head of a reel (R208 to R211) -/

/-- The oldest descriptor that has not started, where none before it stops the reel. -/
def firstUnstarted : List Desc → Option Desc
  | [] => none
  | x :: l => if x.started then (if (x.status.getD 0) = 0 then firstUnstarted l else none)
    else if x.status.isNone then some x else none
def headDesc (x : Reel) : Option Desc := if x.state = 1 ∧ x.closing = false then firstUnstarted x.descs else none

/-- Whether a descriptor on a tile reel follows the WORD row of Table 9.5. -/
def followsWord (r : Nat) (b : Bytes) : Bool :=
  tileReel r && (rdType b == 1 || (rdFlag b 0 && !ctrPool (rdWait b)) || (rdFlag b 1 && !ctrPool (rdSignal b)))

/-- What the run state says of the head of a tile or network-interface reel (Table 9.5): held, aborted, or go. -/
inductive Gate where
  | go | held | aborted
  deriving DecidableEq, Repr

def reelGate (r : Nat) (b : Bytes) (d : Dev) : Gate :=
  let t := (getReel r d).tenant
  let st := (getRun t d).state
  if followsWord r b then
    match st with
    | .halted => .aborted
    | .running => if (getTile (r / 8) d).owner = t ∧ (getTile (r / 8) d).switchTo.isNone then .go else .held
    | _ => .held
  else if niReel r && rdType b == 1 && st == .halted then .aborted
  else .go

/-- Whether the wait counter of a descriptor may be named (R210). -/
def waitNamed (r : Nat) (b : Bytes) (d : Dev) : Bool :=
  !rdFlag b 0 || (if ctrPool (rdWait b) then ownsPool (getReel r d).tenant (ctrIndex (rdWait b)) d
    else tileReel r && decide (ctrIndex (rdWait b) < 48))
def signalNamed (r : Nat) (b : Bytes) (d : Dev) : Bool :=
  !rdFlag b 1 || (if ctrPool (rdSignal b) then ownsPool (getReel r d).tenant (ctrIndex (rdSignal b)) d
    else tileReel r && decide (ctrIndex (rdSignal b) < 48))

/-- Whether the wait of a descriptor is satisfied as things stand. -/
def waitMetNow (r : Nat) (b : Bytes) (d : Dev) : Bool :=
  !rdFlag b 0 || (let i := ctrIndex (rdWait b)
    if ctrPool (rdWait b) then !watching (.reel r) d && !poolPoisoned i d && decide (rdWval b ≤ poolValue i d)
    else !localPoisoned (r / 8) i d && decide (rdWval b ≤ localValue (r / 8) i d))

/-- The wait is tested; a pool wait that is not satisfied leaves a watch (R192). -/
def testWait (r : Nat) (b : Bytes) (d : Dev) : Bool × Dev :=
  if rdFlag b 0 then
    if ctrPool (rdWait b) then poolWait (.reel r) (ctrIndex (rdWait b)) (rdWval b) d
    else localWait (r / 8) (ctrIndex (rdWait b)) (rdWval b) d
  else (true, d)

/-- Whether the fence, the start limit and the issue queue let a descriptor start. -/
def startFree (r : Nat) (x : Reel) (b : Bytes) (d : Dev) : Bool :=
  let open_ := (x.descs.filter fun y => y.started && y.status.isNone).length
  (!rdFlag b 2 || open_ == 0) && decide (open_ < startLimit r) &&
    (!(tileReel r && rdType b == 1 && decide (wEng (rdWord b) < 6)) ||
      decide ((queueOf (r / 8) (wEng (rdWord b)) d).length + 2 ≤ queueDepth (wEng (rdWord b))))

/-- Whether a reel has a startable descriptor at its head. -/
def startable (r : Nat) (d : Dev) : Bool :=
  let x := getReel r d
  match headDesc x with
  | none => false
  | some y =>
    match reelGate r y.bytes d with
    | .held => false
    | .aborted => true
    | .go => waitNamed r y.bytes d && waitMetNow r y.bytes d && startFree r x y.bytes d

/-- The reel that its owner serves next (R209). -/
def granted (o : Nat) (d : Dev) : Option Nat :=
  let rs := (ownerReels o).filter fun r => startable r d
  [2, 1, 0].findSome? fun c =>
    let l := rs.filter fun r => (getReel r d).cls == c
    let last := Sparse.get 0 d.reelLast (o * 4 + c)
    match l.find? fun r => decide (last ≤ r) with
    | some r => some r
    | none => l.head?

/-- A descriptor is granted its start; the next search of its class begins past it. -/
def noteGrant (r : Nat) (d : Dev) : Dev :=
  { d with reelLast := Sparse.set 0 d.reelLast (reelOwner r * 4 + (getReel r d).cls) (r + 1) }

/-- A descriptor leaves the place of the head; the next one has reached it. -/
def headMoves (r seq : Nat) (d : Dev) : Dev :=
  modReel r (fun x => { x with descs := x.descs.map fun y => if y.seq = seq + 1 then { y with atHead := d.now } else y }) d

/-- The head completes without having started. -/
def failDesc (r seq status code : Nat) (d : Dev) : Dev :=
  headMoves r seq (dropWatch (.reel r) (setDescStatus r seq status code d))

/-- The head starts. -/
def markStarted (r seq : Nat) (d : Dev) : Dev :=
  headMoves r seq (modReel r (fun x => { x with descs := x.descs.map fun y => if y.seq = seq then { y with started := true } else y }) d)

/-- The head starts and completes at once. -/
def startDone (r seq status code : Nat) (d : Dev) : Dev := setDescStatus r seq status code (markStarted r seq d)

/-! ## Fetch (R208, R223, R224) -/

/-- A fetched item: it joins the reel; the first unstarted one is at the head. -/
def joinDesc (r : Nat) (b : Bytes) (status : Option Nat) (code : Nat) (d : Dev) : Dev :=
  changeReel r (fun x => { x with head := x.head + 1, descs := x.descs ++
    [{ seq := x.baseSeq + x.head, bytes := b, atHead := d.now, started := false, status := status, code := code }] }) d

/-- The pointer copies of a reel's fetch buffer differ (R222): it is emptied, its descriptors complete with 0x09 (log entry
28) and their run halts. -/
def fetchPointers (r : Nat) (d : Dev) : Dev :=
  let x := getReel r d
  let lost := x.descs.filter fun y => !y.started && y.status.isNone
  let d1 := bumpQueue (reelDie r) 0 d
  if lost.isEmpty then raiseT 4 evQueuePtr (srcReel r) x.tenant d1
  else lost.foldl (fun d y => setDescStatus r y.seq 0x09 (0x2000 + evQueuePtr) d)
    (dropWatch (.reel r) (faultRun 2 evQueuePtr (srcReel r) x.tenant d1))

/-- DESCRIPTOR_FETCH: the next slot of an open reel is read. `spoil` says what goes wrong inside (R222 to R224): 0
nothing; 1 the item goes bad in the fetch buffer once, and is rewound and repeated; 2 twice, or 3 an
uncorrectable word after it committed: it is discarded; 4 the reel's pointer copies differ, or 5 those of its fetch
buffer. -/
def descriptorFetch (r spoil : Nat) (d : Dev) : Dev :=
  let x := getReel r d
  let waiting := (x.descs.filter fun y => !y.started && y.status.isNone).length
  let blocked := x.descs.any fun y => (y.status.getD 0) != 0 || (rdType y.bytes == 6 && (y.status.getD 0) == 0)
  if spoil = 4 ∧ x.state = 1 then reelPointers r d
  else if spoil = 5 ∧ x.state = 1 then fetchPointers r d
  else if x.state = 1 ∧ x.closing = false ∧ x.head < x.tail ∧ waiting < 4 ∧ blocked = false then
    let m := vaFetch (reelTlb r) x.tenant 0 (x.ring + 64 * (x.head % 2 ^ x.size)) 64 d
    match m.1 with
    | .wait => m.2.2
    | .ok =>
      if spoil = 0 then joinDesc r m.2.1 none 0 m.2.2
      else if spoil = 1 then joinDesc r m.2.1 none 0 (bumpQueue (reelDie r) 1 m.2.2)
      else
        let d2 := if spoil = 2 then bumpQueue (reelDie r) 1 (bumpQueue (reelDie r) 1 m.2.2) else m.2.2
        joinDesc r (fillBytes 64 0) (some 0x09) (0x2000 + evQueueUe)
          (faultRun 2 evQueueUe (srcReel r) x.tenant (bumpQueue (reelDie r) 2 d2))
    | .ue => joinDesc r (fillBytes 64 0) (some 0x09) m.1.code m.2.2
    | bad =>
      match descFault bad (srcReel r) x.tenant m.2.2 with
      | (.ends s c, d1) => joinDesc r (fillBytes 64 0) (some s) c d1
      | (.waits, d1) => d1
  else d

/-! ## Checks made as a descriptor starts (Table 9.9) -/

/-- Whether a reel takes a TYPE (Table 9.1). -/
def typeTaken (r : Nat) (b : Bytes) : Bool :=
  let ty := rdType b
  if tileReel r then ty == 0 || (ty == 1 && decide (wEng (rdWord b) < 6))
  else if niReel r then ty == 0 || (ty == 1 && wEng (rdWord b) == 6)
  else ty == 0 || (decide (2 ≤ ty) && decide (ty ≤ 6))

/-- IND flags that a TYPE defines. -/
def indTaken (ty : Nat) : Nat := if ty = 1 then 1 else if ty = 2 then 7 else 0

/-- A put or a get of a network-interface reel. -/
def putOrGet (b : Bytes) : Bool := wEng (rdWord b) == 6 && decide (wOp (rdWord b) ≤ 1)

/-- Whether the body of a descriptor keeps its ranges and reserved fields (Tables 9.6 and 9.7, R212 to R216). -/
def bodyGood (r : Nat) (b : Bytes) : Bool :=
  match rdType b with
  | 1 =>
    let w := rdWord b
    wField w 10 1 == 0 && wWctr w == 63 && wWreg w == 0 && wSctr w == 63 && wSadd w == 0 &&
      (!rdFlag b 4 || (wField w 32 96 == 0 && fieldAt b 0x20 8 % 16 == 0 && decide (fieldAt b 0x20 8 < 2 ^ 48))) &&
      (if niReel r && putOrGet b then fieldAt b 0x28 8 % 64 == 0 && decide (fieldAt b 0x28 8 < 2 ^ 48) else fieldAt b 0x28 8 == 0) &&
      allZero (b.drop 0x30)
  | 2 | 3 => true
  | 4 => fieldAt b 0x10 8 % 4096 == 0 && decide (fieldAt b 0x10 8 < 2 ^ 48) && allZero (b.drop 0x18)
  | 5 => decide (fieldAt b 0x10 8 < 2 ^ 48) && allZero (b.drop 0x18)
  | _ => allZero (b.drop 0x10)

/-- A local counter that is named must be one of the 48 of a tile. -/
def localInRange (on : Bool) (c : Nat) : Bool := !on || ctrPool c || decide (ctrIndex c < 48)

/-- The first check that a descriptor fails for what it holds: 0x01, 0x02 or 0x04; 0 where it passes. It is made as
the descriptor reaches the head, before its run state and its wait count, and again as it starts. -/
def staticCheck (r : Nat) (b : Bytes) (d : Dev) : Nat :=
  if typeTaken r b = false then 0x01
  else if rdFlag b 7 ∨ (List.range 3).any (fun i => bitOf (rdInd b) i && !bitOf (indTaken (rdType b)) i) ∨
      bitOf (rdWait b) 14 ∨ bitOf (rdSignal b) 14 ∨ localInRange (rdFlag b 0) (rdWait b) = false ∨
      localInRange (rdFlag b 1) (rdSignal b) = false ∨ bodyGood r b = false then 0x02
  else if waitNamed r b d = false ∨ signalNamed r b d = false then 0x04
  else 0

/-- The run state in which a TYPE starts (Table 9.5): 0x05, or 0 where it passes. -/
def stateCheck (r : Nat) (b : Bytes) (d : Dev) : Nat :=
  let st := (getRun (getReel r d).tenant d).state
  match rdType b with
  | 1 => if niReel r ∧ st ≠ .armed ∧ st ≠ .running then 0x05 else 0
  | 3 => if st = .running then 0 else 0x05
  | 4 => if st = .created then 0 else 0x05
  | 5 => if st = .loaded then 0 else 0x05
  | _ => 0

/-- The first check a descriptor fails as it starts: 0x01, 0x02, 0x04 or 0x05; 0 where it passes. -/
def startCheck (r : Nat) (b : Bytes) (d : Dev) : Nat :=
  let c := staticCheck r b d
  if c ≠ 0 then c else stateCheck r b d

/-! ## The start of each type (R211 to R216) -/

/-- WORD: the word, with its indirect bits, is placed in its issue queue. -/
def startWord (r : Nat) (y : Desc) (d : Dev) : Dev :=
  let t := (getReel r d).tenant
  let b := y.bytes
  let place (w : BitVec 128) (d : Dev) : Dev :=
    if niReel r && putOrGet b && wField w 52 17 != 0 then startDone r y.seq 0x02 0 d
    else if headerGood w = false then
      startDone r y.seq 0x08 (0x1000 + evWordHeader) (faultRun 1 evWordHeader (srcReel r) t d)
    else if wEng w = 6 ∧ wOp w = 2 ∧ wField w 66 32 = 0 then
      startDone r y.seq 0x08 (0x1000 + evCounterDecrease) (faultRun 1 evCounterDecrease (srcReel r) t d)
    else enqueue (if niReel r then 128 else r / 8) w 0 t 0 (some (r, y.seq)) (fieldAt b 0x28 8) (markStarted r y.seq d)
  if rdFlag b 4 then
    let m := vaFetch (reelTlb r) t 0 (fieldAt b 0x20 8) 16 d
    match m.1 with
    | .ok => place (BitVec.ofNat 128 ((rdWord b).toNat % 2 ^ 32 + fieldAt m.2.1 4 12 * 2 ^ 32)) m.2.2
    | .ue => startDone r y.seq 0x09 m.1.code m.2.2
    | bad =>
      match descFault bad (srcReel r) t m.2.2 with
      | (.ends s c, d1) => startDone r y.seq s c d1
      | (.waits, d1) => d1
  else place (rdWord b) d

/-- The DMA descriptor (Table 7.3) of a TRANSFER, from its own fields or the indirect ones. -/
def transferDesc (b : Bytes) (src dst len c1 c2 : Nat) (s1 : Int) : Bytes :=
  leBytes 1 (fieldAt b 0x10 1) ++ leBytes 1 (fieldAt b 0x11 1) ++ leBytes 1 (fieldAt b 0x12 1) ++ leBytes 1 (fieldAt b 0x13 1) ++
    leBytes 4 0 ++ leBytes 8 src ++ leBytes 8 dst ++ leBytes 4 len ++ leBytes 2 c1 ++ leBytes 2 c2 ++
    leBytes 8 (unsignedOf 64 s1) ++ leBytes 8 (unsignedOf 64 (signedOf 48 (fieldAt b 0x32 6))) ++
    leBytes 4 (fieldAt b 0x38 4) ++ leBytes 4 (fieldAt b 0x3C 4) ++ leBytes 4 (fieldAt b 0x14 4) ++ leBytes 4 0

/-- The fields of a TRANSFER that the reel adds to those of the DMA descriptor (R213, R214): the KIND, the addresses of
the indirect values, and LEN and the counts beside IND2. -/
def transferFields (b : Bytes) : Bool :=
  decide (fieldAt b 0x10 1 < 3) && (!rdFlag b 4 || fieldAt b 0x18 6 % 8 == 0) && (!rdFlag b 5 || fieldAt b 0x1E 6 % 8 == 0) &&
    (!rdFlag b 6 || (fieldAt b 0x2C 6 % 16 == 0 && fieldAt b 0x24 8 == 0))

/-- A TRANSFER out of its ranges raises DMA_CONFIG, as the DMA descriptor that it is executed as would (R213); DEDUCED
(log entry 29) for the fields of the reel's own. -/
def transferBad (r seq : Nat) (d : Dev) : Dev :=
  startDone r seq 0x02 (0x1000 + evDmaConfig) (faultRun 1 evDmaConfig (srcReel r) (getReel r d).tenant d)

/-- One indirect value is read, where its flag is set. -/
def indRead (w t : Nat) (on : Bool) (va n : Nat) (d : Dev) : Met × Bytes × Dev :=
  if on then vaRead w t 0 va n d else (.ok, [], d)

/-- TRANSFER: the indirect parameters in the order IND2, IND0, IND1, then the DMA descriptor. -/
def startTransfer (r : Nat) (y : Desc) (d : Dev) : Dev :=
  let t := (getReel r d).tenant
  let b := y.bytes
  if transferFields b = false then transferBad r y.seq d else
  let i2 := indRead (reelTlb r) t (rdFlag b 6) (fieldAt b 0x2C 6) 16 d
  let i0 := if i2.1 = .ok then indRead (reelTlb r) t (rdFlag b 4) (fieldAt b 0x18 6) 8 i2.2.2 else (i2.1, [], i2.2.2)
  let i1 := if i0.1 = .ok then indRead (reelTlb r) t (rdFlag b 5) (fieldAt b 0x1E 6) 8 i0.2.2 else (i0.1, [], i0.2.2)
  match i1.1 with
  | .wait => i1.2.2
  | .ok =>
    let d1 := dropReads (tenantFn t d) i1.2.2
    let src := if rdFlag b 4 then leNat i0.2.1 else fieldAt b 0x18 6
    let dst := if rdFlag b 5 then leNat i1.2.1 else fieldAt b 0x1E 6
    if 2 ^ 48 ≤ src ∨ 2 ^ 48 ≤ dst then transferBad r y.seq d1
    else
      let desc := if rdFlag b 6 then
          transferDesc b src dst (fieldAt i2.2.1 0 4) (fieldAt i2.2.1 4 2) (fieldAt i2.2.1 6 2) (signedOf 64 (fieldAt i2.2.1 8 8))
        else transferDesc b src dst (fieldAt b 0x24 4) (fieldAt b 0x28 2) (fieldAt b 0x2A 2) (signedOf 48 (fieldAt b 0x2C 6))
      let x : Chain := { tile := reelOwner r, tenant := t, ctx := 0, base := 0, count := 1, nextIndex := 0, flight := [],
                         reel := some (r, y.seq), number := y.seq, failed := 0 }
      let d2 := markStarted r y.seq d1
      startDesc x 0 desc { d2 with chains := d2.chains ++ [x] }
  | .ue => startDone r y.seq 0x09 i1.1.code (dropReads (tenantFn t d) i1.2.2)
  | bad =>
    match descFault bad (srcReel r) t (dropReads (tenantFn t d) i1.2.2) with
    | (.ends s c, d1) => startDone r y.seq s c d1
    | (.waits, d1) => d1

/-- COLLECT: its request records go to the collector of the reel's die; a record of zeros is skipped. -/
def startCollect (r : Nat) (y : Desc) (d : Dev) : Dev :=
  let t := (getReel r d).tenant
  let records := [0x10, 0x20, 0x30].map fun o => (y.bytes.drop o).take 16
  startDone r y.seq 0 0 ((records.filter fun x => !allZero x).foldl (fun d x => collectorRequest (reelDie r) t x d) d)

/-- LOAD and ARM end with what the run control answers. -/
def startControl (r : Nat) (y : Desc) (c : Control × Dev) : Dev :=
  match c.1 with
  | .waits => c.2
  | .ends s code => startDone r y.seq s code c.2

/-- The start of a descriptor whose checks have passed. -/
def startBody (r : Nat) (y : Desc) (d : Dev) : Dev :=
  let t := (getReel r d).tenant
  match rdType y.bytes with
  | 0 => startDone r y.seq 0 0 d
  | 1 => startWord r y d
  | 2 => startTransfer r y d
  | 3 => startCollect r y d
  | 4 => startControl r y (loadRun t (fieldAt y.bytes 0x10 8) (srcReel r) d)
  | 5 => startControl r y (armRun t (fieldAt y.bytes 0x10 8) (srcReel r) d)
  | _ => requestTeardown t (markStarted r y.seq d)

/-- One of NOP, WORD, TRANSFER, COLLECT, LOAD, ARM and TEARDOWN at the head of a reel: held, waiting, or started
under its owner's grant. A reserved TYPE is met by any of them. -/
def reelRow (ty r : Nat) (d : Dev) : Dev :=
  let x := getReel r d
  match headDesc x with
  | none => d
  | some y =>
    if (rdType y.bytes = ty ∨ 6 < rdType y.bytes) ∧ d.fatal = false then
      if staticCheck r y.bytes d ≠ 0 then failDesc r y.seq (staticCheck r y.bytes d) 0 d
      else match reelGate r y.bytes d with
      | .held => d
      | .aborted => if granted (reelOwner r) d = some r then failDesc r y.seq 0x07 0 (noteGrant r d) else d
      | .go =>
        let w := testWait r y.bytes d
        if w.1 ∧ startFree r x y.bytes w.2 ∧ granted (reelOwner r) w.2 = some r then
          let d1 := noteGrant r w.2
          let c := startCheck r y.bytes d1
          if c ≠ 0 then failDesc r y.seq c 0 d1 else startBody r y d1
        else w.2
    else d

/-- DESCRIPTOR_WAIT_TIMEOUT: the head's wait has not been satisfied within WAITTO of its reaching the head; the
time in which it was held does not count. -/
def descriptorWaitTimeout (r : Nat) (d : Dev) : Dev :=
  let x := getReel r d
  match headDesc x with
  | none => d
  | some y =>
    if rdFlag y.bytes 0 ∧ x.waitto ≠ 0 ∧ y.atHead + x.waitto * tUs ≤ d.now ∧ reelGate r y.bytes d = .go ∧
        waitNamed r y.bytes d ∧ waitMetNow r y.bytes d = false then
      failDesc r y.seq 0x06 (0x4000 + evReelTimeout) (raiseT 4 evReelTimeout (srcReel r) x.tenant d)
    else d

/-- A unit of time passes: heads that are held gain it (R211). -/
def shiftHeld (n : Nat) (d : Dev) : Dev :=
  (d.reels.map (·.1)).foldl (fun d r =>
    match headDesc (getReel r d) with
    | none => d
    | some y => if reelGate r y.bytes d = .held then
        modReel r (fun x => { x with descs := x.descs.map fun z => if z.seq = y.seq then { z with atHead := z.atHead + n } else z }) d
      else d) d

/-! ## Completion (R217 to R219) -/

/-- The signal of a descriptor that has done its work is added (R210). -/
def signalDesc (r : Nat) (y : Desc) (d : Dev) : Dev :=
  let t := (getReel r d).tenant
  let b := y.bytes
  let put (status code : Nat) (d : Dev) : Dev :=
    modReel r (fun x => { x with descs := x.descs.map fun z =>
      if z.seq = y.seq then { z with signalled := true, status := some status, code := code } else z }) d
  if rdFlag b 1 then
    let i := ctrIndex (rdSignal b)
    if ctrPool (rdSignal b) && !ownsPool t i d then put 0x04 (0x4000 + evCounterStale) (staleAdd i (some t) d)
    else
      match (if ctrPool (rdSignal b) then poolAdd i (rdSamt b + 1) d else localAdd (r / 8) i (rdSamt b + 1) d) with
      | (.applied, d1) => put 0 0 d1
      | (.wrapped, d1) => put 0x04 (0x1000 + evCounterWrap) (faultRun 1 evCounterWrap (srcReel r) t d1)
  else put 0 0 d

/-- Every descriptor that has done its work adds its signal. -/
def signalAll (r : Nat) (d : Dev) : Dev :=
  ((getReel r d).descs.filter fun y => y.status == some 0 && !y.signalled).foldl (fun d y => signalDesc r y d) d

/-- A due interrupt is sent, or waits for the end of the interval (R219). -/
def reelInterrupt (r : Nat) (d : Dev) : Dev :=
  let x := getReel r d
  let now := match x.intLast with
    | none => true
    | some l => decide (x.intmod = 0) || decide (l + x.intmod * tUs ≤ d.now)
  if now then sendVector x.vector (modReel r (fun x => { x with intLast := some d.now }) d)
  else modReel r (fun x => { x with intDue := true }) d

/-- The completion word for sequence number `s`. -/
def completionWord (r s : Nat) (stop : Bool) (d : Dev) : Dev :=
  let x := getReel r d
  hostWrite (tenantFn x.tenant d) x.compl (leBytes 8 (s % 2 ^ 63 + (if stop then 2 ^ 63 else 0))) d

/-- The status word of Table 9.8. -/
def statusWord (r : Nat) (y : Desc) (status code : Nat) (d : Dev) : Dev :=
  let x := getReel r d
  hostWrite (tenantFn x.tenant d) (x.compl + 8)
    (leBytes 1 status ++ leBytes 1 (rdType y.bytes) ++ leBytes 2 code ++ leBytes 4 y.seq) d

/-- Whether a status is reported by REEL_DESC (Table 9.12). -/
def reelDescStatus (s code : Nat) : Bool := s == 4 || (code == 0 && (s == 1 || s == 2 || s == 5))

/-- The descriptors at the front that have completed well. -/
def doneFront : List Desc → List Desc
  | [] => []
  | y :: l => if y.status = some 0 ∧ y.signalled then y :: doneFront l else []

/-- Completions of a reel are reported in order: one completion word for the highest, then the stop. -/
def reportReel (r : Nat) (d : Dev) : Dev :=
  let x := getReel r d
  if x.state = 0 ∨ (x.stopSaid ∧ x.closing = false) then d
  else
    let good := doneFront x.descs
    let rest := x.descs.drop good.length
    let intr := good.any fun y => rdFlag y.bytes 3
    let last := ((good.getLast?).map (·.seq)).getD x.lastSeq
    match rest with
    | y :: more =>
      match y.status with
      | none | some 0 =>
        if good.isEmpty then d
        else
          let d1 := completionWord r last false (changeReel r (fun x => { x with descs := rest, lastSeq := last }) d)
          if intr then reelInterrupt r d1 else d1
      | some s =>
        let d1 := if reelDescStatus s y.code then raiseT 1 evReelDesc (srcReel r) x.tenant d else d
        let code := if reelDescStatus s y.code then 0x1000 + evReelDesc else y.code
        let d2 := completionWord r y.seq true (statusWord r y s code
          (changeReel r (fun x => { x with descs := more, lastSeq := y.seq, state := 2, stopSaid := true }) d1))
        reelInterrupt r d2
    | [] =>
      if good.isEmpty then d
      else
        let d1 := completionWord r last false (changeReel r (fun x => { x with descs := [], lastSeq := last }) d)
        if intr then reelInterrupt r d1 else d1

/-- DESCRIPTOR_COMPLETE. -/
def descriptorComplete (r : Nat) (d : Dev) : Dev := reportReel r (signalAll r d)

/-- REEL_RESUME: a stopped reel goes on, and reports what completed meanwhile. -/
def reelResume (r : Nat) (d : Dev) : Dev :=
  if (getReel r d).state = 2 then descriptorComplete r (changeReel r (fun x => { x with state := 1, stopSaid := false }) d)
  else d

/-- INTERRUPT_MODERATION_EXPIRY. -/
def interruptModerationExpiry (r : Nat) (d : Dev) : Dev :=
  let x := getReel r d
  match x.intLast with
  | none => d
  | some l => if x.intDue ∧ l + x.intmod * tUs ≤ d.now then
      sendVector x.vector (modReel r (fun x => { x with intDue := false, intLast := some d.now }) d)
    else d

/-! ## Halt, teardown and function-level reset (R220, R221) -/

/-- The reels bound to a tenant that are not closed. -/
def tenantReels (t : Nat) (d : Dev) : List Nat := (d.reels.filter fun p => p.2.tenant == t && p.2.state != 0).map (·.1)

/-- At a halt, tile and network-interface reels of the tenant stop; a head that a halted run does not let start completes
with 0x07 (Table 9.5). -/
def reelsHalt (t : Nat) (d : Dev) : Dev :=
  ((tenantReels t d).filter fun r => tileReel r || niReel r).foldl (fun d r =>
    let d1 := match headDesc (getReel r d) with
      | some y => if followsWord r y.bytes || (niReel r && rdType y.bytes == 1) then failDesc r y.seq 0x07 0 d else d
      | none => d
    changeReel r (fun x => { x with state := 2 }) d1) d

/-- What a started descriptor completes with at a teardown. -/
def abortStatus (y : Desc) : Desc :=
  if y.started ∧ y.status.isNone then { y with status := some (if rdType y.bytes = 6 then 0 else 0x07), signalled := true } else y

/-- A reel of a torn-down run: started descriptors complete, the others are dropped, the final completion word is
written and the reel closes. -/
def reelTeardown (writes : Bool) (r : Nat) (d : Dev) : Dev :=
  let x := getReel r d
  let ds := (x.descs.filter fun y => y.started || y.status.isSome).map abortStatus
  let d1 := dropWatch (.reel r) (modReel r (fun x => { x with descs := ds }) d)
  let d2 := match ds.getLast? with
    | none => d1
    | some y =>
      let s := y.status.getD 0
      let d3 := modReel r (fun x => { x with lastSeq := y.seq }) d1
      if writes then completionWord r y.seq (s != 0) (if s = 0 then d3 else statusWord r y s y.code d3) else d3
  changeReel r (fun x => { x with state := 0, closing := false, descs := [], stopSaid := false, intDue := false }) d2

/-- Every reel of a tenant closes. -/
def reelsTeardown (t : Nat) (writes : Bool) (d : Dev) : Dev :=
  (tenantReels t d).foldl (fun d r => reelTeardown writes r d) d

/-! ## The rows -/

def reelOk (r : Nat) : Bool := decide (r < 1152)

/-- A doorbell or a resume through the PF, or through a VF's slot; one that names no reel is discarded and counted
(R421). -/
def throughSlot (fn i : Nat) (f : Nat → Dev → Dev) (d : Dev) : Dev :=
  barAccess fn (fun d => match accessReel fn i d with
    | some r => f r d
    | none => bumpQueue 0 3 d) d

def execReelOpen (reel : Nat) (s : State) : Host.Outcome State Fault Refusal :=
  onDev (reelOk reel) (barAccess 0 (reelOpen reel)) s
def execReelClose (reel : Nat) (s : State) : Host.Outcome State Fault Refusal :=
  onDev (reelOk reel) (barAccess 0 (reelClose reel)) s
def execReelCloseComplete (reel : Nat) (s : State) : Host.Outcome State Fault Refusal := onDev (reelOk reel) (closeIfIdle reel) s
def execReelResume (fn index : Nat) (s : State) : Host.Outcome State Fault Refusal :=
  onDev (accessOk fn index) (throughSlot fn index reelResume) s
def execDoorbell (fn index value : Nat) (spoilt : Bool) (s : State) : Host.Outcome State Fault Refusal :=
  onDev (accessOk fn index) (throughSlot fn index fun r => doorbell r value spoilt) s
def execDescriptorFetch (reel spoil : Nat) (s : State) : Host.Outcome State Fault Refusal :=
  onDev (reelOk reel) (descriptorFetch reel spoil) s
def execNop (reel : Nat) (s : State) : Host.Outcome State Fault Refusal := onDev (reelOk reel) (reelRow 0 reel) s
def execWord (reel : Nat) (s : State) : Host.Outcome State Fault Refusal := onDev (reelOk reel) (reelRow 1 reel) s
def execTransfer (reel : Nat) (s : State) : Host.Outcome State Fault Refusal := onDev (reelOk reel) (reelRow 2 reel) s
def execCollect (reel : Nat) (s : State) : Host.Outcome State Fault Refusal := onDev (reelOk reel) (reelRow 3 reel) s
def execLoad (reel : Nat) (s : State) : Host.Outcome State Fault Refusal := onDev (reelOk reel) (reelRow 4 reel) s
def execArm (reel : Nat) (s : State) : Host.Outcome State Fault Refusal := onDev (reelOk reel) (reelRow 5 reel) s
def execTeardown (reel : Nat) (s : State) : Host.Outcome State Fault Refusal := onDev (reelOk reel) (reelRow 6 reel) s
def execDescriptorWaitTimeout (reel : Nat) (s : State) : Host.Outcome State Fault Refusal :=
  onDev (reelOk reel) (descriptorWaitTimeout reel) s
def execDescriptorComplete (reel : Nat) (s : State) : Host.Outcome State Fault Refusal :=
  onDev (reelOk reel) (descriptorComplete reel) s
def execInterruptModerationExpiry (reel : Nat) (s : State) : Host.Outcome State Fault Refusal :=
  onDev (reelOk reel) (interruptModerationExpiry reel) s

end Sys2Proof.Machine
end

