-- ==== Sys2Proof/Machine/Segments.lean ====
section
/-!
DEFINITION. Segments on tiles: their begin and finish (R45, R135), tile windows and cuts (R344, R345), tenant
switches (R163, R347), rank contexts during failover (R331), and what a halt does to a tile (R153).
-/
namespace Sys2Proof.Machine

/-! ## Rank contexts of a tile (R331) -/

/-- The core registers of a rank context: those the core runs with, or those that wait. -/
def ctxOf (x : Tile) (ctx : Nat) : CoreCtx :=
  if x.runCtx = ctx then { seg := x.seg, nextSegs := x.nextSegs, pc := x.pc, wait := x.wait, g := x.g } else x.other
def withCtx (x : Tile) (ctx : Nat) (c : CoreCtx) : Tile :=
  if x.runCtx = ctx then { x with seg := c.seg, nextSegs := c.nextSegs, pc := c.pc, wait := c.wait, g := c.g }
  else { x with other := c }
def modCtx (tile ctx : Nat) (f : CoreCtx → CoreCtx) (d : Dev) : Dev := modTile tile (fun x => withCtx x ctx (f (ctxOf x ctx))) d

/-- The waiter that stands for the context that is not running. -/
def otherWaiter (tile : Nat) : Waiter := .core (tile + 128)

/-- The contexts change places, their watches with them. -/
def swapCtx (tile : Nat) (d : Dev) : Dev :=
  let rename (w : Waiter) : Waiter :=
    if w = .core tile then otherWaiter tile else if w = otherWaiter tile then .core tile else w
  let d1 := modTile tile (fun x =>
    let o := x.other
    { x with
      runCtx := 1 - x.runCtx, seg := o.seg, nextSegs := o.nextSegs, pc := o.pc, wait := o.wait, g := o.g
      other := { seg := x.seg, nextSegs := x.nextSegs, pc := x.pc, wait := x.wait, g := x.g } }) d
  modTObs tile (fun y => { y with stallFrom := none })
    { d1 with ctr.watches := d1.ctr.watches.map fun w => { w with waiter := rename w.waiter } }

/-- Whether a context that is not running could go on at once. -/
def ctxReady (tile : Nat) (d : Dev) : Bool :=
  let x := getTile tile d
  let c := x.other
  match c.seg with
  | none => false
  | some g => !g.ended &&
    (match c.wait with
     | .free => true
     | .issueFull a =>
       let e := wEng ((Sparse.get 0 c.g (a + 1)) ++ (Sparse.get 0 c.g a))
       decide ((queueOf tile e d).length < queueDepth e)
     | .engines m => ctxDone tile (1 - x.runCtx) m d
     | .counter p i e => if p then !watching (otherWaiter tile) d && decide (e ≤ poolValue i d) && !poolPoisoned i d
         else !localPoisoned tile i d && decide (e ≤ localValue tile i d)
     | .timed p i e _ limit => decide (limit ≤ ccNow d) ||
         (if p then !watching (otherWaiter tile) d && decide (e ≤ poolValue i d) && !poolPoisoned i d
          else !localPoisoned tile i d && decide (e ≤ localValue tile i d)))

/-- Whether the running context has nothing to execute: no segment, an ended one, or a stall of codes 3 to 6. -/
def ctxStalled (tile : Nat) (d : Dev) : Bool :=
  let x := getTile tile d
  match x.seg with
  | none => true
  | some g => g.ended || x.wait != .free

/-- CONTEXT_SWITCH: during failover a stalled core goes over to the other context, where that is ready. -/
def contextSwitch (tile : Nat) (d : Dev) : Dev :=
  if (d.twin.state = 5 ∨ d.twin.state = 6) ∧ ctxStalled tile d ∧ ctxReady tile d ∧ d.fatal = false then swapCtx tile d else d

/-! ## The beginning of a segment -/

/-- Units of time from the tick to `n` of the 256 parts of a frame. -/
def windowAt (n : Nat) (d : Dev) : Nat := d.clk.lastTick + n * framePeriod d / 256

/-- A segment's first instruction is reached. -/
def startSegment (tile : Nat) (g : Segment) (d : Dev) : Dev :=
  let s := { g with startedAt := ccNow d }
  let d1 := modTile tile (fun x =>
    withCtx { x with owner := g.tenant, stopped := false } g.ctx
      { ctxOf x g.ctx with seg := some s, pc := g.entry, wait := .free }) d
  let d2 := clearActivity tile g.ctx d1
  if (getTile tile d2).runCtx = g.ctx then traceSeg tile g.entry d2 else d2

/-- A tile that has had no owner takes its first without a switch: no state is saved or cleared, and that of the run
is restored from its area at once (DEDUCED, log entry 47). What cannot be read at once is left to TENANT_SWITCH. -/
def firstOwner (tile : Nat) (g : Segment) (d : Dev) : Dev :=
  let r := vaFetch tile g.tenant 0 (contextVa g.tenant tile d) 4096 d
  if r.1 = .ok then startSegment tile g (restoreContext tile r.2.1 r.2.2)
  else modTile tile (fun x => { x with switchTo := some g, switchAt := none }) r.2.2

/-- A segment begins, or waits: for captures (R455), or for a tenant switch. -/
def beginSegment (tile : Nat) (g : Segment) (d : Dev) : Dev :=
  let x := getTile tile d
  if (ctxOf x g.ctx).seg.isSome ∨ x.switchTo.isSome then modCtx tile g.ctx (fun c => { c with nextSegs := c.nextSegs ++ [g] }) d
  else if g.ctx = 0 && captureHolds tile d then
    raiseObsHold tile g.tenant g.runFrame (modCtx tile g.ctx (fun c => { c with nextSegs := c.nextSegs ++ [g] }) d)
  else if x.owner = g.tenant then startSegment tile g d
  else if x.owner = 0xFFFF then firstOwner tile g d
  else modTile tile (fun x => { x with switchTo := some g, switchAt := none }) d

/-- The next segment that waits on a tile's context begins, where it can. -/
def nextSegment (tile ctx : Nat) (d : Dev) : Dev :=
  let c := ctxOf (getTile tile d) ctx
  match c.seg, c.nextSegs with
  | none, g :: rest =>
    if (getTile tile d).switchTo.isSome then d
    else if ctx = 0 && captureHolds tile d then d
    else beginSegment tile g (modCtx tile ctx (fun c => { c with nextSegs := rest }) d)
  | _, _ => d

/-- A segment that a run frame gives a tile: at once, or in the tenant's window (R345). -/
def giveSegment (tile : Nat) (g : Segment) (d : Dev) : Dev :=
  if windowed g.tenant d then modTile tile (fun x => { x with windowSegs := x.windowSegs ++ [g] }) d
  else beginSegment tile g d

/-- WINDOW_START: a windowed tile begins its tenant's segment at the window's start. -/
def windowStart (tile : Nat) (d : Dev) : Dev :=
  let open_ (g : Segment) : Bool := decide (windowAt (windowOf g.tenant d).1 d ≤ d.now) && decide (d.now < windowAt (windowOf g.tenant d).2 d)
  match (getTile tile d).windowSegs.find? open_ with
  | none => d
  | some g => beginSegment tile g (modTile tile (fun x => { x with windowSegs := x.windowSegs.filter (· != g) }) d)

/-! ## The finish of a segment -/

/-- The local counters of a rank context's footprint (Table 14.5). -/
def footprintCounters (t ctx : Nat) (d : Dev) : Nat := bitsOf (ctxGet t ctx 0x38 d) 128 48

/-- STATE_SNAPSHOT_SEND: the item-1 record of a tile, in pieces of 240 bytes of its context-area form with the
local counters of the footprint (R318). -/
def sendSnapshot (tile : Nat) (g : Segment) (d : Dev) : Dev :=
  if mirrorsCtx g.ctx d && mirrored g.tenant d then
    let x := getTile tile d
    let c := ctxOf x g.ctx
    let lc (i : Nat) : Nat := if bitOf (footprintCounters g.tenant g.ctx d) i then (Sparse.get 0 x.lc i).toNat else 0
    let bs := (contextBytes (fun n => (Sparse.get 0 x.gen (genKey g.ctx n)).toNat) (fun i => (Sparse.get 0 c.g i).toNat) lc
      (fun s => (Sparse.get 0 x.cfg (cfgKey g.ctx s.1 s.2)).toNat)).take 2784
    let d1 := (List.range 12).foldl (fun d i => mirrorSend
      { kind := 2, tenant := g.tenant, rank := g.rank, rframe := g.runFrame, addr := 1,
        data := leBytes 1 tile ++ leBytes 1 i ++ (bs.drop (240 * i)).take 240 } d) d
    { d1 with twin.snapshots := d1.twin.snapshots ++ [(rankKey g.tenant g.rank, tile, g.runFrame)] }
  else d

/-- A segment has finished: what observation, the mirror and the next segment make of it. -/
def finishSegment (tile : Nat) (g : Segment) (d : Dev) : Dev :=
  let d1 := emitActivity tile g (watchEvaluation tile g d)
  let d2 := sendSnapshot tile g d1
  nextSegment tile g.ctx (modCtx tile g.ctx (fun c => { c with seg := none, wait := .free }) d2)

/-- SEGMENT_FINISHED: a segment whose END has executed and whose words have all retired is finished; the running
context is looked at first. -/
def segmentFinished (tile : Nat) (d : Dev) : Dev :=
  let x := getTile tile d
  let ended (ctx : Nat) : Option Segment := match (ctxOf x ctx).seg with
    | some g => if g.ended && ctxDone tile ctx 127 d then some g else none
    | none => none
  match ended x.runCtx with
  | some g => finishSegment tile g d
  | none =>
    match ended (1 - x.runCtx) with
    | some g => finishSegment tile g d
    | none => d

/-- CAPTURE_COMPLETE: a segment that the capture held begins. -/
def captureStep (tile : Nat) (d : Dev) : Dev := nextSegment tile 0 (captureComplete tile d)

/-! ## Tenant switch (R347) -/

/-- Whether a switch may begin: no capture of the outgoing tenant reads the tile, no descriptor of it that names a
local counter or carries a word is open on the tile's reels, and no reel word of it waits in a queue. -/
def switchReady (tile : Nat) (d : Dev) : Bool :=
  let t := (getTile tile d).owner
  !localCapture tile t d &&
  ((ownerReels tile).all fun r =>
    let x := getReel r d
    x.tenant != t || (x.descs.all fun y => !(y.started && y.status.isNone && followsWord r y.bytes))) &&
  ((List.range 7).all fun e => (queueOf tile e d).all fun q => !(q.tenant == t && q.reel.isSome))

/-- Everything a switch clears: scratch, accumulator, index plane, poison flags, weight sets, x buffer, vector
registers and configuration state. -/
def clearTile (tile : Nat) (d : Dev) : Dev :=
  modTile tile (fun x => { x with
    poison := [], wActive := [], wShadow := [], wLoaded := false, wParity := false, xbuf := [], xLoaded := false
    vr := [], vrErr := [], cfg := [] })
    (physFill (idxAddr tile 0) 0x80000 (physFill (accAddr tile 0) 0x100000 (physFill (scratchAddr tile 0) scratchSize d)))

/-- An access of a switch that failed: its tenant's run halts. -/
def switchFault (m : Met) (tile t : Nat) (d : Dev) : Dev := raiseMet m (srcTile tile) t d

/-- The switch itself: save, clear, restore, and the owner set. A fault on the restore leaves the segment
unrun. -/
def doSwitch (tile : Nat) (g : Segment) (d : Dev) : Dev :=
  let old := (getTile tile d).owner
  let s := if old = 0xFFFF then (.ok, d) else vaWrite tile old 0 (contextVa old tile d) false (savedContext tile d) d
  if s.1 = .wait then s.2
  else
    let d1 := if s.1.done then s.2 else switchFault s.1 tile old s.2
    let r := vaFetch tile g.tenant 0 (contextVa g.tenant tile d1) 4096 d1
    if r.1 = .wait then r.2.2
    else
      let new := old == 0xFFFF
      let d2 := restoreContext tile (if r.1 = .ok then r.2.1 else []) (if new then r.2.2 else clearTile tile r.2.2)
      let d3 := modRun g.tenant (fun x => { x with switches := satAdd 64 x.switches (if new then 0 else 1) })
        (modTile tile (fun x => { x with owner := g.tenant, switchTo := none, switchAt := none }) d2)
      if r.1 = .ok then startSegment tile g (if new then d3 else traceStall tile 10 switchCycles d3)
      else nextSegment tile 0 (switchFault r.1 tile g.tenant d3)

/-- TENANT_SWITCH: a switch that waits begins once it may; after 3,344 cc it is complete. One from no owner takes no
time. -/
def tenantSwitch (tile : Nat) (d : Dev) : Dev :=
  let x := getTile tile d
  match x.switchTo, x.switchAt with
  | none, _ => d
  | some g, none =>
    if x.owner = 0xFFFF then doSwitch tile g d
    else if switchReady tile d then modTile tile (fun x => { x with switchAt := some (ccNow d) }) d else d
  | some g, some at_ => if at_ + switchCycles ≤ ccNow d then doSwitch tile g d else d

/-! ## What stops a segment -/

/-- The words of a tile that a test names are abandoned wherever they are (R181, R345), with their cue requests
and sequencer contexts; reel words complete with 0x07. -/
def abandonWords (tile : Nat) (gone : QWord → Bool) (d : Dev) : Dev :=
  let lost := (List.range 7).flatMap fun e => ((execOf tile e d).filter gone).map fun q => (e, q.number)
  let d1 := discardWords tile gone d
  let d2 := (List.range 7).foldl (fun d e =>
    ((execOf tile e d).filter gone).foldl (fun d q => match q.reel with
        | some (r, s) => setDescStatus r s 0x07 0 d
        | none => d)
      (setExec tile e ((execOf tile e d).filter fun q => !gone q) d)) d1
  let keep (r : CueReq) : Bool := !(r.tile == tile && lost.contains (r.eng, r.number))
  let p := d2.pow
  modTile tile (fun x => { x with seqs := x.seqs.filter fun s => match s.2 with
      | some r => ((Sparse.get [] x.exec 4).any fun q => q.number == r.number)
      | none => false })
    { d2 with
      pow.fromAccount := p.fromAccount.filter keep, pow.urgent := p.urgent.filter keep
      pow.planned := p.planned.filter keep, pow.bulk := p.bulk.filter keep, pow.deferred := p.deferred.filter keep }

/-- Everything of tenant `t` that executes or waits on a tile is abandoned, the chains of its DMA engine too. -/
def abandonTile (tile t : Nat) (d : Dev) : Dev :=
  let d1 := abandonWords tile (fun q => q.tenant == t) d
  { d1 with chains := d1.chains.filter fun x => !(x.tile == tile && x.tenant == t) }

/-- The segments of a tenant that wait on a tile are dropped. -/
def dropWaiting (tile t : Nat) (d : Dev) : Dev :=
  let keep (g : Segment) : Bool := g.tenant != t
  modTile tile (fun x => { x with
    nextSegs := x.nextSegs.filter keep, windowSegs := x.windowSegs.filter keep
    other := { x.other with nextSegs := x.other.nextSegs.filter keep }
    switchTo := x.switchTo.filter keep
    switchAt := if (x.switchTo.filter keep).isSome then x.switchAt else none }) d

/-- A tile cuts the segment that a window's end finds unfinished (R345): WINDOW_OVERRUN. -/
def cutSegment (tile t : Nat) (d : Dev) : Dev :=
  let d1 := abandonTile tile t (dropWaiting tile t (traceCut tile d))
  faultRun 2 evWindowOverrun (srcTile tile) t
    (dropWatch (.core tile) (modTile tile (fun x => { x with seg := x.seg.filter fun g => g.tenant != t, wait := .free }) d1))

/-- The windowed tenant whose segment a tile runs, or has yet to run in its window. -/
def windowTenant (tile : Nat) (d : Dev) : Option Nat :=
  let x := getTile tile d
  let l := (x.seg.map (·.tenant)).toList ++ (x.switchTo.map (·.tenant)).toList ++ x.windowSegs.map (·.tenant) ++ x.nextSegs.map (·.tenant)
  l.find? fun t => windowed t d

/-- WINDOW_END: an unfinished segment of a windowed tile is cut at its window's end, and in any case at the next
tick (`force`). -/
def windowEnd (tile : Nat) (force : Bool) (d : Dev) : Dev :=
  match windowTenant tile d with
  | none => d
  | some t =>
    if force ∨ windowAt (windowOf t d).2 d ≤ d.now then
      match (getTile tile d).seg with
      | some g => if g.tenant = t ∧ g.ended ∧ ctxDone tile 0 127 d then finishSegment tile g d else cutSegment tile t d
      | none => cutSegment tile t d
    else d

/-- What a halt does on a tile (R153): queued words are discarded, the core stops, and its segments count as
ended. -/
def haltTile (t tile : Nat) (d : Dev) : Dev :=
  let x := getTile tile d
  let mine (g : Segment) : Bool := g.tenant == t
  let d1 := dropWaiting tile t (discardQueued tile t d)
  let runs := (x.seg.filter mine).isSome
  let d2 := if runs then dropWatch (.core tile) (traceCut tile d1) else d1
  let d3 := if (x.other.seg.filter mine).isSome then dropWatch (otherWaiter tile) d2 else d2
  modTile tile (fun y => { y with
    stopped := y.stopped || runs
    seg := y.seg.map fun g => if mine g then { g with ended := true } else g
    wait := if runs then .free else y.wait
    other := { y.other with seg := y.other.seg.map (fun g => if mine g then { g with ended := true } else g)
                            wait := if (x.other.seg.filter mine).isSome then .free else y.other.wait } }) d3

/-- A tile loses everything of a run that is torn down. -/
def releaseTile (t tile : Nat) (d : Dev) : Dev :=
  let x := getTile tile d
  let mine (g : Segment) : Bool := g.tenant == t
  let d1 := abandonTile tile t (dropWaiting tile t (if (x.seg.filter mine).isSome then traceCut tile d else d))
  let d2 := if (x.seg.filter mine).isSome then dropWatch (.core tile) d1 else d1
  let d3 := if (x.other.seg.filter mine).isSome then dropWatch (otherWaiter tile) d2 else d2
  modTile tile (fun y =>
    let z := { y with
      seg := y.seg.filter (fun g => !mine g)
      wait := if (y.seg.filter mine).isSome then .free else y.wait
      other := if (y.other.seg.filter mine).isSome then {} else y.other }
    if y.owner = t then { z with lc := [], lcPoison := [], gen := [] } else z) d3

/-! ## The rows -/

def execCaptureComplete (tile : Nat) (s : State) : Host.Outcome State Fault Refusal := onTile tile (captureStep tile) s
def execSegmentFinished (tile : Nat) (s : State) : Host.Outcome State Fault Refusal := onTile tile (segmentFinished tile) s
def execContextSwitch (tile : Nat) (s : State) : Host.Outcome State Fault Refusal := onTile tile (contextSwitch tile) s
def execTenantSwitch (tile : Nat) (s : State) : Host.Outcome State Fault Refusal := onTile tile (tenantSwitch tile) s
def execWindowStart (tile : Nat) (s : State) : Host.Outcome State Fault Refusal := onTile tile (windowStart tile) s
def execWindowEnd (tile : Nat) (s : State) : Host.Outcome State Fault Refusal := onTile tile (windowEnd tile false) s

end Sys2Proof.Machine
end

