-- ==== Sys2Proof/Machine/Stretch.lean ====
section
/-!
DEFINITION. Run-wide frame stretch and halt requests (R47 to R50): how a request is sent, received, merged with
others at a run-frame boundary and applied.
-/
namespace Sys2Proof.Machine

/-- The payload of a stretch request (Table 2.8). -/
def stretchPayload (q : Stretch) (t rank : Nat) : Bytes :=
  leBytes 16 (q.target % 2 ^ 48 + q.source % 16 * 2 ^ 48 + q.logf % 8 * 2 ^ 52 + (if q.fin then 2 ^ 55 else 0) +
    t % 1024 * 2 ^ 56 + rank % 2 ^ 20 * 2 ^ 66)

/-- The request that a payload spells; none where R48 discards it. -/
def parseStretch (b : Nat) : Option Stretch :=
  let q : Stretch := { target := bitsOf b 0 48, source := bitsOf b 48 4, logf := bitsOf b 52 3, fin := bitOf b 55 }
  if 4 < q.source ∨ 5 < q.logf ∨ (q.source = 4 ∧ (q.logf ≠ 0 ∨ q.fin)) then none else some q

/-- Whether the tick that a TARGET names has been placed. -/
def targetPassed (target : Nat) (d : Dev) : Bool := d.clk.placed && decide (target ≤ d.clk.frame)

/-- A halt request reaches its run (R50): one that is not Running ignores it, and a late one halts the run at the
next tick. -/
def takeHaltRequest (t : Nat) (q : Stretch) (d : Dev) : Dev :=
  let r := getRun t d
  if r.running then
    if targetPassed q.target d then setRun t { r with haltAt := some (d.clk.frame + 1) } d
    else setRun t { r with requests := r.requests ++ [q] } d
  else d

/-- A request of sources 0 to 3 reaches its run, which keeps it for its boundary; a late one is STRETCH_LATE
(R49). Runs that have no run frames to come keep none; an Armed run, which no halt reaches (Table 1.3), drops a
late one. -/
def takeStretch (t : Nat) (q : Stretch) (d : Dev) : Dev :=
  let r := getRun t d
  if r.state = .armed ∨ r.state = .running then
    if targetPassed q.target d then (if r.running then faultRun 2 evStretchLate 0 t d else d)
    else setRun t { r with requests := r.requests ++ [q] } d
  else d

/-- The device sends a request: to the run's stretch group (0x5000 + t:0x31), and to itself. -/
def sendStretch (t : Nat) (q : Stretch) (d : Dev) : Dev :=
  let r := getRun t d
  let g := tenantGet t 0x31 d
  let d1 := if g = 0xFFFF then d else
    inject { typ := 5, cls := 0, mc := true, dst := g % 4096 * 64, tenant := t, srank := r.rank,
             payload := stretchPayload q t r.rank } d
  if q.source = 4 then takeHaltRequest t q d1 else takeStretch t q d1

/-- A request of source 0 to 3 is sent, with its factor and END. -/
def requestStretch (t source logf : Nat) (fin : Bool) (target : Nat) (d : Dev) : Dev :=
  sendStretch t { target := target, source := source, logf := logf, fin := fin } d

/-! ## At a run-frame boundary -/

/-- The LOGF that a held source has after the requests due: the largest of those with END = 0, nothing after
one with END = 1, else what it had (R47, R48). -/
def heldAfter (due : List Stretch) (held : Table Nat) (source : Nat) : Nat :=
  let mine := due.filter fun q => q.source == source
  match mine.filter fun q => !q.fin with
  | q :: qs => qs.foldl (fun n x => max n x.logf) q.logf
  | [] => if mine.isEmpty then Sparse.get 0 held source else 0

/-- STRETCH_APPLY: the requests due at tick `n`, a boundary of the run, are merged, and the factor follows
(R47, R48). A sum above 5 is STRETCH_LIMIT. -/
def applyStretches (t n : Nat) (d : Dev) : Dev :=
  let r := getRun t d
  let due := r.requests.filter fun q => decide (q.target ≤ n)
  let slip := (due.filter fun q => q.source == 0).foldl (fun m q => max m q.logf) 0
  let held := [1, 2, 3].foldl (fun m s => Sparse.set 0 m s (heldAfter due r.inForce s)) ([] : Table Nat)
  let sum := slip + held.foldl (fun m p => m + p.2) 0
  let d1 := setRun t { r with
    requests := r.requests.filter fun q => !decide (q.target ≤ n)
    slipLog := slip
    inForce := held
    factor := 2 ^ min 5 sum } d
  if 5 < sum then raiseT 4 evStretchLimit 0 t d1 else d1

/-- Whether a halt request is due at tick `n`, a boundary of the run. -/
def haltDue (t n : Nat) (d : Dev) : Bool :=
  (getRun t d).requests.any fun q => q.source == 4 && decide (q.target ≤ n)

/-! ## The rows -/

/-- The first waiting stretch packet, halt requests or the others. -/
def takeStretchPacket (halt : Bool) (d : Dev) : Option (Packet × Dev) :=
  takeLocal (fun p => p.typ == 5 && (bitsOf (blockOf p) 48 4 == 4) == halt) d

/-- A received payload: judged by R48, then handed to the run that it names. -/
def receiveStretch (halt : Bool) (d : Dev) : Dev :=
  match takeStretchPacket halt d with
  | none => d
  | some (p, d1) =>
    let t := bitsOf (blockOf p) 56 10
    match parseStretch (blockOf p) with
    | none => modRun t (fun r => { r with discarded := r.discarded + 1 }) d1
    | some q => if q.source = 4 then takeHaltRequest t q d1 else takeStretch t q d1

def execStretchRequest (s : State) : Host.Outcome State Fault Refusal := onDev true (receiveStretch false) s
def execHaltRequestReceipt (s : State) : Host.Outcome State Fault Refusal := onDev true (receiveStretch true) s

end Sys2Proof.Machine
end

