-- ==== Sys2Proof/Machine/Twin.lean ====
section
/-!
DEFINITION. The twin protocol (chapter 14): the records that arrive on the T port, the journal and its commits,
acknowledgements, seeding, repair, heartbeats, suspicions and the probe.
-/
namespace Sys2Proof.Machine

/-! ## The records that arrive -/

/-- The record that opens a copy (log entry 31): item 5 with index, subindex and value empty. -/
def isOpening (r : MirrorRec) : Bool := r.kind == 2 && r.addr == 5 && fieldAt r.data 0 3 == 0

/-- A record arrives from the T port: its MSEQ is its place in the stream; heartbeats have none. -/
def acceptRecord (r : MirrorRec) (d : Dev) : Dev :=
  if r.kind = 9 then { d with twin.inQ := d.twin.inQ ++ [r] }
  else
    let n := if isOpening r then 0 else d.twin.received
    { d with twin.inQ := d.twin.inQ ++ [{ r with mseq := n }]
             twin.received := n + 1
             twin.counts := bumpTable d.twin.counts 1 1 }

/-- The first record of a list that satisfies a test, and the list without it. -/
def takeRec (f : MirrorRec → Bool) : List MirrorRec → Option (MirrorRec × List MirrorRec)
  | [] => none
  | r :: rs => if f r then some (r, rs) else (takeRec f rs).map fun x => (x.1, r :: x.2)

/-- Whether a record is taken on its own: acknowledgements, repair replies and heartbeats touch nothing that the
others order. -/
def unordered (k : Nat) : Bool := k == 4 || k == 6 || k == 9

/-- The record of a kind that is next: the stream's records are taken in MSEQ order. Reserved kinds are passed
over. -/
def nextRecord (k : Nat) (d : Dev) : Option (MirrorRec × Dev) :=
  let q := d.twin.inQ.filter fun r => decide (r.kind ≤ 10)
  match takeRec (fun r => if unordered k then r.kind == k else !unordered r.kind) q with
  | some (r, rest) => if r.kind = k then some (r, { d with twin.inQ := rest }) else none
  | none => none

/-- An acknowledgement of everything up to a record (kind 4). -/
def sendAck (r : MirrorRec) (d : Dev) : Dev := sendRecord { kind := 4, addr := r.mseq % 2 ^ 48 } d

/-- A record is journalled and acknowledged (R319). A survivor has stopped its journal (R328). -/
def journalRecord (r : MirrorRec) (d : Dev) : Dev :=
  sendAck r (if d.twin.state = 5 then d else { d with twin.journal := d.twin.journal ++ [r] })

/-! ## The committed copy -/

/-- Whether a run frame number is at most another, both modulo 65,536. -/
def frameAtMost (a b : Nat) : Bool := decide ((b + 65536 - a % 65536) % 65536 < 32768)

/-- A control record taken into a list: adds sum up, snapshots, reels and values replace those of the same
place, an ended instance loses its arrivals. -/
def controlPut (r : MirrorRec) (l : List MirrorRec) : List MirrorRec :=
  let mine (x : MirrorRec) : Bool := x.kind == r.kind && x.tenant == r.tenant && x.rank == r.rank && x.addr == r.addr
  let key (n : Nat) (x : MirrorRec) : Bool := mine x && fieldAt x.data 0 n == fieldAt r.data 0 n
  if r.kind = 1 then
    match l.find? mine with
    | some x => l.filter (fun y => !mine y) ++ [{ r with data := leBytes 8 (fieldAt x.data 0 8 + fieldAt r.data 0 8) }]
    | none => l ++ [r]
  else if r.addr = 2 then
    if fieldAt r.data 4 2 = instanceEnd then l.filter fun x => !key 4 x else l ++ [r]
  else l.filter (fun x => !key (if r.addr = 5 then 3 else 2) x) ++ [r]

/-- The address in this device's own memory that a record of a rank reaches: on a spare, the records of the rank
it is armed for go to their VAs (R334). -/
def ownPlace (r : MirrorRec) (d : Dev) : Option Nat :=
  if dictGet 0x6000 6 d = 1 ∧ (getRun r.tenant d).live ∧ (getRun r.tenant d).rank = r.rank then
    ((regions r.tenant d).find? fun g => g.index == r.region).map fun g => g.base + r.addr
  else none

/-- The bytes of a write or seed reach the copy: the mirror store, or a spare's own memory. -/
def copyBytes (r : MirrorRec) (d : Dev) : Dev :=
  match ownPlace r d with
  | some va =>
    let w := vaWrite niTlb r.tenant 0 va true r.data d
    if w.1.done then w.2 else raiseMet w.1 (srcPort 8) r.tenant w.2
  | none =>
    match storeAddr r.tenant r.region r.addr d with
    | some pa => (physWrite pa r.data d).2
    | none => d

/-- A journal record is applied. -/
def applyRecord (r : MirrorRec) (d : Dev) : Dev :=
  if r.kind = 0 then copyBytes r d else { d with twin.control := controlPut r d.twin.control }

/-- The partner's value of a setting is noted; one of a region allocates its space in the store (R178). -/
def notePartner (r : MirrorRec) (d : Dev) : Dev :=
  let idx := fieldAt r.data 0 2
  let sub := fieldAt r.data 2 1
  let d1 := { d with twin.partner := Sparse.set 0 d.twin.partner (entryKey idx sub) (leNat (r.data.drop 3)) }
  if 0x5000 ≤ idx ∧ 0x20 ≤ sub ∧ sub < 0x30 then
    let t := idx - 0x5000
    let i := sub - 0x20
    let d2 := freeRegion t i { d1 with twin.seeds := d1.twin.seeds.filter fun x => !(x.target == 2 && x.tenant == t && x.region == i) }
    match regionOf i (leNat (r.data.drop 3)) with
    | none => d2
    | some g =>
      let d3 := allocUnits t i g.units d2
      { d3 with twin.seeds := d3.twin.seeds ++ [{ tenant := t, region := i, target := 2, next := 0, size := g.units * unitSize }] }
  else d1

/-- How many units of the store are free, for the partner's checks (R179). -/
def tellFree (d : Dev) : Dev := mirrorItem 0 0 5 true (valueItem 0x2800 2 8 (freeUnits d)) d

/-- The copy of the partner starts anew. -/
def openCopy (d : Dev) : Dev :=
  { d with
    twin.journal := [], twin.control := [], twin.partner := [], twin.committed := []
    twin.seeds := d.twin.seeds.filter fun x => x.target != 2
    twin.extents := d.twin.extents.filter fun e => e.tenant == 1024 }

/-- MIRROR_WRITE, MIRROR_COUNTER_ADD, MIRROR_STATE. -/
def mirrorReceive (k : Nat) (d : Dev) : Dev :=
  match nextRecord k d with
  | none => d
  | some (r, d1) =>
    if isOpening r then sendAck r (openCopy d1)
    else if r.kind = 2 ∧ r.addr = 5 then
      let free := freeUnits d1
      let d2 := notePartner r (journalRecord r d1)
      if freeUnits d2 = free then d2 else tellFree d2
    else journalRecord r d1

/-- A tracked region of the partner is protected by the commit after its last seed. -/
def protectTracked (t : Nat) (d : Dev) : Dev :=
  { d with twin.seeds := d.twin.seeds.map fun x =>
      if x.target = 2 ∧ x.tenant = t ∧ x.acked then { x with protected_ := true } else x }

/-- MIRROR_COMMIT (R319): the journal records of the rank up to the run frame are applied in MSEQ order, their
space is freed, and the commit is acknowledged. -/
def mirrorCommit (d : Dev) : Dev :=
  match nextRecord 3 d with
  | none => d
  | some (c, d1) =>
    let due (r : MirrorRec) : Bool := r.tenant == c.tenant && r.rank == c.rank && frameAtMost r.rframe c.rframe
    let d2 := (d1.twin.journal.filter due).foldl (fun d r => applyRecord r d)
      { d1 with twin.journal := d1.twin.journal.filter fun r => !due r }
    let key := rankKey c.tenant c.rank
    sendAck c (protectTracked c.tenant { d2 with
      twin.committed := Sparse.set 0 d2.twin.committed key (c.rframe + 1)
      twin.counts := bumpTable d2.twin.counts 2 1 })

/-- MIRROR_SEED: the bytes reach the copy, and the seed is acknowledged. -/
def mirrorSeed (d : Dev) : Dev :=
  match nextRecord 7 d with
  | none => d
  | some (r, d1) =>
    sendAck r { (copyBytes r d1) with twin.seeds := d1.twin.seeds.map fun x =>
      if x.target = 2 ∧ x.tenant = r.tenant ∧ x.region = r.region then
        { x with next := max x.next (r.addr + r.data.length), acked := x.acked || decide (x.size ≤ r.addr + r.data.length) }
      else x }

/-- MIRROR_DIRECT: a space-5 write of the twin reaches this device's tenant VA (Table 7.5). -/
def mirrorDirect (d : Dev) : Dev :=
  match nextRecord 8 d with
  | none => d
  | some (r, d1) =>
    let w := vaWrite niTlb r.tenant 0 r.addr true r.data d1
    if w.1 = .wait then { w.2 with twin.inQ := r :: w.2.twin.inQ }
    else if w.1.done then sendAck r w.2
    else sendAck r (raiseMet w.1 (srcPort 8) r.tenant w.2)

/-! ## Acknowledgement -/

/-- The greatest MSEQ sent that the 48 bits of an acknowledgement stand for. -/
def ackedMseq (a : Nat) (d : Dev) : Nat := d.twin.nextMseq - 1 - (d.twin.nextMseq - 1 + 2 ^ 48 - a % 2 ^ 48) % 2 ^ 48

/-- Whether a commit that has gone out frees a record. -/
def freedBy (c : Nat × Nat × Nat × Nat) (r : MirrorRec) : Bool :=
  r.tenant == c.1 && r.rank == c.2.1 && frameAtMost r.rframe c.2.2.1 && decide (r.mseq < c.2.2.2)

/-- A seeding once everything up to `m` is acknowledged. -/
def seedAcked (m : Nat) (x : Seeding) : Seeding :=
  if x.target = 2 then x
  else
    { x with
      acked := x.acked || (x.lastMseq.any fun l => decide (l ≤ m))
      protected_ := x.protected_ || (x.commitMseq.any fun c => decide (c ≤ m)) }

/-- MIRROR_PROTECTED for each region that has become protected (R322). -/
def sayProtected (old : List Seeding) (d : Dev) : Dev :=
  (d.twin.seeds.filter fun x => x.protected_ && x.target != 2 && x.target != 4 &&
      old.any fun y => y.tenant == x.tenant && y.region == x.region && y.target == x.target && !y.protected_).foldl
    (fun d x => raiseT 4 evMirrorProtected (srcPort 8) x.tenant d) d

/-- MIRROR_ACK: everything up to an MSEQ is acknowledged. -/
def mirrorAck (d : Dev) : Dev :=
  match nextRecord 4 d with
  | none => d
  | some (r, d1) =>
    let m := ackedMseq r.addr d1
    let done := d1.twin.commitsOut.filter fun c => decide (c.2.2.2 ≤ m)
    let seeds := d1.twin.seeds.map (seedAcked m)
    let again := seeds.filter fun x => x.target == 4 && x.protected_
    let d2 := { d1 with
      twin.unacked := d1.twin.unacked.filter fun x => decide (m < x.mseq)
      twin.held := d1.twin.held.filter fun x => !(done.any fun c => freedBy c x)
      twin.commitsOut := d1.twin.commitsOut.filter fun c => decide (m < c.2.2.2)
      twin.notCurrent := d1.twin.notCurrent.filter fun k => !(again.any fun x => unitKey x.tenant x.region ((x.size - 1) / unitSize) == k)
      twin.seeds := seeds.filter fun x => !(x.target == 4 && x.protected_) }
    releaseAnswers (flushQueued d2.twin.queued.length (sayProtected d1.twin.seeds d2))

/-! ## Seeding (R322) -/

/-- A seeding starts. -/
def startSeed (t region target size : Nat) (d : Dev) : Dev :=
  { d with twin.seeds := d.twin.seeds.filter (fun x => !(x.tenant == t && x.region == region && x.target == target)) ++
      [{ tenant := t, region := region, target := target, next := 0, size := size }] }

/-- Every region in force of a tenant is seeded to the twin's store. -/
def startSeeds (t : Nat) (d : Dev) : Dev := (regions t d).foldl (fun d g => startSeed t g.index 0 (g.units * unitSize) d) d

/-- Where a seeding reads byte `off` from: the rank context and VA. -/
def seedSource (x : Seeding) (d : Dev) : Option (Nat × Nat) :=
  if x.target = 1 then ((partnerRegions x.tenant d).find? fun g => g.index == x.region).map fun g => (1, g.base + x.next)
  else ((regions x.tenant d).find? fun g => g.index == x.region).map fun g => (0, g.base + x.next)

/-- SEED_SEND: 256 bytes of the first seeding that is not complete are read and enqueued in one step. Seeds keep
to the seed share of the T port's 256 GB/s: 1 ns for each 256 bytes at the full share. -/
def seedSend (d : Dev) : Dev :=
  match d.twin.seeds.find? fun x => x.target != 2 && decide (x.next < x.size) with
  | none => d
  | some x =>
    if mirroring d && tPortUp d && decide (d.twin.seedCredit ≤ d.now) then
      match seedSource x d with
      | none => { d with twin.seeds := d.twin.seeds.filter (· != x) }
      | some (ctx, va) =>
        let r := vaFetch niTlb x.tenant ctx va 256 d
        if r.1 = .wait then r.2.2
        else if r.1.done = false then { (raiseMet r.1 (srcPort 8) x.tenant r.2.2) with
          twin.seeds := r.2.2.twin.seeds.filter (· != x) }
        else
          let d1 := r.2.2
          let m := mseqAfter d1
          let y := { x with next := x.next + 256, lastMseq := if x.size ≤ x.next + 256 then some m else none }
          mirrorSend { kind := 7, tenant := x.tenant, rank := ctxRank x.tenant ctx d1, region := x.region, addr := x.next,
                       data := r.2.1 }
            { d1 with
              twin.seeds := d1.twin.seeds.map fun z => if z = x then y else z
              twin.seedCredit := d1.now + 2000 / max 1 (dictGet 0x6000 4 d1)
              twin.counts := bumpTable d1.twin.counts 4 1 }
    else d

/-! ## Commit (R319) -/

/-- Whether every tile that runs a segment for run frame `r` has sent its snapshot. -/
def snapshotsSent (t rank r : Nat) (d : Dev) : Bool :=
  let ctx := rankCtx t rank d
  let e := frameEntryOf t ctx r d
  !e.1.done || entrySegment e.2.1 == 0xFFFF ||
    (bitsSet 128 (conOf t ctx d).tileMask).all fun x => d.twin.snapshots.contains (rankKey t rank, x, r)

/-- Whether the network interface has ended the programs of run frame `r` of a rank. -/
def programsEnded (t rank r : Nat) (d : Dev) : Bool :=
  !(d.coll.chains.any fun x => x.tenant == t && x.rank == rank && decide (x.r ≤ r)) &&
  !(d.coll.insts.any fun x => x.tenant == t && x.rank == rank && x.begun && decide (x.runFrame ≤ r))

/-- COMMIT_RECORD_SEND: the first commit that is due and whose frame has ended is sent; it waits while a unit of
the tenant is seeded again (R323). -/
def commitRecordSend (d : Dev) : Dev :=
  match d.twin.commitsDue.find? fun c => snapshotsSent c.1 c.2.1 c.2.2 d && programsEnded c.1 c.2.1 c.2.2 d &&
      !(d.twin.seeds.any fun x => x.target == 4 && x.tenant == c.1 && decide (x.next < x.size)) with
  | none => d
  | some (t, rank, r) =>
    if mirroring d then
      let m := mseqAfter d
      let own := rankCtx t rank d == 0
      mirrorSend { kind := 3, tenant := t, rank := rank, rframe := r }
        { d with
          twin.commitsDue := d.twin.commitsDue.filter (· != (t, rank, r))
          twin.commitsOut := d.twin.commitsOut ++ [(t, rank, r, m)]
          twin.snapshots := d.twin.snapshots.filter fun s => !(s.1 == rankKey t rank && decide (s.2.2 ≤ r))
          twin.seeds := d.twin.seeds.map fun x =>
            if x.tenant = t ∧ x.acked ∧ x.commitMseq = none ∧ x.target ≠ 2 ∧ (x.target = 1) = (own = false) then
              { x with commitMseq := some m } else x }
    else d

/-! ## Repair (R323) -/

/-- A line of the store overlaid by the journal's writes to it, in MSEQ order. -/
def overlayLine (t g addr : Nat) (line : Bytes) (journal : List MirrorRec) : Bytes :=
  (journal.filter fun r => r.kind == 0 && r.tenant == t && r.region == g).foldl (fun bs r =>
    (List.range 64).map fun i =>
      if r.addr ≤ addr + i ∧ addr + i < r.addr + r.data.length then r.data.getD (addr + i - r.addr) 0 else bs.getD i 0) line

/-- REPAIR_REQUEST: the line is answered, or, where the store's own copy is uncorrectable, an empty reply and a
request to seed the unit again; a request of one payload byte asks this device to seed a unit again. -/
def repairRequest (d : Dev) : Dev :=
  match nextRecord 5 d with
  | none => d
  | some (r, d1) =>
    if r.data.length = 1 then
      let u := r.addr / unitSize
      { d1 with
        twin.notCurrent := if d1.twin.notCurrent.contains (unitKey r.tenant r.region u) then d1.twin.notCurrent
          else d1.twin.notCurrent ++ [unitKey r.tenant r.region u]
        twin.seeds := d1.twin.seeds ++ [{ tenant := r.tenant, region := r.region, target := 4, next := u * unitSize,
                                          size := (u + 1) * unitSize }] }
    else
      let reply (bs : Bytes) (d : Dev) : Dev :=
        mirrorSend { kind := 6, tenant := r.tenant, rank := r.rank, region := r.region, addr := r.addr, data := bs } d
      match storeAddr r.tenant r.region r.addr d1 with
      | none => reply [] d1
      | some pa =>
        let v := physRead pa 64 d1
        if v.2.1 then
          reply [] (storeRefresh pa (raise 4 evMirrorStoreUe (srcChannel (pseudoChannel pa)) (countUncorrectable pa v.2.2) (pa / 64)))
        else
          reply (overlayLine r.tenant r.region r.addr v.1 v.2.2.twin.journal)
            { v.2.2 with twin.counts := bumpTable v.2.2.twin.counts 3 1 }

/-- REPAIR_REPLY: the words of the line that are still uncorrectable are rewritten, and MIRROR_REPAIR is raised
(R174); an empty reply ends the repair. -/
def repairReply (d : Dev) : Dev :=
  match nextRecord 6 d with
  | none => d
  | some (r, d1) =>
    match (regions r.tenant d1).find? fun g => g.index == r.region with
    | none => d1
    | some g =>
      match place niTlb r.tenant 0 (g.base + r.addr) true d1 with
      | (.dev pa, d2) =>
        let d3 := { d2 with mem.repairs := d2.mem.repairs.filter fun p => p.1 != pa / 64 }
        if r.data.length < 64 then d3
        else
          let bad := (errsIn d3.mem.err pa 64).filter fun p => p.2 == 2
          let d4 := bad.foldl (fun d p => (physWrite (p.1 * 8) ((r.data.drop (p.1 * 8 - pa)).take 8) d).2) d3
          if bad.isEmpty then d4
          else
            let c := pseudoChannel pa
            raise 0 evMirrorRepair (srcChannel c) { d4 with mem.hbmCounts := bumpTable d4.mem.hbmCounts (c * 4 + 2) 1 } (pa / 64)
      | (_, d2) => d2

/-! ## Heartbeats, suspicion and the probe (R324 to R326) -/

/-- HEARTBEAT_SEND: at t = 1 us of every building frame, once. -/
def heartbeatSend (d : Dev) : Dev :=
  if d.twin.state ≠ 0 ∧ d.clk.placed ∧ d.clk.lastTick + tUs ≤ d.now ∧ d.twin.sentBeat ≠ some d.clk.frame ∧ tPortUp d then
    sendHeartbeat d.fatal { d with twin.sentBeat := some d.clk.frame }
  else d

/-- A stretch request for every Running run that has mirrored regions (R325). -/
def failoverStretch (logf : Nat) (fin : Bool) (d : Dev) : Dev :=
  ((runTenants d).filter fun t => (getRun t d).running && mirrored t d).foldl
    (fun d t => requestStretch t 2 logf fin (d.clk.frame + (getRun t d).con.notice) d) d

/-- A suspicion opens: TWIN_SUSPECT and the hold stretch. -/
def openSuspicion (d : Dev) : Dev :=
  if d.twin.suspect ∨ !(d.twin.state == 2 || d.twin.state == 6) then d
  else
    failoverStretch 5 false (raise 4 evTwinSuspect (srcPort 8)
      { d with twin.suspect := true, twin.state := if d.twin.state = 2 then 3 else d.twin.state
               twin.counts := bumpTable d.twin.counts 6 1 })

/-- A suspicion clears: heartbeats resume with the port up. -/
def clearSuspicion (d : Dev) : Dev :=
  if d.twin.suspect then
    failoverStretch 0 true
      { d with twin.suspect := false, twin.state := if d.twin.state = 3 then 2 else d.twin.state
               twin.probeAt := none, twin.probeFailed := false }
  else d

/-- HEARTBEAT_MISSED: at t = P - 1 us, the T port was in state 2 throughout the frame and no heartbeat of it has
arrived. -/
def heartbeatMissed (d : Dev) : Dev :=
  if (d.twin.state = 2 ∨ d.twin.state = 3 ∨ d.twin.state = 6) ∧ d.clk.placed ∧ d.twin.missedAt ≠ some d.clk.frame ∧
      d.clk.lastTick + framePeriod d ≤ d.now + tUs ∧ (d.twin.upAt.any fun u => decide (u ≤ d.clk.lastTick)) ∧
      d.twin.gotBeat ≠ some d.clk.frame then
    openSuspicion { d with twin.missedAt := some d.clk.frame, twin.missed := d.twin.missed + 1
                           twin.counts := bumpTable d.twin.counts 5 1 }
  else d

/-! ### What a stream opens with -/

/-- The values and states of one tenant that the twin is told when the stream opens: its entries, its run, and
the counters, open instances and reels of its rank. -/
def tellTenant (t : Nat) (d : Dev) : Dev :=
  let vals := d.mgmt.dict.filter fun p => decide (p.1 / 256 = 0x5000 + t)
  let d1 := vals.foldl (fun d p => match p.2, entryOf (p.1 / 256) (p.1 % 256) with
    | some v, some e => mirrorValue t (p.1 / 256) (p.1 % 256) e.len v d
    | _, _ => d) d
  let d2 := mirrorIndex t (mirrorRun t d1)
  if mirrored t d2 then
    let d3 := (d2.ctr.pool.filter fun p => poolOwner p.1 d2 == some t).foldl (fun d p => mirrorAdd t p.1 p.2.toNat true d) d2
    let d4 := (d3.coll.insts.filter fun x => x.tenant == t).foldl (fun d x =>
      x.heard.foldl (fun d h => mirrorArrival t x.rank x.cctx x.cseg x.pos h 0 d)
        (x.arrived.foldl (fun d a => mirrorArrival t x.rank x.cctx x.cseg x.pos a.1 a.2 d) d)) d3
    ((d4.reels.filter fun p => p.2.tenant == t && p.2.state != 0).map (·.1)).foldl (fun d r => mirrorReel r d) d4
  else d2

/-- The mirror stream opens: MSEQ counts from 0, the copy starts anew, and every region is seeded. -/
def openStream (state : Nat) (d : Dev) : Dev :=
  let d1 := { d with
    twin.state := state, twin.nextMseq := 0, twin.unacked := [], twin.held := [], twin.queued := [], twin.commitsDue := []
    twin.commitsOut := [], twin.snapshots := [], twin.notCurrent := [], twin.missed := 0, twin.probeAt := none
    twin.probeFailed := false
    twin.seeds := d.twin.seeds.filter fun x => x.target == 2 }
  let d2 := tellFree (mirrorSend { kind := 2, keep := true, addr := 5, data := valueItem 0 0 0 0 } d1)
  (runTenants d2).foldl (fun d t => startSeeds t (tellTenant t d)) d2

/-- The stream ends: what waited for the twin goes on without it (R321). -/
def closeStream (state : Nat) (d : Dev) : Dev :=
  releaseAnswers { d with
    twin.state := state, twin.suspect := false, twin.unacked := [], twin.held := [], twin.queued := [], twin.commitsDue := []
    twin.commitsOut := [], twin.snapshots := [], twin.notCurrent := [], twin.missed := 0, twin.probeAt := none
    twin.probeFailed := false, mem.repairs := []
    twin.seeds := d.twin.seeds.filter fun x => x.target == 2 }

/-- The survivor seeds the lost ranks' regions to the spare's memory (R334). -/
def seedLost (d : Dev) : Dev :=
  d.twin.taken.foldl (fun d x =>
    (partnerRegions x.tenant d).foldl (fun d g => startSeed x.tenant g.index 1 (g.units * unitSize) d) d) d

/-- A heartbeat has arrived with the port up: the pair becomes PROTECTED once heartbeats have gone each way, a
suspicion clears, a survivor turns to its spare. A spare stays PAIRING until its release. -/
def heartbeatTaken (d : Dev) : Dev :=
  match d.twin.state with
  | 1 => if d.twin.sentBeat.isSome ∧ dictGet 0x6000 6 d = 0 then openStream 2 d else d
  | 4 => openStream 2 d
  | 5 => if d.twin.sentBeat.isSome then seedLost (openStream 6 d) else d
  | _ => clearSuspicion d

/-- HEARTBEAT: a kind-9 record. One with FATAL = 1 lets the loss be declared at the next tick. -/
def heartbeat (d : Dev) : Dev :=
  match nextRecord 9 d with
  | none => d
  | some (r, d1) =>
    let v := fieldAt r.data 0 8
    let d2 := { d1 with twin.gotBeat := some r.addr, twin.lastBeat := v / 2 ^ 8, twin.missed := 0
                        twin.partnerFatal := d1.twin.partnerFatal || bitOf v 4 }
    if bitOf v 4 || !tPortUp d2 then d2 else heartbeatTaken d2

/-- The T port has come up. -/
def twinPortUp (d : Dev) : Dev := { d with twin.upAt := some d.now }

/-- The T port has begun to retrain. -/
def twinPortRetrain (d : Dev) : Dev := openSuspicion { d with twin.upAt := none }

/-- The T port has gone down: the suspicion and the probe of the partner (R325, R326). -/
def twinPortDown (d : Dev) : Dev :=
  let d1 := openSuspicion { d with twin.upAt := none }
  if (d1.twin.state = 3 ∨ d1.twin.state = 6) ∧ d1.twin.probeAt = none then
    sendProbe { d1 with twin.probeAt := some d1.now, twin.probeFailed := false }
  else d1

/-- PROBE_REPLY: a reply equal to the count of the last heartbeat received fails the probe; any other makes the
pair UNPROTECTED. -/
def probeReply (count : Nat) (d : Dev) : Dev :=
  if d.twin.probeAt = none ∨ d.twin.probeFailed then d
  else if (count % 2 ^ 56 : Nat) = d.twin.lastBeat then { d with twin.probeFailed := true }
  else failoverStretch 0 true (closeStream 4 (raise 4 evTwinUnprotected (srcPort 8) d))

/-- PROBE_TIMEOUT: no reply within the probe timeout (0x6000:0x05). -/
def probeTimeout (d : Dev) : Dev :=
  match d.twin.probeAt with
  | some a => if a + dictGet 0x6000 5 d * tUs ≤ d.now then { d with twin.probeFailed := true } else d
  | none => d

/-! ## The rows -/

def execMirrorWrite (s : State) : Host.Outcome State Fault Refusal := onDev true (mirrorReceive 0) s
def execMirrorCounterAdd (s : State) : Host.Outcome State Fault Refusal := onDev true (mirrorReceive 1) s
def execMirrorState (s : State) : Host.Outcome State Fault Refusal := onDev true (mirrorReceive 2) s
def execMirrorCommit (s : State) : Host.Outcome State Fault Refusal := onDev true mirrorCommit s
def execMirrorAck (s : State) : Host.Outcome State Fault Refusal := onDev true mirrorAck s
def execRepairRequest (s : State) : Host.Outcome State Fault Refusal := onDev true repairRequest s
def execRepairReply (s : State) : Host.Outcome State Fault Refusal := onDev true repairReply s
def execMirrorSeed (s : State) : Host.Outcome State Fault Refusal := onDev true mirrorSeed s
def execMirrorDirect (s : State) : Host.Outcome State Fault Refusal := onDev true mirrorDirect s
def execHeartbeat (s : State) : Host.Outcome State Fault Refusal := onDev true heartbeat s
def execHeartbeatSend (s : State) : Host.Outcome State Fault Refusal := onDev true heartbeatSend s
def execHeartbeatMissed (s : State) : Host.Outcome State Fault Refusal := onDev true heartbeatMissed s
def execSeedSend (s : State) : Host.Outcome State Fault Refusal := onDev true seedSend s
def execCommitRecordSend (s : State) : Host.Outcome State Fault Refusal := onDev true commitRecordSend s
def execProbeReply (count : Nat) (s : State) : Host.Outcome State Fault Refusal := onDev true (probeReply count) s
def execProbeTimeout (s : State) : Host.Outcome State Fault Refusal := onDev true probeTimeout s

end Sys2Proof.Machine
end

