-- ==== Sys2Proof/Machine/Links.lean ====
section
/-!
DEFINITION. Canvas links (chapter 12): link flits, credits, replay, training and retraining.
-/
namespace Sys2Proof.Machine

/-! ## Ports (Table 12.1) -/

/-- The lanes of a port. -/
def laneCount (p : Nat) : Nat := if p < 4 then 16 else if p < 8 then 8 else 32

/-- F of R276 [ns]: the delay of FEC. -/
def fecDelay (p : Nat) : Nat := if isOptical p then 80 else 0

/-- Table 10.6: flits reserved for a channel and flits shared. The table gives T no buffers. -/
def reservedFlits (p vc : Nat) : Nat := if p = 8 then Config.tBuffer (if vc < 2 then 0 else 1) else if vc < 2 then 4 else 16
def sharedFlits (p : Nat) : Nat := if p = 8 then Config.tBuffer 2 else if isOptical p then 12184 else 408

/-- Table 12.4: link flits a replay buffer holds. -/
def replayCapacity (p : Nat) : Nat := if isOptical p then 12288 else 512

/-- Lane `l` of port `p`, and it changed by `f`. -/
def getLane (p l : Nat) (d : Dev) : Lane := Sparse.get {} (getPort p d).lanes l
def modLane (p l : Nat) (f : Lane → Lane) (d : Dev) : Dev :=
  modPort p (fun x => { x with lanes := Sparse.modify {} x.lanes l f }) d
/-- Every lane of a port from lane `lo` on changed by `f`. -/
def modLanes (p lo : Nat) (f : Lane → Lane) (d : Dev) : Dev :=
  ((List.range (laneCount p)).filter (lo ≤ ·)).foldl (fun d l => modLane p l f d) d

/-- Adds to a count of 0x4000 + p:0x11: 0 flits sent, 1 CRC failures, 2 NAKs, 3 retakes, 4 timer replays,
5 retrains, 6 downs, 7 demand wakes, 8 down discards, 9 width changes. -/
def bumpPort (p i : Nat) (d : Dev) : Dev := modPort p (fun x => { x with counts := bumpTable x.counts i 1 }) d

/-- The lane states of Table 12.6. -/
def laneOff : Nat := 0
def laneTrain : Nat := 1
def laneActive : Nat := 2
def laneRampDn : Nat := 3
def laneSleep : Nat := 4
def laneRampUp : Nat := 5
def laneRelock : Nat := 6
def laneFault : Nat := 7

/-! ## PCS units since training (R281) -/

/-- The time of a PCS frame or codeword in units of 50 ps, at full width or narrow (R271, R272). -/
def pcsUnit (p : Nat) (wide : Bool) : Nat :=
  if isOptical p then (if wide then 64 else 256) else if !wide then 1600 else if p = 8 then 100 else 200

/-- The count of PCS units of the sending (`tx`) or receiving direction now, since training. -/
def pcsCount (p : Nat) (tx : Bool) (d : Dev) : Nat :=
  let x := getPort p d
  if tx then x.unitCount + (d.now - x.unitAt) / pcsUnit p x.wide else x.rxUnitCount + (d.now - x.rxUnitAt) / pcsUnit p x.rxWide

/-! ## The link flit (R273) -/

/-- The 96-bit link header of Table 12.2. Every flit reports two channels' freed flits, in turn (R274). -/
def linkHeader (kind vc : Nat) (sop eop nak : Bool) (fseq ack slot : Nat) (freed : Table Nat) : Nat :=
  let c1 := 2 * slot % 8
  let c2 := (2 * slot + 1) % 8
  kind + vc * 2 ^ 2 + (if sop then 2 ^ 5 else 0) + (if eop then 2 ^ 6 else 0) + (if nak then 2 ^ 7 else 0) +
  fseq % 65536 * 2 ^ 8 + ack % 65536 * 2 ^ 24 + c1 * 2 ^ 40 + Sparse.get 0 freed c1 % 256 * 2 ^ 43 +
  c2 * 2 ^ 51 + Sparse.get 0 freed c2 % 256 * 2 ^ 54

/-- A link flit of a header and a 64-byte body, closed by its CRC-32C. -/
def linkFlit (header : Nat) (body : Bytes) : Bytes :=
  let bs := leBytes 12 header ++ padTo 64 body
  bs ++ leBytes 4 (crc32c bs)

/-- A flit whose CRC an injected error has spoiled. -/
def spoil (flit : Bytes) : Bytes := flit.take 76 ++ (flit.drop 76).map (~~~ ·)

/-- A flit goes out: null, or of a data flit. It carries the acknowledgement, a NAK that is due and the freed
counts. -/
def emitFlit (p : Nat) (data : Option HeldFlit) (d : Dev) : Dev :=
  let x := getPort p d
  let ack := (x.expect + 65535) % 65536
  let slot := Sparse.get 0 x.counts 0
  let h := match data with
    | some f => linkHeader 0 f.vc f.sop f.eop x.nakDue f.fseq ack slot x.freed
    | none => linkHeader 1 0 false false x.nakDue 0 ack slot x.freed
  let d1 := bumpPort p 0 (if x.nakDue then bumpPort p 2 (modPort p (fun y => { y with nakDue := false }) d) else d)
  let a := takeArmed 2 p d1
  let bs := linkFlit h ((data.map (·.body)).getD [])
  emit (.flit p (if a.1 then spoil bs else bs)) a.2

/-! ## What is sent next (R237, R238) -/

/-- The flits of a channel's buffer at the far end that are taken. -/
def takenFlits (p vc : Nat) (d : Dev) : Nat := Sparse.get 0 d.net.credits (8 * p + vc)

/-- How many more flits of a channel the far end has room for: its reserved buffer, then the shared pool. -/
def creditsLeft (p vc : Nat) (d : Dev) : Nat :=
  let sharedUsed := (List.range 8).foldl (fun n v => n + (takenFlits p v d - reservedFlits p v)) 0
  (reservedFlits p vc - takenFlits p vc d) + (sharedFlits p - sharedUsed)

/-- The bodies waiting first on a channel with the time they were queued: the rest of a started packet, or the
packet at the head of the output queue. -/
def waitingFlits (p vc : Nat) (d : Dev) : Nat × List Bytes × Bool :=
  let l := Sparse.get (0, []) (getPort p d).txLeft vc
  if !l.2.isEmpty then (l.1, l.2, false)
  else
    match Sparse.get [] d.net.outQ (8 * p + vc) with
    | [] => (0, [], true)
    | e :: _ => (e.1, flitBodies e.2, true)

/-- Whether a channel can send: one flit of a started packet, or a packet for all of whose flits there are credits
and places in the replay buffer, so that a packet once started never waits for a credit of its own. -/
def channelReady (p vc : Nat) (d : Dev) : Bool :=
  let w := waitingFlits p vc d
  let n := if w.2.2 then w.2.1.length else 1
  !w.2.1.isEmpty && decide (n ≤ creditsLeft p vc d) && decide ((getPort p d).replay.length + n ≤ replayCapacity p)

/-- The channel of a class that is served next: its two DL channels alternate packet by packet. -/
def classChannel (p cls : Nat) (d : Dev) : Option Nat :=
  let first := bitsOf (getPort p d).rrNext cls 1
  [2 * cls + first, 2 * cls + (1 - first)].find? fun v => channelReady p v d

/-- The class of VC-Q (2) and VC-P (3) served next by the shares of 0x4807:0x01, counted in flits. -/
def shareClass (p : Nat) : Nat → Dev → Option Nat × Dev
  | 0, d => (none, d)
  | n + 1, d =>
    let x := getPort p d
    let c := x.turn
    let other := 5 - c
    match classChannel p c d with
    | none =>
      if (classChannel p other d).isNone then (none, d)
      else shareClass p n (modPort p (fun y => { y with turn := other, quota := Sparse.set 0 y.quota c 0 }) d)
    | some v =>
      let size := (waitingFlits p v d).2.1.length
      let have_ := Sparse.get 0 x.quota c
      if size ≤ have_ then (some c, setPort p { x with quota := Sparse.set 0 x.quota c (have_ - size) } d)
      else
        let w := bitsOf (dictGet 0x4807 1 d) (8 * (c - 2)) 8
        shareClass p n (setPort p { x with turn := other, quota := Sparse.set 0 x.quota c (have_ + w) } d)

/-- The channel that sends its next flit: VC-C; else a packet of another class that has started; else VC-S; else
VC-Q and VC-P by their shares. -/
def pickChannel (p : Nat) (d : Dev) : Option Nat × Dev :=
  match classChannel p 0 d with
  | some v => (some v, d)
  | none =>
    match (List.range 8).find? fun v => !(waitingFlits p v d).2.2 with
    | some v => (if channelReady p v d then some v else none, d)
    | none =>
      match classChannel p 1 d with
      | some v => (some v, d)
      | none =>
        let r := shareClass p 16 d
        (r.1.bind fun c => classChannel p c r.2, r.2)

/-- Whether anything waits to be sent on a port. -/
def outputEmpty (p : Nat) (d : Dev) : Bool := (List.range 8).all fun v => (waitingFlits p v d).2.1.isEmpty

/-- A new data flit of a channel goes out and is held for replay; it takes a credit. -/
def sendNew (p vc : Nat) (d : Dev) : Dev :=
  let x := getPort p d
  let w := waitingFlits p vc d
  match w.2.1 with
  | [] => d
  | b :: rest =>
    let f : HeldFlit := { fseq := x.fseq, vc := vc, sop := w.2.2, eop := rest.isEmpty, body := b, retakes := 0 }
    let y : Port := { x with
      fseq := (x.fseq + 1) % 65536
      timerAt := if x.replay.isEmpty then d.now else x.timerAt
      replay := x.replay ++ [f]
      txLeft := Sparse.set (0, []) x.txLeft vc (w.1, rest)
      rrNext := if rest.isEmpty then x.rrNext ^^^ 2 ^ (vc / 2) * (if bitsOf x.rrNext (vc / 2) 1 = vc % 2 then 1 else 0)
        else x.rrNext }
    let d1 := { d with
      ports := Sparse.set {} d.ports p y
      net.credits := Sparse.modify 0 d.net.credits (8 * p + vc) (· + 1)
      net.outQ := if w.2.2 then Sparse.modify [] d.net.outQ (8 * p + vc) (·.drop 1) else d.net.outQ }
    emitFlit p (some f) (if outputEmpty p d1 then modPort p (fun z => { z with emptySince := d1.now }) d1 else d1)

/-- The oldest held flit that is to be sent again goes out; it counts a retake. -/
def resendFlit (p : Nat) (d : Dev) : Dev :=
  let x := getPort p d
  let i := x.replay.length - x.resend
  match x.replay[i]? with
  | none => setPort p { x with resend := 0 } d
  | some f =>
    let g : HeldFlit := { f with retakes := f.retakes + 1 }
    emitFlit p (some g) (bumpPort p 3 (setPort p { x with replay := x.replay.set i g, resend := x.resend - 1, timerAt := d.now } d))

/-- The oldest held flit that is to be sent again holds an uncorrectable word (R288): its whole packet leaves the
replay buffer, with what was still to be sent of it, and FABRIC_UE is raised. The FSEQ values of the other flits stay
as they are (DESIGN CHOICE: log entry 38). -/
def dropReplayed (p : Nat) (d : Dev) : Dev :=
  let x := getPort p d
  let i := x.replay.length - x.resend
  match x.replay[i]? with
  | none => d
  | some f =>
    let group := ((heldPackets (x.replay.filter (·.vc == f.vc))).find? fun g => g.contains f).getD [f]
    let keep (g : HeldFlit) : Bool := !group.contains g
    let y : Port := { x with
      replay := x.replay.filter keep
      resend := ((x.replay.drop i).filter keep).length
      txLeft := if group.any (·.eop) then x.txLeft else Sparse.set (0, []) x.txLeft f.vc (0, []) }
    let q := parsePacket ((group.map (·.body)).flatten)
    let d1 := setPort p y d
    raise 4 evFabricUe (srcPort p) (if carriesRecords p f.vc then d1 else countUnits q.ep (copyUnits q d) d1)

/-- LINK_FLIT_TRANSMIT: the slot takes a flit to be sent again, else new data, else a null flit. `spoilt` says that
the flit to be sent again holds an uncorrectable word; its packet's flits are skipped. -/
def linkTransmit (p : Nat) (spoilt : Bool) (d0 : Dev) : Dev :=
  let d := if spoilt ∧ (getPort p d0).state = 2 ∧ 0 < (getPort p d0).resend then dropReplayed p d0 else d0
  let x := getPort p d
  if x.state ≠ 2 then d
  else if 0 < x.resend then resendFlit p d
  else
    match pickChannel p d with
    | (some v, d1) => sendNew p v d1
    | (none, d1) => emitFlit p none d1

def execLinkFlitTransmit (port : Nat) (spoilt : Bool) (s : State) : Host.Outcome State Fault Refusal :=
  onDev (decide (port < 9)) (linkTransmit port spoilt) s

/-! ## Awake demand (R282, R283) -/

/-- The value of a lane plan subindex that counts as empty: 288 bytes of 0xFF (R403). -/
def emptyPlan : Nat := 2 ^ 2304 - 1

/-- A lane plan's 32 bytes for a port: none where the plan names no subindex that holds one. -/
def planEntry (plan p : Nat) (d : Dev) : Option Bytes :=
  if plan < 64 ∧ dictGet 0x4040 (plan + 1) d ≠ emptyPlan then
    some (((leBytes 288 (dictGet 0x4040 (plan + 1) d)).drop (32 * p)).take 32)
  else none

/-- The times at which a plan demands a port awake, for a run frame that starts at `start` with factor `s`. -/
def planSpans (plan p start s : Nat) (d : Dev) : List (Nat × Nat) :=
  match planEntry plan p d with
  | none => [(start, start + 2 ^ 64)]
  | some e =>
    if fieldAt e 0 1 = 0 then [(start, start + 2 ^ 64)]
    else (List.range (fieldAt e 1 1)).map fun i =>
      (start + s * fieldAt e (8 + 8 * i) 4 * tNs, start + s * fieldAt e (12 + 8 * i) 4 * tNs)

/-- The times at which a run demands a port awake: in its present run frame, and in the one that follows it. -/
def runSpans (p t : Nat) (d : Dev) : List (Nat × Nat) :=
  let r := getRun t d
  let next (i start : Nat) : List (Nat × Nat) := planSpans (entryPlan (frameEntry t i d).2.1) p start r.factor d
  if r.state = .running then
    let start := d.now - sinceRunFrame t d
    planSpans r.plan p start r.factor d ++ next (r.index + 1) (start + r.factor * framePeriod d)
  else if r.state = .armed ∧ r.con.start = d.clk.frame + 1 then next 0 (d.clk.lastTick + framePeriod d)
  else []

/-- Whether a port direction is awake-demanded at some moment from now to `h` units ahead. -/
def demandWithin (p h : Nat) (d : Dev) : Bool :=
  dictGet (0x4000 + p) 7 d == 1 ||
  (runTenants d).any fun t => (runSpans p t d).any fun s => decide (s.1 ≤ d.now + h) && decide (d.now < s.2)

/-! ## Width changes (R281) -/

/-- The width-change ordered set: lanes in [5:0], PCS unit in [37:6]. -/
def widthSet (lanes unit : Nat) : BitVec 128 := withCrc16 (lanes % 64 + unit % 2 ^ 32 * 2 ^ 6)

/-- A width change is announced three times, for 8 PCS units ahead. -/
def sendWidth (p lanes : Nat) (d : Dev) : Dev :=
  let unit := pcsCount p true d + 8
  let set := widthSet lanes unit
  sendSet p 3 set (sendSet p 3 set (sendSet p 3 set (modPort p (fun x => { x with txChange := some (lanes, unit) }) d)))

/-! ## Training and retraining (R278 to R280, R287) -/

/-- The partly received packets of a port are dropped; each is a rewind of its receiving buffer (R224). -/
def dropPartials (p : Nat) (d : Dev) : Dev :=
  (getPort p d).partials.foldl (fun d _ => bumpQueue (portDie p) 1 d)
    (modPort p (fun x => { x with partials := [], discarding := false, nakDue := false }) d)

/-- Every lane trains: a wake or sleep in progress is cancelled. -/
def trainLanes (p : Nat) (d : Dev) : Dev :=
  modLanes p 0 (fun l => { l with tx := laneTrain, rx := laneTrain, step := 0, failures := 0 })
    (modPort p (fun x => { x with txChange := none, rxChange := none, demandWake := false }) d)

/-- A port begins initial training. -/
def startTraining (p : Nat) (d : Dev) : Dev :=
  let was := (getPort p d).state
  let d1 := trainLanes p (dropPartials p (modPort p (fun x => { x with state := 1, startAt := d.now, resend := 0 }) d))
  if p = 8 ∧ (was = 2 ∨ was = 3) then twinPortRetrain d1 else d1

/-- A port begins a retrain (LINK_RETRAIN): what it holds and what waits stays. -/
def startRetrain (p : Nat) (d : Dev) : Dev :=
  if (getPort p d).state ≠ 2 then d
  else
    let d1 := modPort p (fun x => { x with state := 3, startAt := d.now, resend := 0 }) d
    let d2 := raise 4 evLinkRetrain (srcPort p) (bumpPort p 5 (trainLanes p (dropPartials p d1)))
    if p = 8 then twinPortRetrain d2 else d2

/-- A retrain request goes out before a retrain that this side begins (R277). -/
def retrainAndAsk (p : Nat) (d : Dev) : Dev := startRetrain p (sendSet p 4 0 d)

/-- A port that is enabled trains; one that is disabled is off. -/
def enablePort (p : Nat) (on : Bool) (d : Dev) : Dev :=
  if on then (if (getPort p d).state = 0 then startTraining p d else d)
  else
    let was := (getPort p d).state
    let d1 := modPort p (fun x => { x with state := 0, wasDown := false, resend := 0 }) (trainLanes p (dropPartials p d))
    let d2 := modLanes p 0 (fun l => { l with tx := laneOff, rx := laneOff }) d1
    if p = 8 ∧ (was = 2 ∨ was = 3) then twinPortRetrain d2 else d2

/-- The port goes down; on T the twin's probe follows (R326). -/
def portGoesDown (p : Nat) (d : Dev) : Dev :=
  let d1 := modPort p (fun x => { x with state := 4, wasDown := true, startAt := d.now }) d
  if p = 8 then twinPortDown d1 else d1

/-- The initial limit of a training phase in microseconds (Table 12.5). -/
def phaseLimit : Nat → Nat
  | 1 => 10000
  | 2 => 20000
  | 3 => 2000
  | 4 => 1000
  | _ => 10

/-- TRAINING_PHASE_TIMEOUT: a phase of initial training has exceeded its limit. A retrain has one limit, that of
RETRAIN_TIMEOUT. -/
def phaseTimeout (p phase : Nat) (d : Dev) : Dev :=
  let x := getPort p d
  if x.state = 1 ∧ x.startAt + phaseLimit phase * tUs ≤ d.now then
    portGoesDown p (raise 4 evLinkTrainFail (srcPort p) d)
  else d

/-- RETRAIN_TIMEOUT: 2,000 us from its trigger (R287). -/
def retrainTimeout (p : Nat) (d : Dev) : Dev :=
  let x := getPort p d
  if x.state = 3 ∧ x.startAt + 2000 * tUs ≤ d.now then
    portGoesDown p (raise 4 evLinkDown (srcPort p) (bumpPort p 6 d))
  else d

/-- DOWN_TRAINING_RETRY: once every second. -/
def downRetry (p : Nat) (d : Dev) : Dev :=
  let x := getPort p d
  if x.state = 4 ∧ x.startAt + 1000 * tMs ≤ d.now then startTraining p d else d

def execTrainingPhaseTimeout (port phase : Nat) (s : State) : Host.Outcome State Fault Refusal :=
  onDev (decide (port < 9) && decide (1 ≤ phase) && decide (phase ≤ 5)) (phaseTimeout port phase) s
def execRetrainTimeout (port : Nat) (s : State) : Host.Outcome State Fault Refusal :=
  onDev (decide (port < 9)) (retrainTimeout port) s
def execDownTrainingRetry (port : Nat) (s : State) : Host.Outcome State Fault Refusal :=
  onDev (decide (port < 9)) (downRetry port) s
def execRetrainRequest (port : Nat) (s : State) : Host.Outcome State Fault Refusal :=
  onDev (decide (port < 9)) (startRetrain port) s
def execLockLoss (port : Nat) (s : State) : Host.Outcome State Fault Refusal :=
  onDev (decide (port < 9)) (startRetrain port) s

/-- Whether the peer's coordinate and port are the ones R279 expects. -/
def peerExpected (p coord pcode : Nat) (d : Dev) : Bool :=
  if p = 8 then
    pcode == 8 && (match twinCoord d with
      | some c => coord == c
      | none => true)
  else
    let k := p / 2
    let own := ownCoord d
    let sz := dimSize k d
    let v := if p % 2 = 0 then (dimOf own k + 1) % sz else (dimOf own k + sz - 1) % sz
    pcode == (if p % 2 = 0 then p + 1 else p - 1) && coord == own - dimOf own k * 2 ^ dimLo k + v * 2 ^ dimLo k

/-- The held flits after the far end's resume point, numbered on from it. A resume point outside the held flits is
that of a far end that has started anew: all of them are sent to it. -/
def resumeFrom (resume : Nat) (l : List HeldFlit) : List HeldFlit :=
  let rest := if l.any (·.fseq == resume) then (l.dropWhile fun f => f.fseq != resume).drop 1 else l
  (List.range rest.length).filterMap fun i => rest[i]?.map fun f => { f with fseq := (resume + 1 + i) % 65536, retakes := 0 }

/-- The port comes up: the flits after the resume point are due again, and the credits are those that the far end
reports, as the taken flits of its eight channels. Where no width but NARROW is demanded, that change follows at
once (R283). -/
def comesUp (p resume : Nat) (held : List Nat) (snr : List Int) (d : Dev) : Dev :=
  let x := getPort p d
  let l := resumeFrom resume x.replay
  let y : Port := { x with
    state := 2, wasDown := false, replay := l, resend := l.length, fseq := (resume + 1 + l.length) % 65536
    ackedTo := resume, timerAt := d.now, expect := (x.committedEop + 1) % 65536, freed := [], reported := []
    wide := true, rxWide := true, unitAt := d.now, unitCount := 0, rxUnitAt := d.now, rxUnitCount := 0
    emptySince := d.now }
  let d1 := { d with
    ports := Sparse.set {} d.ports p y
    net.credits := (List.range 8).foldl (fun m v => Sparse.set 0 m (8 * p + v) (held[v]?.getD 0)) d.net.credits }
  let d2 := (List.range (laneCount p)).foldl (fun d l =>
    modLane p l (fun n => { n with tx := laneActive, rx := laneActive, snr := snr[l]?.getD n.snr }) d) d1
  let d3 := if x.wasDown then raise 4 evLinkUp (srcPort p) d2 else d2
  let d4 := if demandWithin p 0 d3 then d3 else sendWidth p 2 d3
  if p = 8 then twinPortUp d4 else d4

/-- LINK_HANDSHAKE: phase 5 ends with the peer's identity, resume point, credits and one calibration exchange. A
peer that is not the one expected leaves the port miscabled. -/
def linkHandshake (p coord pcode serial resume : Nat) (held : List Nat) (snr : List Int) (t1 t2 t3 t4 : Nat)
    (d : Dev) : Dev :=
  let x := getPort p d
  if x.state ≠ 1 ∧ x.state ≠ 3 then d
  else
    let d1 := setPort p { x with peerCoord := coord, peerPort := pcode, peerSerial := serial } d
    if peerExpected p coord pcode d1 then
      comesUp p (resume % 65536) held snr (delaySample p (exchangeDelay p t1 t2 t3 t4 d1) d1)
    else raise 4 evLinkMiscabled (srcPort p) (modPort p (fun y => { y with state := 5 }) d1)

def execLinkHandshake (port coord pcode serial resume : Nat) (held : List Nat) (snr : List Int) (t1 t2 t3 t4 : Nat)
    (s : State) : Host.Outcome State Fault Refusal :=
  onDev (decide (port < 9)) (linkHandshake port coord pcode serial resume held snr t1 t2 t3 t4) s

/-! ## Replay (R275 to R277) -/

/-- The held flits whose FSEQ an acknowledgement covers. -/
def coveredFlits (ack : Nat) (l : List HeldFlit) : Nat :=
  (l.takeWhile fun f => decide ((ack + 65536 - f.fseq) % 65536 < 32768)).length

/-- The place after the last EOP flit among the first `n` held flits. -/
def wholePackets : List HeldFlit → Nat → Nat
  | _, 0 => 0
  | [], _ => 0
  | f :: fs, n + 1 => let k := wholePackets fs n; if 0 < k then k + 1 else if f.eop then 1 else 0

/-- An acknowledgement releases the packets whose EOP flit it covers; progress restarts the replay timer. -/
def takeAck (p ack : Nat) (d : Dev) : Dev :=
  let x := getPort p d
  let n := coveredFlits ack x.replay
  let l := x.replay.drop (wholePackets x.replay n)
  if n = 0 ∨ x.ackedTo = ack then d
  else setPort p { x with replay := l, ackedTo := ack, timerAt := d.now, resend := min x.resend (x.replay.length - n) } d

/-- Every held flit after `ack` is to be sent again; where one of them has reached the retake limit, the port
retrains instead. -/
def replayAfter (p ack : Nat) (d : Dev) : Dev :=
  let x := getPort p d
  let rest := x.replay.drop (coveredFlits ack x.replay)
  if rest.any fun f => decide (dictGet (0x4000 + p) 6 d ≤ f.retakes) then retrainAndAsk p d
  else setPort p { x with resend := rest.length, timerAt := d.now } d

/-- NAK_RECEIVE: a NAK whose ACK is `ack`. -/
def nakReceive (p ack : Nat) (d : Dev) : Dev :=
  if (getPort p d).state = 2 then replayAfter p ack (takeAck p ack d) else d

/-- REPLAY_TIMER_EXPIRY: the oldest held flit has gone unacknowledged for 2d + 2F + 96 ns. -/
def replayTimer (p : Nat) (d : Dev) : Dev :=
  let x := getPort p d
  let waiting := decide (coveredFlits x.ackedTo x.replay < x.replay.length) && x.resend == 0
  if x.state = 2 ∧ waiting ∧
      2 * filteredDelay p d + 2000 * (fecDelay p : Int) + 96000 ≤ ((d.now - x.timerAt) * 50 : Nat) then
    replayAfter p x.ackedTo (bumpPort p 4 d)
  else d

def execNakReceive (port ack : Nat) (s : State) : Host.Outcome State Fault Refusal :=
  onDev (decide (port < 9)) (nakReceive port (ack % 65536)) s
def execReplayTimerExpiry (port : Nat) (s : State) : Host.Outcome State Fault Refusal :=
  onDev (decide (port < 9)) (replayTimer port) s

/-! ## Receiving (R272 to R275) -/

/-- A whole packet has been committed: it joins its input buffer, or, on a record channel of T, the records, which
free their flits at once. -/
def packetIn (p vc : Nat) (bs : Bytes) (d : Dev) : Dev :=
  if carriesRecords p vc then
    let d1 := modPort p (fun x => { x with freed := Sparse.modify 0 x.freed vc (· + flitsOf bs.length) }) d
    match parseRecord bs with
    | some r => acceptRecord r d1
    | none => d1
  else { d with net.inQ := Sparse.modify [] d.net.inQ (8 * p + vc) (· ++ [parsePacket bs]) }

/-- A flit has failed, or is out of order: one NAK, and data is discarded until the expected flit arrives. -/
def flitFails (p : Nat) (d : Dev) : Dev :=
  modPort p (fun x => if x.discarding then x else { x with discarding := true, nakDue := true }) d

/-- A packet that starts where a part of another is held: the far end has skipped the rest of that one, and the
buffer rewinds, its flits freed (R224, R288). -/
def rewindPartial (p vc : Nat) (sop : Bool) (d : Dev) : Dev :=
  let part := Sparse.get [] (getPort p d).partials vc
  if sop = true ∧ part ≠ [] then
    bumpQueue (portDie p) 1 (modPort p (fun x => { x with
      partials := Sparse.set [] x.partials vc [], freed := Sparse.modify 0 x.freed vc (· + flitsOf part.length) }) d)
  else d

/-- A data flit in good order or not. -/
def dataFlit (p vc fseq : Nat) (sop eop : Bool) (body : Bytes) (d0 : Dev) : Dev :=
  let d := if fseq = (getPort p d0).expect then rewindPartial p vc sop d0 else d0
  let x := getPort p d
  if fseq = x.expect then
    let so : Bytes := if sop then body else Sparse.get [] x.partials vc ++ body
    let y : Port := { x with
      expect := (x.expect + 1) % 65536
      discarding := false
      partials := Sparse.set [] x.partials vc (if eop then [] else so)
      committedEop := if eop then fseq else x.committedEop }
    let d1 := setPort p y d
    if eop then packetIn p vc so d1 else d1
  else if (x.expect + 65536 - fseq) % 65536 < 32768 then d
  else flitFails p d

/-- The sender's credits grow by what a channel has freed since the last report (R274). -/
def creditReturn (p vc crn : Nat) (d : Dev) : Dev :=
  let last := Sparse.get 0 (getPort p d).reported vc
  let n := (crn + 256 - last) % 256
  { d with ports := Sparse.modify {} d.ports p (fun x => { x with reported := Sparse.set 0 x.reported vc crn })
           net.credits := Sparse.modify 0 d.net.credits (8 * p + vc) (· - n) }

/-- Whether a flit passes its CRC-32C, and its header uses no reserved field, KIND or OSTYPE (R273). -/
def flitGood (bs : Bytes) : Bool :=
  let h := leNat (bs.take 12)
  decide (crc32c (bs.take 76) = fieldAt bs 76 4) && bitsOf h 66 30 == 0 && bitsOf h 0 2 != 3 &&
  !(bitsOf h 0 2 == 2 && decide (4 < bitsOf h 62 4))

/-- One link flit arrives; `lost` says that its codeword could not be corrected. An ordered set has its own
command. -/
def flitIn (p : Nat) (lost : Bool) (bs : Bytes) (d : Dev) : Dev :=
  if lost || !flitGood bs then flitFails p (bumpPort p 1 (raise 0 evLinkCrc (srcPort p) d))
  else
    let h := leNat (bs.take 12)
    let ack := bitsOf h 24 16
    let d1 := creditReturn p (bitsOf h 51 3) (bitsOf h 54 8) (creditReturn p (bitsOf h 40 3) (bitsOf h 43 8) (takeAck p ack d))
    let d2 := if bitOf h 7 then replayAfter p ack d1 else d1
    if bitsOf h 0 2 = 0 then
      dataFlit p (bitsOf h 2 3) (bitsOf h 8 16) (bitOf h 5) (bitOf h 6) ((bs.drop 12).take 64) d2
    else d2

/-- The FEC counts of a codeword (0x4000 + p:0x12) and of its lanes; `errors` are the symbols found in error.
Symbol i travels on lane i modulo the lanes in use (R272). -/
def countFec (p : Nat) (errors : List Nat) (d : Dev) : Dev :=
  let n := errors.length
  let w := if (getPort p d).rxWide then laneCount p else 2
  let bump (i k : Nat) (d : Dev) : Dev := modPort p (fun x => { x with fec := bumpTable x.fec i k }) d
  let d1 := bump 0 1 d
  if 15 < n then bump 3 1 d1
  else
    let d2 := bump (4 + n) 1 (if n = 0 then d1 else bump 2 n (bump 1 1 d1))
    errors.foldl (fun d i => modLane p (i % w) (fun l => { l with corrected := satAdd 64 l.corrected 1 }) d) d2

/-- LINK_FLIT_RECEIVE: an 80-byte flit on an electrical port, the eight of a codeword on an optical one, whose
decoder corrects up to 15 symbols. -/
def linkReceive (p : Nat) (bytes : Bytes) (errors : List Nat) (d : Dev) : Dev :=
  if (getPort p d).state ≠ 2 then d
  else if isOptical p then
    (List.range 8).foldl (fun d i => flitIn p (decide (15 < errors.length)) (padTo 80 (bytes.drop (80 * i))) d)
      (countFec p errors d)
  else flitIn p false (padTo 80 bytes) d

def execLinkFlitReceive (port : Nat) (bytes : Bytes) (errors : List Nat) (s : State) :
    Host.Outcome State Fault Refusal :=
  onDev (decide (port < 9)) (linkReceive port bytes errors) s

end Sys2Proof.Machine
end

