-- ==== Sys2Proof/Machine/Lanes.lean ====
section
/-!
DEFINITION. Lane power (R281 to R286): width changes, waking and sleeping, and the idle noise floor.
-/
namespace Sys2Proof.Machine

/-! ## Width changes -/

/-- WIDTH_CHANGE: the first good copy of a change to two lanes or to all of them. -/
def widthChange (p : Nat) (set : BitVec 128) (d : Dev) : Dev :=
  let v := set.toNat
  let x := getPort p d
  let n := bitsOf v 0 6
  if x.state = 2 ∧ crc16Good set ∧ x.rxChange = none ∧ (n = 2 ∨ n = laneCount p) then
    setPort p { x with rxChange := some (n, bitsOf v 6 32) } d
  else d

/-- WIDTH_CHANGE_APPLY: at the PCS unit named, the sending (`tx`) or receiving direction takes its new width. The
lanes that leave a stripe ramp down at the transmitter and sleep at the receiver. -/
def widthApply (p : Nat) (tx : Bool) (d : Dev) : Dev :=
  let x := getPort p d
  match (if tx then x.txChange else x.rxChange) with
  | none => d
  | some (n, unit) =>
    let c := pcsCount p tx d
    if x.state ≠ 2 ∨ 2 ^ 31 ≤ (c + 2 ^ 32 - unit % 2 ^ 32) % 2 ^ 32 then d
    else
      let full := n == laneCount p
      if tx then
        let d1 := bumpPort p 9 (setPort p { x with txChange := none, wide := full, unitAt := d.now, unitCount := c } d)
        if full then d1 else modLanes p 2 (fun l => { l with tx := laneRampDn, step := 0, rampAt := d.now }) d1
      else
        let d1 := bumpPort p 9 (setPort p { x with rxChange := none, rxWide := full, rxUnitAt := d.now, rxUnitCount := c } d)
        if full then d1 else modLanes p 2 (fun l => { l with rx := laneSleep }) d1

def execWidthChange (port : Nat) (set : BitVec 128) (s : State) : Host.Outcome State Fault Refusal :=
  onDev (decide (port < 9)) (widthChange port set) s
def execWidthChangeApply (port : Nat) (tx : Bool) (s : State) : Host.Outcome State Fault Refusal :=
  onDev (decide (port < 9)) (widthApply port tx) s

/-! ## Waking and sleeping (R283, R284) -/

/-- Whether a port's sending direction is narrow with its upper lanes asleep. -/
def canWake (p : Nat) (d : Dev) : Bool :=
  let x := getPort p d
  x.state == 2 && !x.wide && x.txChange.isNone &&
  ((List.range (laneCount p)).filter (2 ≤ ·)).all fun l => (getLane p l d).tx == laneSleep

/-- The upper lanes begin to ramp up. -/
def beginWake (p : Nat) (d : Dev) : Dev :=
  modLanes p 2 (fun l => { l with tx := laneRampUp, step := 0, rampAt := d.now }) d

/-- WAKE_START: 4 us before awake demand, or at once. -/
def wakeStart (p : Nat) (d : Dev) : Dev :=
  if canWake p d && demandWithin p (4 * tUs) d then beginWake p d else d

/-- Whether a demand wake still holds the direction awake: until its queue has been empty for 10 us. -/
def wakeHeld (p : Nat) (d : Dev) : Bool :=
  (getPort p d).demandWake && (!outputEmpty p d || decide (d.now < (getPort p d).emptySince + 10 * tUs))

/-- SLEEP_START: no demand within 10 us; a width change to NARROW goes out. -/
def sleepStart (p : Nat) (d : Dev) : Dev :=
  let x := getPort p d
  if x.state = 2 ∧ x.wide ∧ x.txChange = none ∧ demandWithin p (10 * tUs) d = false ∧ wakeHeld p d = false then
    sendWidth p 2 (setPort p { x with demandWake := false } d)
  else d

/-- The longest time that anything has waited on a port. -/
def longestWait (p : Nat) (d : Dev) : Nat :=
  (List.range 8).foldl (fun n v =>
    let w := waitingFlits p v d
    if w.2.1.isEmpty then n else max n (d.now - w.1)) 0

/-- DEMAND_WAKE: flits have waited longer than the demand-wake delay. -/
def demandWake (p : Nat) (d : Dev) : Dev :=
  if canWake p d && decide (dictGet (0x4000 + p) 5 d * 10 * tNs < longestWait p d) then
    beginWake p (bumpPort p 7 (modPort p (fun x => { x with demandWake := true }) d))
  else d

def execWakeStart (port : Nat) (s : State) : Host.Outcome State Fault Refusal :=
  onDev (decide (port < 9)) (wakeStart port) s
def execSleepStart (port : Nat) (s : State) : Host.Outcome State Fault Refusal :=
  onDev (decide (port < 9)) (sleepStart port) s
def execDemandWake (port : Nat) (s : State) : Host.Outcome State Fault Refusal :=
  onDev (decide (port < 9)) (demandWake port) s

/-- The time of one amplitude step, 31.25 ns. -/
def rampStep : Nat := 625

/-- LANE_RAMP_STEP: the amplitude moves by a sixteenth. A lane that reaches full swing sends the qualifier sixteen
times, then idle blocks; one that reaches 0 sleeps. -/
def laneRamp (p l : Nat) (d : Dev) : Dev :=
  let n := getLane p l d
  if (n.tx ≠ laneRampUp ∧ n.tx ≠ laneRampDn) ∨ d.now < n.rampAt + (n.step + 1) * rampStep then d
  else
    let k := n.step + 1
    let d1 := emit (.drive p l (if n.tx = laneRampUp then k else 16 - k)) (modLane p l (fun n => { n with step := k }) d)
    if k < 16 then d1
    else if n.tx = laneRampUp then
      (List.range 16).foldl (fun d _ => emit (.qualifier p l) d) (modLane p l (fun n => { n with tx := laneRelock }) d1)
    else modLane p l (fun n => { n with tx := laneSleep }) d1

/-- LANE_ENERGY_DETECT: a sleeping lane has seen `level` above its threshold for 64 UI, and searches. -/
def energyDetect (p l : Nat) (level : Int) (d : Dev) : Dev :=
  if (getLane p l d).rx = laneSleep ∧ signedOf 32 (dictGet (0x4000 + p) 4 d) < level then
    modLane p l (fun n => { n with rx := laneRampUp, energyAt := d.now }) d
  else d

/-- The qualifier of R284. -/
def qualifierWord : BitVec 128 := 0xC3A55A3CF00F0FF03CC3A55A69969669#128

/-- QUALIFIER_MATCH: the qualifier within 2 us of the energy; the lane relocks. -/
def qualifierMatch (p l : Nat) (q : BitVec 128) (d : Dev) : Dev :=
  let n := getLane p l d
  if n.rx = laneRampUp ∧ q = qualifierWord ∧ d.now ≤ n.energyAt + 2 * tUs then
    modLane p l (fun n => { n with rx := laneRelock }) d
  else d

/-- QUALIFIER_TIMEOUT: a false wake, and the lane listens again. -/
def qualifierTimeout (p l : Nat) (d : Dev) : Dev :=
  let n := getLane p l d
  if n.rx = laneRampUp ∧ n.energyAt + 2 * tUs ≤ d.now then
    modLane p l (fun n => { n with rx := laneSleep, falseWakes := satAdd 64 n.falseWakes 1 }) d
  else d

/-- RELOCK_COMPLETE: the receiver's lane is active; or the transmitter (`tx`) has learnt that the far receiver's lane
is, and once it is so for every upper lane, a width change to the full count goes out. -/
def relockComplete (p l : Nat) (tx : Bool) (d : Dev) : Dev :=
  let n := getLane p l d
  if tx then
    if n.tx = laneRelock then
      let d1 := modLane p l (fun n => { n with tx := laneActive, failures := 0 }) d
      if ((List.range (laneCount p)).filter (2 ≤ ·)).all fun i => (getLane p i d1).tx == laneActive then
        sendWidth p (laneCount p) d1
      else d1
    else d
  else if n.rx = laneRelock then
    modLane p l (fun n => { n with rx := laneActive, wakes := satAdd 64 n.wakes 1 }) d
  else d

/-- LANE_WAKE_LATE: a lane not active 4 us after its ramp began is tried again once; the second failure in a row is
a lane fault, and the port retrains (R280). -/
def laneWakeLate (p l : Nat) (d : Dev) : Dev :=
  let n := getLane p l d
  if (n.tx ≠ laneRampUp ∧ n.tx ≠ laneRelock) ∨ d.now < n.rampAt + 4 * tUs then d
  else
    let d1 := raise 4 evLaneWakeLate (srcLane p l) (modLane p l (fun n => { n with
      failures := n.failures + 1, lateWakes := satAdd 64 n.lateWakes 1, tx := laneRampUp, step := 0, rampAt := d.now }) d)
    if 1 ≤ n.failures then
      startRetrain p (raise 4 evLaneFault (srcLane p l) (modLane p l (fun n => { n with tx := laneFault }) d1))
    else d1

def laneOk (p l : Nat) : Bool := decide (p < 9) && decide (l < laneCount p)

def execLaneRampStep (port lane : Nat) (s : State) : Host.Outcome State Fault Refusal :=
  onDev (laneOk port lane) (laneRamp port lane) s
def execLaneEnergyDetect (port lane : Nat) (level : Int) (s : State) : Host.Outcome State Fault Refusal :=
  onDev (laneOk port lane) (energyDetect port lane level) s
def execQualifierMatch (port lane : Nat) (q : BitVec 128) (s : State) : Host.Outcome State Fault Refusal :=
  onDev (laneOk port lane) (qualifierMatch port lane q) s
def execQualifierTimeout (port lane : Nat) (s : State) : Host.Outcome State Fault Refusal :=
  onDev (laneOk port lane) (qualifierTimeout port lane) s
def execRelockComplete (port lane : Nat) (tx : Bool) (s : State) : Host.Outcome State Fault Refusal :=
  onDev (laneOk port lane) (relockComplete port lane tx) s
def execLaneWakeLate (port lane : Nat) (s : State) : Host.Outcome State Fault Refusal :=
  onDev (laneOk port lane) (laneWakeLate port lane) s

/-! ## The idle noise floor (R286) -/

/-- The largest floor of the last 16. -/
def largestFloor (n : Lane) : Int :=
  match n.floors with
  | [] => 0
  | f :: fs => fs.foldl max f

/-- Whether a lane's threshold is too near its floors: below twice the largest electrical one, within 3.00 dB of
the largest optical one. -/
def marginShort (p : Nat) (n : Lane) (d : Dev) : Bool :=
  let th := signedOf 32 (dictGet (0x4000 + p) 4 d)
  if isOptical p then decide (th ≤ largestFloor n + 300) else decide (th < 2 * largestFloor n)

/-- NOISE_FLOOR_MEASURE: from t = P - 2 us, a sleeping lane takes a measurement. -/
def noiseFloor (p l : Nat) (value : Int) (d : Dev) : Dev :=
  if (getLane p l d).rx = laneSleep ∧ d.clk.lastTick + framePeriod d ≤ d.now + 2 * tUs then
    let v := if isOptical p then max value (-4000) else value
    let d1 := modLane p l (fun n => { n with floors := (v :: n.floors).take 16 }) d
    let n := getLane p l d1
    if marginShort p n d1 then
      if n.marginRaised then d1
      else raise 4 evNoiseMargin (srcLane p l) (modLane p l (fun n => { n with marginRaised := true }) d1)
        (unsignedOf 32 (largestFloor n))
    else modLane p l (fun n => { n with marginRaised := false }) d1
  else d

def execNoiseFloorMeasure (port lane : Nat) (value : Int) (s : State) : Host.Outcome State Fault Refusal :=
  onDev (laneOk port lane) (noiseFloor port lane value) s

end Sys2Proof.Machine
end

