-- ==== Sys2Proof/Machine/Entries.lean ====
section
/-!
DEFINITION. What the entries of the dictionary read (chapter 18): constants, status, counts and stored values.
-/
namespace Sys2Proof.Machine

/-! ## Pieces of values -/

/-- `n` U64 counts of a table from number `lo` on. -/
def counts64 (m : Table Nat) (lo n : Nat) : Bytes := (List.range n).flatMap fun i => leBytes 8 (Sparse.get 0 m (lo + i))

/-- A signed value in `n` bytes. -/
def signedBytes (n : Nat) (i : Int) : Bytes := leBytes n (unsignedOf (8 * n) i)

/-- The ASCII bytes of a text. -/
def textBytes (s : String) : Bytes := s.toList.map fun c => BitVec.ofNat 8 c.toNat

/-- The time to the lease's expiry in milliseconds. -/
def leaseLeft (d : Dev) : Nat := if d.mgmt.lease.role = 0 then 0 else (d.mgmt.lease.expiry - d.now) / tMs

/-- 0x1200:0x01. -/
def leaseBytes (d : Dev) : Bytes :=
  let l := d.mgmt.lease
  leBytes 1 l.role ++ leBytes 1 l.transport ++ leBytes 2 0 ++ leBytes 4 l.epoch ++ leBytes 8 l.address ++
  leBytes 4 (leaseLeft d) ++ leBytes 4 0

/-- 0x1400:0x02. -/
def commitBytes (d : Dev) : Bytes :=
  let c := d.mgmt.commit
  leBytes 8 c.number ++ leBytes 1 c.state ++ leBytes 1 c.code ++ leBytes 2 c.failIndex ++ leBytes 1 c.failSub ++
  leBytes 3 0 ++ leBytes 8 c.tick

/-- 0x1001:0x02 and 0x03: version and SVN of the slot's header, and the slot's state. -/
def slotBytes (s : Nat) (d : Dev) : Bytes :=
  let st := Sparse.get 0 d.boot.slotState s
  (if st = 0 then fillBytes 8 0 else flashRead (slotBase s + 8) 8 d) ++ leBytes 1 st ++ leBytes 7 0

/-- 0x2000:0x09: 0 locked, 1 holdover, 2 lost. -/
def holdoverState (d : Dev) : Nat := if d.clk.lost then 2 else if 0 < d.clk.missed ∨ d.clk.edgeHold ∨ d.boot.fabLost then 1 else 0

/-- The class pools and the tenants' group masks together (R342). -/
def partitionGroups (d : Dev) : Nat :=
  (tenantsWith 0x0A d).foldl (fun n t => n ||| tenantGet t 0x0A d)
    ([1, 2, 3].foldl (fun n s => n ||| dictGet 0x2804 s d) 0)

/-- 0x2800:0x02. -/
def freeGroups (d : Dev) : Nat := (2 ^ 64 - 1) - (partitionGroups d ||| dictGet 0x2800 1 d) % 2 ^ 64

/-- 0x2820: nine counts of a tile. -/
def tileCountBytes (t : Nat) (d : Dev) : Bytes := counts64 (getTCount t d).corrected 0 9

/-- 0x2430 and 0x2460. -/
def numericBytes (t : Nat) (d : Dev) : Bytes :=
  let c := getTCount t d
  leBytes 8 c.saturated ++ leBytes 8 c.nanWritten ++ leBytes 8 c.toInf
def counterBytes (t : Nat) (d : Dev) : Bytes :=
  let c := getTCount t d
  leBytes 8 c.ctrCorrected ++ leBytes 8 c.ctrUncorrectable ++ leBytes 8 c.ctrStale ++ leBytes 8 c.ctrRemote

/-- 0x2810 + s: corrected, uncorrectable and repaired words of a pseudo-channel, and its last error address. -/
def channelBytes (s c : Nat) (d : Dev) : Bytes :=
  let p := 64 * s + c
  counts64 d.mem.hbmCounts (4 * p) 3 ++ leBytes 8 (Sparse.get 0 d.mem.hbmLast p)

/-- 0x3000:0x12: C, reservations and H in credits, and the three levels. -/
def frameEnergyBytes (d : Dev) : Bytes :=
  signedBytes 4 d.pow.pool ++ signedBytes 4 d.pow.reserved ++ signedBytes 4 (d.pow.headroom / credit) ++
  leBytes 1 d.pow.thermal ++ leBytes 1 d.pow.powerLevel ++ leBytes 1 d.pow.source1 ++ leBytes 1 0

/-- 0x3001: Tj of the last frame and the sensors of a die; an excluded one reads 0x8000. A die's Tj is kept plus
1,000; 0 says that no frame has given one. -/
def sensorBytes (die : Nat) (d : Dev) : Bytes :=
  let t := Sparse.get 0 d.pow.tjDie (2 + die)
  signedBytes 2 (if t = 0 then 0 else t - 1000) ++ (List.range 16).flatMap fun s =>
    if Sparse.get false d.pow.excluded (die * 16 + s) then leBytes 2 0x8000
    else signedBytes 2 (Sparse.get 0 d.pow.sensors (die * 16 + s))

/-- 0x4000 + p:0x10. -/
def peerBytes (p : Nat) (d : Dev) : Bytes :=
  let x := getPort p d
  leBytes 4 x.peerCoord ++ leBytes 1 x.peerPort ++ leBytes 3 0 ++ leBytes 8 x.peerSerial

/-- 0x4010 + p: a lane, its state that of its receiver. -/
def laneBytes (p l : Nat) (d : Dev) : Bytes :=
  let n := getLane p l d
  leBytes 1 n.rx ++ signedBytes 2 n.snr ++ signedBytes 4 (n.floors.headD 0) ++ signedBytes 4 (largestFloor n) ++
  leBytes 8 n.wakes ++ leBytes 8 n.falseWakes ++ leBytes 8 n.lateWakes ++ leBytes 8 n.corrected

/-- 0x4805: entries in use and in QUAR, seven counts, and the queries answered. -/
def remoteBytes (d : Dev) : Bytes :=
  leBytes 4 (d.rem.track.filter fun e => e.2.state != .free).length ++
  leBytes 4 (d.rem.track.filter fun e => e.2.state == .quar).length ++ counts64 d.rem.counts 0 8

/-- 0x5000 + t:0x60. -/
def runCountBytes (t : Nat) (d : Dev) : Bytes :=
  let r := getRun t d
  [r.onTime, r.late, r.droppedResults, r.substituted, r.discardedLate, r.accepted, r.quarantined, r.skipped,
    r.switches].flatMap (leBytes 8)

/-- 0x8000:0x01. -/
def logStatusBytes (d : Dev) : Bytes :=
  leBytes 8 d.ev.nextSeq ++ leBytes 8 (d.ev.nextSeq - 4096) ++ leBytes 4 4096 ++ leBytes 4 0

/-- 0x7001: a rail's voltage and current as they are measured. -/
def railBytes (r : Nat) (d : Dev) : Bytes := leBytes 8 (Config.railReading r d.now)

/-! ## An entry's value (R384, R397) -/

/-- The value of an entry in the identity, firmware, lease and staging area, where it is not a stored one. -/
def lowEntry (idx sub : Nat) (d : Dev) : Option Bytes :=
  match idx, sub with
  | 0x1000, 3 => some (textBytes "DRV-JX1-A00")
  | 0x1000, 4 => some (textBytes "Jexgan")
  | 0x1000, 5 => some (leBytes 1 Config.stepping)
  | 0x1000, 6 => some (leBytes 8 Config.serialNumber)
  | 0x1000, 7 => some (leBytes 16 Config.deviceUuid)
  | 0x1001, 1 => some (leBytes 1 (if d.boot.state = 2 then (bootRec d).last else d.boot.slot))
  | 0x1001, 2 => some (slotBytes 0 d)
  | 0x1001, 3 => some (slotBytes 1 d)
  | 0x1010, 3 => some (leBytes 1 d.boot.update ++ leBytes 3 0 ++ leBytes 4 d.boot.received)
  | 0x1100, 1 => some (leBytes 1 d.boot.state)
  | 0x1100, 2 => some (leBytes 2 (if d.boot.state = 1 then 0 else d.boot.reason))
  | 0x1100, 3 => some (leBytes 1 (bootRec d).count)
  | 0x1100, 4 => some ((copyInUse d).elim (fillBytes 64 0) fun k => recordCopy k d)
  | 0x1200, 1 => some (leaseBytes d)
  | 0x1400, 2 => some (commitBytes d)
  | 0x1400, 3 => some (leBytes 2 d.mgmt.shadow.length)
  | _, _ => none

/-- The same for clocks, tiles, memory and power. -/
def midEntry (idx sub : Nat) (d : Dev) : Option Bytes :=
  match idx with
  | 0x2000 => if sub = 8 then some (leBytes 8 d.clk.frame) else if sub = 9 then some (leBytes 1 (holdoverState d)) else none
  | 0x2003 => some (leBytes 4 (unsignedOf 32 (filteredDelay (sub - 1) d)))
  | 0x2400 => some (leBytes 2 (getTile (sub - 1) d).owner)
  | 0x2430 => some (numericBytes (sub - 1) d)
  | 0x2450 => some (coarseBlob (sub - 1))
  | 0x2460 => some (counterBytes (sub - 1) d)
  | 0x2800 => if sub = 2 then some (leBytes 8 (freeGroups d)) else none
  | 0x2801 => if sub = 2 then some (leBytes 1 d.mem.refreshDone) else none
  | 0x2802 => if sub = 2 then some (leBytes 8 d.mem.scrubPasses) else none
  | 0x2820 => some (tileCountBytes (sub - 1) d)
  | 0x2821 => some (counts64 d.mem.dieCounts (6 * (sub - 1)) 6)
  | 0x2822 => some (counts64 d.mem.dieCounts (100 + 4 * (sub - 1)) 4)
  | 0x3000 =>
    if sub = 0x10 then some (leBytes 4 d.pow.avgMw)
    else if sub = 0x11 then some (leBytes 8 (d.pow.energy / 1000))
    else if sub = 0x12 then some (frameEnergyBytes d)
    else none
  | 0x3001 => some (sensorBytes (sub - 1) d)
  | 0x3002 => some (signedBytes 2 (Sparse.get 0 d.pow.stackTemps (sub - 1)))
  | 0x3003 => some (counts64 d.pow.counts 0 8)
  | _ => if 0x2810 ≤ idx ∧ idx ≤ 0x2817 then some (channelBytes (idx - 0x2810) (sub - 1) d) else none

/-- The same for ports, the network interface, the twin, transports, telemetry and the log. -/
def highEntry (idx sub : Nat) (d : Dev) : Option Bytes :=
  match idx with
  | 0x4800 => if sub = 4 then some (leBytes 1 (d.net.bank0 + 4 * d.net.bank1)) else none
  | 0x4803 => some (counts64 d.net.counts 0 8)
  | 0x4804 => some (counts64 d.net.cacheCounts 0 2 ++ leBytes 8 d.net.pinned.length ++ counts64 d.net.cacheCounts 3 1)
  | 0x4805 => some (remoteBytes d)
  | 0x4806 => some (leBytes 1 d.coll.fence ++ counts64 d.coll.counts 0 6)
  | 0x6000 => if sub = 2 then some (leBytes 1 d.twin.state) else if sub = 8 then some (leBytes 8 d.twin.beats) else none
  | 0x6001 => some (counts64 d.twin.counts 0 8)
  | 0x6800 => if sub = 6 then some (leBytes 8 Config.macAddress) else if sub = 0x10 then some (counts64 d.mgmt.counts 0 8) else none
  | 0x6801 => if sub = 2 then some (leBytes 1 d.mgmt.eidI3c) else none
  | 0x6802 => some (leBytes 1 d.mgmt.eidPcie)
  | 0x6803 => if sub = 1 then some (leBytes 1 (ownAddress d)) else if sub = 3 then some (counts64 d.mgmt.smbusCounts 0 4) else none
  | 0x7000 =>
    if sub = 1 then some (leBytes 8 ((d.now - d.clk.resetAt) / tMs))
    else if sub = 2 then some (counts64 d.ev.counts 0 5)
    else some ([d.clk.ticksPlaced, d.clk.slips, d.clk.stretchedFrames, d.mgmt.applied].flatMap (leBytes 8))
  | 0x7001 => some (railBytes (sub - 1) d)
  | 0x7801 => some (counts64 d.obsCounts 0 4)
  | 0x8000 => if sub = 1 then some (logStatusBytes d) else if sub = 5 then some (leBytes 8 d.ev.persistentCount) else none
  | _ =>
    if 0x4000 ≤ idx ∧ idx ≤ 0x4008 then
      let p := idx - 0x4000
      if sub = 3 then some (leBytes 1 (getPort p d).state)
      else if sub = 0x10 then some (peerBytes p d)
      else if sub = 0x11 then some (counts64 (getPort p d).counts 0 10)
      else if sub = 0x12 then some (counts64 (getPort p d).fec 0 20)
      else none
    else if 0x4010 ≤ idx ∧ idx ≤ 0x4018 then some (laneBytes (idx - 0x4010) (sub - 1) d)
    else if 0x5000 ≤ idx ∧ idx ≤ 0x53FF then
      let t := idx - 0x5000
      if sub = 2 then some (leBytes 1 (runCode (getRun t d).state)) else if sub = 0x60 then some (runCountBytes t d) else none
    else none

/-- The value that an entry which is not streamed reads. Entries that hold no value read 0. -/
def entryBytes (idx sub : Nat) (d : Dev) : Bytes :=
  if sub = 0 then leBytes 1 (highestSub idx)
  else
    match lowEntry idx sub d, midEntry idx sub d, highEntry idx sub d with
    | some b, _, _ => b
    | _, some b, _ => b
    | _, _, some b => b
    | none, none, none =>
      match entryOf idx sub with
      | some r => leBytes r.len (dictGet idx sub d)
      | none => []

/-- A piece of an event ring of `n` slots (R400): an unwritten slot reads 32 zero bytes. -/
def ringPiece (m : Table Event) (written n off len : Nat) : Bytes :=
  (List.range (len / 32)).flatMap fun i =>
    let k := off / 32 + i
    if k < written ∧ k < n then eventRecord (Sparse.get {} m k) else fillBytes 32 0

end Sys2Proof.Machine
end

