-- ==== Sys2Proof/Machine/Runs.lean ====
section
/-!
DEFINITION. A run's frames and states at a tick: what a run frame begins (R135, R304), the move to Halted (R153,
R220, R311, R369), and the teardown (R22 to R24, R188, R221).
-/
namespace Sys2Proof.Machine

/-! ## What a run frame begins -/

/-- The entry addresses of a rank context's segments. -/
def entriesOf (t ctx : Nat) (d : Dev) : Table Nat :=
  if ctx = 0 then (getRun t d).entries else ((d.twin.taken.find? fun x => x.tenant == t).map (·.entries)).getD []

/-- The segment of run frame `r` on a tile. -/
def frameSegment (t ctx r : Nat) (e : Bytes) (tile : Nat) (d : Dev) : Segment :=
  { tenant := t, ctx := ctx, rank := ctxRank t ctx d, index := entrySegment e, runFrame := r
    entry := Sparse.get 0 (entriesOf t ctx d) (tile * 65536 + entrySegment e)
    observed := bitOf (entryFlags e) 2, startedAt := 0, ended := false, slipped := false }

/-- The reads that the beginning of run frame `r` needs: its frame-table entry, and its interface program. -/
def frameReads (t ctx r : Nat) (d : Dev) : Met × Dev :=
  let c := conOf t ctx d
  match c.entryIndex r with
  | none => (.ok, d)
  | some i =>
    let e := vaRead (dieTlb 0) t ctx (c.base + c.frameTable + 16 * i) 16 d
    let p := entryProgram e.2.1
    if !e.1.done ∨ p = 0xFFFF then (e.1, e.2.2)
    else
      let h := vaRead (dieTlb 0) t ctx (c.base + c.ifOff + 16 * p) 16 e.2.2
      if !h.1.done then (h.1, h.2.2)
      else
        let b := vaRead (dieTlb 0) t ctx (c.base + c.ifOff + fieldAt h.2.1 0 8) (fieldAt h.2.1 8 4) h.2.2
        (b.1, b.2.2)

/-- What run frame `r` gives once it has been read: its segment on every tile of the mask, and its automatic chains.
The commit of the frame falls due where its records go to the twin (R319). -/
def startFrame (t ctx r : Nat) (d : Dev) : Dev :=
  let e := (frameEntryOf t ctx r d).2.1
  let d1 := if entrySegment e = 0xFFFF then d else
    (bitsSet 128 (conOf t ctx d).tileMask).foldl (fun d tile => giveSegment tile (frameSegment t ctx r e tile d) d) d
  let d2 := autoStartAll t ctx r d1
  if mirrorsCtx ctx d2 && mirrored t d2 then
    { d2 with twin.commitsDue := d2.twin.commitsDue ++ [(t, ctxRank t ctx d2, r)] }
  else d2

/-- Run frame `r` of a rank context begins, at once or when the host memory it is read from has answered. -/
def giveFrame (t ctx r : Nat) (d : Dev) : Dev :=
  let m := frameReads t ctx r d
  if m.1 = .wait then modRun t (fun x => { x with framesDue := x.framesDue ++ [(ctx, r)] }) m.2
  else if m.1.done then startFrame t ctx r (dropReads (tenantFn t d) m.2)
  else raiseMet m.1 0 t (dropReads (tenantFn t d) m.2)

/-- Frames that wait for host memory are tried again. -/
def retryFrames (d : Dev) : Dev :=
  (runTenants d).foldl (fun d t =>
    let due := (getRun t d).framesDue
    due.foldl (fun d f => if (getRun t d).running then giveFrame t f.1 f.2 d else d)
      (if due.isEmpty then d else modRun t (fun x => { x with framesDue := [] }) d)) d

/-! ## Halted -/

/-- The tiles a run can have work on. -/
def runTiles (t : Nat) (d : Dev) : List Nat :=
  (List.range 128).filter fun x => bitOf (getRun t d).con.tileMask x || (d.tiles.any fun p => p.1 == x)

/-- A run moves to Halted at this tick: words that wait for a cue are granted, queued words are discarded, cores
stop, tile and network-interface reels stop, and its collectives end. -/
def haltNow (t : Nat) (d : Dev) : Dev :=
  let d1 := (runTiles t d).foldl (fun d x => haltTile t x d) (haltGrants t d)
  let d2 := stopCollectives t (reelsHalt t (discardQueued 128 t d1))
  setRunState t .halted (modRun t (fun r => { r with haltPending := false, haltAt := none, requests := [], framesDue := [] }) d2)

/-! ## Torn down -/

/-- The instruction images of a tenant leave its tiles. -/
def dropImages (t : Nat) (d : Dev) : Dev :=
  let lo := imemBase 0 t 0
  let hi := imemBase 0 (t + 1) 0
  { d with mem.imem := d.mem.imem.filter fun c => !(decide (lo ≤ c.1) && decide (c.1 < hi))
           mem.imemErr := d.mem.imemErr.filter fun p => !(decide (lo ≤ p.1 * 8) && decide (p.1 * 8 < hi)) }

/-- The subindices of a tenant that a teardown returns to their defaults: every writable one but 0x30 (R399). -/
def tenantSubs : List Nat :=
  [0x01, 0x03, 0x04] ++ (List.range 6).map (0x08 + ·) ++ [0x10] ++ (List.range 16).map (0x20 + ·) ++
  (List.range 5).map (0x31 + ·) ++ [0x38] ++ (List.range 32).map (0x40 + ·)

/-- A tenant's entries return to their defaults, and the twin is told. What is staged for the tenant, in a frozen
set too, is discarded. -/
def dropEntries (t : Nat) (d : Dev) : Dev :=
  let i := 0x5000 + t
  tenantSubs.foldl (fun d s =>
    if (Sparse.get none d.mgmt.dict (entryKey i s)).isNone then d
    else mirrorValue t i s ((entryOf i s).elim 0 (·.len)) (entryDefault i s) (dictClear i s d))
    { d with mgmt.shadow := d.mgmt.shadow.filter fun p => p.1 / 256 != i
             twin.seeds := d.twin.seeds.filter fun x => !(x.tenant == t && x.target != 2) }

/-- What is left of a run after its teardown: the counts of 0x60, which the next creation clears (R399). -/
def runCounts (r : Run) : Run :=
  { onTime := r.onTime, late := r.late, droppedResults := r.droppedResults, substituted := r.substituted
    discardedLate := r.discardedLate, accepted := r.accepted, quarantined := r.quarantined, skipped := r.skipped
    switches := r.switches }

/-- A run is torn down and its context released. With `writes` false no final completion word reaches the host. -/
def teardownNow (t : Nat) (writes : Bool) (d : Dev) : Dev :=
  let d1 := reelsTeardown t writes d
  let d2 := (runTiles t d1).foldl (fun d x => releaseTile t x d) d1
  let d3 := abandonTile 129 t (abandonTile 128 t d2)
  let d4 := dropCues t (closeAccount t (dropRemote t (abortTracked t d3)))
  let d5 := clearPool t (dropRequests t (stopCollectives t (rankDrop t d4)))
  let d6 := dropCached t 0 (2 ^ 48) (dropImages t (obsTeardown t d5))
  let d7 := { d6 with
    net.local_ := d6.net.local_.filter fun p => p.tenant != t
    coll.insts := d6.coll.insts.filter fun x => x.tenant != t
    coll.chains := d6.coll.chains.filter fun x => x.tenant != t
    twin.taken := d6.twin.taken.filter fun x => x.tenant != t
    twin.commitsDue := d6.twin.commitsDue.filter fun c => c.1 != t }
  dropEntries t (mirrorRun t (setRun t (runCounts (getRun t d7)) d7))

/-- The context of tenant `t` comes to be: the run is Created and its counts start at 0 (R340, R399). -/
def createRun (t : Nat) (d : Dev) : Dev :=
  if (getRun t d).state = .none then setRunState t .created (setRun t {} d) else d

end Sys2Proof.Machine
end

