-- ==== Sys2Proof/Machine/Checks.lean ====
section
/-!
DEFINITION. What a write of a dictionary entry may hold and when it is refused (chapters 2 to 18): the reserved
parts that are dropped, the listed ranges (abort 0x06), the conditions at the write (abort 0x0A), and the
conditions of a commit (R388, Table 2.9 and the entries' own chapters).
-/
namespace Sys2Proof.Machine

/-! ## Reserved parts -/

/-- The named fields of a value, as low bit and width; the rest reads 0. -/
def keepFields (v : Nat) (l : List (Nat × Nat)) : Nat := l.foldl (fun n f => n + bitsOf v f.1 f.2 * 2 ^ f.1) 0

/-- 288 bytes of 0xFF: an empty lane plan (R403). -/
def noPlan : Nat := 2 ^ 2304 - 1

/-- A lane plan without the reserved bytes of its port entries (Table 12.8). -/
def keptPlan (v : Nat) : Nat :=
  if v = noPlan then v else keepFields v ((List.range 9).flatMap fun p => [(256 * p, 16), (256 * p + 64, 192)])

/-- A tenant's value without its reserved fields. -/
def keptTenant (sub v : Nat) : Nat :=
  if 0x20 ≤ sub ∧ sub < 0x30 then keepFields v [(0, 48), (64, 40)]
  else if sub = 0x38 then keepFields v [(0, 176), (192, 2)]
  else if 0x40 ≤ sub ∧ sub < 0x50 then
    keepFields v [(0, 3), (8, 8), (16, 7), (32, 46), (80, 184), (272, 16), (320, 128)]
  else if 0x50 ≤ sub ∧ sub < 0x60 then keepFields v [(0, 18), (32, 176), (208, 14), (223, 15), (239, 1)]
  else v

/-- What of a written value an entry keeps: its reserved fields are ignored (R8). -/
def keptValue (idx sub v : Nat) : Nat :=
  if idx = 0x2000 ∧ sub = 6 then v % 2 ^ 9
  else if idx = 0x2440 ∨ idx = 0x2441 then keepFields v [(0, 10), (16, 74), (96, 48)]
  else if idx = 0x4040 then keptPlan v
  else if idx = 0x4800 ∧ sub ≤ 2 then v % 2 ^ 18
  else if idx = 0x4801 ∨ idx = 0x4802 then
    if sub = 2 then v % 2 ^ 18 else if 0x10 ≤ sub then v % 2 ^ 37 else v
  else if 0x4A00 ≤ idx ∧ idx ≤ 0x4A1F then keepFields v [(0, 138), (143, 1)]
  else if 0x5000 ≤ idx ∧ idx ≤ 0x53FF then keptTenant sub v
  else v

/-! ## Listed ranges: abort 0x06 -/

/-- The value an entry will have once what is staged has been applied. -/
def wanted (idx sub : Nat) (d : Dev) : Nat :=
  (Sparse.get none d.mgmt.shadow (entryKey idx sub)).getD (dictGet idx sub d)

def within (lo hi v : Nat) : Bool := decide (lo ≤ v) && decide (v ≤ hi)
def multipleOf (n v : Nat) : Bool := decide (v % n = 0)
/-- A virtual address of 48 bits, aligned. -/
def alignedVa (n v : Nat) : Bool := multipleOf n v && decide (v < 2 ^ 48)

/-- Table 12.8, a port entry: the windows that are counted have START < END ≤ P. -/
def planPortGood (v : Nat) (d : Dev) : Bool :=
  decide (bitsOf v 0 8 ≤ 1) && decide (bitsOf v 8 8 ≤ 3) &&
  (List.range (bitsOf v 8 8)).all fun i =>
    decide (bitsOf v (64 + 64 * i) 32 < bitsOf v (96 + 64 * i) 32) &&
    decide (bitsOf v (96 + 64 * i) 32 ≤ framePeriod d / tNs)
def planGood (v : Nat) (d : Dev) : Bool :=
  v == noPlan || (List.range 9).all fun p => planPortGood (bitsOf v (256 * p) 256) d

/-- A multicast group that is enabled names some value of every dimension, and none beyond its size. -/
def groupGood (v : Nat) (d : Dev) : Bool :=
  !bitOf v 143 || (List.range 4).all fun k =>
    decide (maskOf v k ≠ 0) && decide (maskOf v k < 2 ^ dimSize k d)

/-- A collector stream that is enabled (Table 3.7, R341): its class is its tenant's and its consumed counter the
tenant's. -/
def streamGood (die v : Nat) (d : Dev) : Bool :=
  !stEnable v ||
  (decide (stClass v ≤ 2) && within 1 128 (stMax v) && within 1 100000 (stHold v) &&
    decide (stTile v / 64 = die) && decide (stRelease v < 48) && within 2 16 (stSlots v) &&
    multipleOf 64 (stRing v) && decide (stConsumed v < 16384) &&
    decide (tenantGet (stTenant v) 0x03 d = stClass v) &&
    bitOf (tenantGet (stTenant v) 0x30 d) (stConsumed v / 16))

/-- A footprint (Table 14.5); all 0 declares none. -/
def footprintGood (v : Nat) : Bool :=
  v == 0 || (decide (bitsOf v 0 16 < bitsOf v 16 16) && decide (bitsOf v 16 16 ≤ 96) &&
    decide (bitsOf v 64 16 ≤ 64) && decide (bitsOf v 80 16 ≤ 64))

/-- A deadline stream that is enabled (Table 15.5). -/
def deadlineGood (v : Nat) : Bool :=
  !bitOf v 0 ||
  (decide (dlPolicy v ≤ 2) && within 1000 1000000000 (dlLimit v) && within 2 4096 (dlSlots v) &&
    multipleOf 64 (dlSlotB v) && within 128 1048576 (dlSlotB v) && alignedVa 64 (dlRing v) &&
    alignedVa 64 (dlDelivery v) && within 4 16 (dlLog v) && alignedVa 8 (dlCount v) &&
    decide (dlGood v < 2 ^ 48) && (dlPolicy v == 2 || dlGood v == 0))

/-- An ingest stream that is enabled (Table 15.7). -/
def ingestGood (v : Nat) : Bool :=
  !bitOf v 16 || (alignedVa 64 (bitsOf v 64 64) && alignedVa 64 (bitsOf v 128 64))

/-- A tenant's value lies in its listed range (Tables 15.1, 11.8, R169, R179, R405). -/
def tenantGood (sub v : Nat) : Bool :=
  if sub = 0x01 then within 1 2 v
  else if sub = 0x03 then decide (v ≤ 2)
  else if sub = 0x06 then decide (bitsOf v 64 8 ≤ 5) && decide (bitsOf v 72 8 ≤ 1)
  else if sub = 0x09 then decide (bitsOf v 0 8 ≤ bitsOf v 8 8)
  else if sub = 0x0C then within 1 64 v
  else if sub = 0x0D then alignedVa 65536 v
  else if sub = 0x10 then multipleOf 131072 v && decide (v < hbmEnd)
  else if 0x20 ≤ sub ∧ sub < 0x30 then multipleOf unitSize (bitsOf v 0 48) && decide (bitsOf v 96 8 ≤ 1)
  else if sub = 0x31 then decide (v < 4096) || v == 0xFFFF
  else if sub = 0x32 then alignedVa 64 v
  else if sub = 0x33 then within 1 16384 v
  else if sub = 0x34 then within 200 100000 v
  else if sub = 0x35 then within 1 1000 v
  else if sub = 0x38 then footprintGood v
  else if 0x40 ≤ sub ∧ sub < 0x50 then deadlineGood v
  else if 0x50 ≤ sub ∧ sub < 0x60 then ingestGood v
  else true

/-- A port's value lies in its range (Table 12.7). -/
def portGood (p sub v : Nat) (d : Dev) : Bool :=
  match sub with
  | 1 => decide (v ≤ 1) && (v == 0 || p == 8 || decide (1 < dimSize (p / 2) d))
  | 2 => v == 1
  | 4 => if isOptical p then decide (2 ^ 32 - 3500 ≤ v) && decide (v ≤ 2 ^ 32 - 500) else within 500 20000 v
  | 5 => within 10 10000 v
  | 6 => within 1 8 v
  | 7 => decide (v ≤ 1)
  | 8 => within 400 1000 v
  | _ => true

/-- A value of the identity, lease and clock areas lies in its range (Tables 17.4, 17.6, 18.3, 2.10). -/
def lowGood (idx sub v : Nat) : Bool :=
  if idx = 0x1010 then sub != 2 || within 1 3 v
  else if idx = 0x1100 then within 1 5 v
  else if idx = 0x1200 then decide (v ≤ if sub = 2 then 7 else 31)
  else if idx = 0x1400 then (if sub = 1 then decide (bitsOf v 64 32 ≤ 600000) else v == 1)
  else if idx = 0x2000 then
    match sub with
    | 1 => within 5 12 v
    | 2 => decide (v ≤ 2)
    | 4 => within 2 4096 v
    | 5 => decide (v ≤ 8) || v == 0xFF
    | 7 => decide (v ≤ 8)
    | _ => true
  else if idx = 0x2001 then decide (v ≤ 5)
  else true

/-- A value of the memory and power areas lies in its range (Tables 7.10, 16.4). -/
def middleGood (idx sub v : Nat) : Bool :=
  if idx = 0x2801 then decide (v ≤ 1)
  else if idx = 0x2802 then within 1 168 v
  else if idx = 0x3000 then
    match sub with
    | 1 => within 600 1500 v
    | 2 => within 200 600 v
    | 3 => within 85 102 v
    | 4 => within 90 104 v
    | _ => within 16 1024 v
  else true

/-- A value of the twin, transport, observation and diagnostic areas lies in its range (Tables 14.1, 17.6, 18.14,
18.15). An error injection names no reserved target and no fenced unit (R402). -/
def highGood (idx sub v : Nat) (d : Dev) : Bool :=
  if idx = 0x6000 then
    match sub with
    | 1 => decide (v < 2 ^ 18) || v == 0xFFFFFFFF
    | 3 => within 64 4096 v
    | 4 => within 10 90 v
    | 5 => within 100 10000 v
    | _ => decide (v ≤ 1)
  else if idx = 0x6800 then
    match sub with
    | 1 => decide (v ≤ 1)
    | 2 => decide (v ≤ 31)
    | 3 => within 1 32 v
    | 4 => decide (v ≤ 1)
    | _ => within 1 255 v
  else if idx = 0x6801 then decide (v ≤ 1)
  else if idx = 0x6803 then decide (v ≤ 2)
  else if idx = 0x7800 then (if sub = 1 then within 8 20 v else sub != 4 || decide (v ≤ 1))
  else if idx = 0x8000 then v == 1
  else if idx = 0xF000 then multipleOf 64 v && decide (v < 2 ^ 40)
  else if idx = 0xF001 then
    let unit := bitsOf v 8 4
    within 1 3 (bitsOf v 0 4) && decide (bitsOf v 5 3 = 0) && decide (v < 2 ^ 12) &&
    (bitsOf v 0 4 != 2 || decide (unit ≤ 8)) && (bitsOf v 0 4 != 3 || (decide (unit < 4) && !bitOf d.coll.fence unit))
  else true

/-- Whether a value, its reserved fields dropped, lies in the entry's listed range (Table 17.3 step 8). -/
def valueGood (idx sub v : Nat) (d : Dev) : Bool :=
  if idx < 0x2440 then lowGood idx sub v
  else if idx ≤ 0x2441 then streamGood (idx - 0x2440) v d
  else if idx < 0x4000 then middleGood idx sub v
  else if idx ≤ 0x4008 then portGood (idx - 0x4000) sub v d
  else if idx = 0x4040 then planGood v d
  else if idx = 0x4800 then sub != 3 || decide (v ≤ 1)
  else if idx = 0x4807 then
    (List.range (if sub = 1 then 2 else 3)).all fun i => decide (1 ≤ bitsOf v (8 * i) 8)
  else if idx < 0x4A00 then true
  else if idx < 0x5000 then groupGood v d
  else if idx ≤ 0x53FF then tenantGood sub v
  else highGood idx sub v d

/-! ## Conditions at the write: abort 0x0A (Table 17.3 step 11) -/

/-- The subindices marked (P) in Table 15.1. -/
def isPartition (sub : Nat) : Bool := [0x03, 0x04, 0x08, 0x09, 0x0A, 0x0D].contains sub

/-- A tenant's entry that its run's state does not let be written. -/
def tenantBusy (t sub v : Nat) (d : Dev) : Bool :=
  let st := (getRun t d).state
  if isPartition sub then st != .none && st != .created
  else if sub = 0x01 then (if v = 1 then st != .none else st == .none)
  else if sub = 0x05 ∨ sub = 0x06 then st != .running
  else if sub = 0x10 then st == .running
  else if sub = 0x30 then st != .none && st != .created
  else if sub = 0x32 then st == .armed || st == .running
  else false

/-- An entry that the state of its unit does not let be written: a tenant's, or a bank's that is not idle (R243). -/
def entryBusy (idx sub v : Nat) (d : Dev) : Bool :=
  if 0x5000 ≤ idx ∧ idx ≤ 0x53FF then tenantBusy (idx - 0x5000) sub v d
  else if idx = 0x4801 ∨ idx = 0x4802 then bankState (idx - 0x4801) d != 0
  else false

/-- Bytes of the values staged. -/
def shadowBytes (d : Dev) : Nat :=
  d.mgmt.shadow.foldl (fun n p => n + (entryOf (p.1 / 256) (p.1 % 256)).elim 0 (·.len)) 0

/-- Whether one more entry would overfill the shadow set: 256 entries, 64 KiB of values. -/
def shadowFull (idx sub len : Nat) (d : Dev) : Bool :=
  (Sparse.get none d.mgmt.shadow (entryKey idx sub)).isNone &&
    (decide (256 ≤ d.mgmt.shadow.length) || decide (65536 < shadowBytes d + len))

/-! ## Conditions of a commit (R388) -/

/-- Whether some run is Armed or Running (Table 2.9). -/
def anyLive (d : Dev) : Bool := d.runs.any fun p => p.2.state == .armed || p.2.running

/-- Whether some run with mirrored regions is Armed or Running (Table 14.1). -/
def mirroredLive (d : Dev) : Bool := d.runs.any fun p => (p.2.state == .armed || p.2.running) && mirrored p.1 d

/-- Whether a run holds a loaded container. -/
def Run.loaded (r : Run) : Bool := r.state == .loaded || r.live

/-- Table 2.9 and R345: an operating point every Running run and every windowed run can keep. -/
def oppAllowed (v : Nat) (d : Dev) : Bool :=
  d.runs.all fun p =>
    (!p.2.running || decide (oppMHz p.2.con.opp ≤ p.2.factor * oppMHz v)) &&
    (!(p.2.loaded && windowed p.1 d) || decide (p.2.con.opp ≤ v))

/-- Whether an Armed run starts at tick `n`: the first at or after its start frame. In rejoin mode it waits for the
release of its rank (R333, R335). -/
def startsAt (r : Run) (n : Nat) (d : Dev) : Bool :=
  r.state == .armed && decide (r.con.start ≤ n) && dictGet 0x6000 6 d == 0

/-- The run frame of a run that the next tick lies in, if one does. -/
def nextRunFrame (r : Run) (n : Nat) (d : Dev) : Option Nat :=
  if r.running then some (if r.spanLeft ≤ 1 then r.index + 1 else r.index)
  else if startsAt r n d then some 0
  else none

/-- Whether tick `n`, the next one, is a splice point of every run: the frame entry that governs it has the flag. A
run with no entry there takes no part. -/
def splicePoint (n : Nat) (d : Dev) : Bool :=
  d.runs.all fun p =>
    match nextRunFrame p.2 n d with
    | none => true
    | some r =>
      let e := frameEntry p.1 r d
      e.1.done && (e.2.1.isEmpty || bitOf (entryFlags e.2.1) 1)

/-- The groups of the masks of every tenant but `t`. -/
def othersGroups (t : Nat) (d : Dev) : Nat :=
  ((tenantsWith 0x0A d).filter (· != t)).foldl (fun n u => n ||| tenantGet u 0x0A d) 0

/-- The pools of every class but `c`. -/
def otherPools (c : Nat) (d : Dev) : Nat :=
  ([0, 1, 2].filter (· != c)).foldl (fun n i => n ||| dictGet 0x2804 (i + 1) d) 0

/-- R342 of a tenant's mask: each group is exclusive or in the pool of the class, and none in the store. -/
def groupsAllowed (t c mask : Nat) (d : Dev) : Bool :=
  let mine := dictGet 0x2804 (c + 1) d
  decide (mask &&& dictGet 0x2800 1 d = 0) && decide (mask &&& otherPools c d = 0) &&
  decide (mask &&& (othersGroups t d &&& (2 ^ 64 - 1 - mine)) = 0)

/-- R342 of a pool: the code that refuses it, 0 for none. -/
def poolRefusal (c v : Nat) (d : Dev) : Nat :=
  let ts := tenantsWith 0x0A d
  let anyPool := [1, 2, 3].foldl (fun n s => n ||| dictGet 0x2804 s d) 0
  let held := ts.foldl (fun n t => n ||| tenantGet t 0x0A d) 0
  let classHeld := (ts.filter fun t => tenantGet t 3 d == c).foldl (fun n t => n ||| tenantGet t 0x0A d) 0
  let dropped := dictGet 0x2804 (c + 1) d &&& (2 ^ 64 - 1 - v)
  if v &&& otherPools c d ≠ 0 ∨ v &&& dictGet 0x2800 1 d ≠ 0 ∨ v &&& (held &&& (2 ^ 64 - 1 - anyPool)) ≠ 0 then 0x06
  else if dropped &&& classHeld ≠ 0 then 0x0A
  else 0

/-- The groups of the store in which a copy lies. -/
def copyGroups (d : Dev) : Nat :=
  d.twin.extents.foldl (fun n e =>
    (List.range 64).foldl (fun n g =>
      if !bitOf n g && decide (e.unit * unitSize < (g + 1) * 0x120000000) && decide (g * 0x120000000 < (e.unit + e.units) * unitSize)
      then n + 2 ^ g else n) n) 0

/-- R177 of the store's mask. -/
def storeAllowed (v : Nat) (d : Dev) : Bool :=
  decide (popCount v 64 ≤ 32) && decide (v &&& partitionGroups d = 0) && decide (copyGroups d &&& (2 ^ 64 - 1 - v) = 0)

/-- R344: no other tenant whose mask shares a tile has an overlapping window. -/
def windowsApart (t mask window : Nat) (d : Dev) : Bool :=
  ((tenantsWith 0x08 d).filter (· != t)).all fun u =>
    decide (mask &&& tenantGet u 0x08 d = 0) ||
      (let w := windowOf u d
       decide (bitsOf window 8 8 + 1 ≤ w.1) || decide (w.2 ≤ bitsOf window 0 8))

/-- R187: no block of the bitmap is another tenant's. -/
def blocksFree (t v : Nat) (d : Dev) : Bool :=
  d.ctr.blockOwner.all fun p => p.2 == t + 1 || !bitOf v p.1

/-- R252: the limits of every tenant that holds a context, `t` among them with limit `v`. -/
def limitsFit (t v : Nat) (d : Dev) : Bool :=
  decide (((runTenants d).filter (· != t)).foldl (fun n u => n + tenantGet u 0x33 d) v ≤ 16384)

/-- Whether two footprints share a resource (Table 14.5). -/
def footprintsMeet (a b : Nat) : Bool :=
  let meet (lo1 hi1 lo2 hi2 : Nat) : Bool := decide (max lo1 lo2 < min hi1 hi2)
  let range (o : Nat) : Bool := meet (bitsOf a o 16) (bitsOf a (o + 16) 16) (bitsOf b o 16) (bitsOf b (o + 16) 16)
  range 0 || range 64 ||
  meet (bitsOf a 32 16) (bitsOf a 32 16 + bitsOf a 48 16) (bitsOf b 32 16) (bitsOf b 32 16 + bitsOf b 48 16) ||
  decide (bitsOf a 96 32 &&& bitsOf b 96 32 ≠ 0) || decide (bitsOf a 128 48 &&& bitsOf b 128 48 ≠ 0) ||
  decide (bitsOf a 192 2 &&& bitsOf b 192 2 ≠ 0)

/-- The units of every region declared on the device. -/
def allUnits (d : Dev) : Nat :=
  (((List.range 16).flatMap fun i => tenantsWith (0x20 + i) d).eraseDups).foldl
    (fun n t => (regions t d).foldl (fun n g => n + g.units) n) 0

/-- R179 of a region: it overlaps none of the tenant's, the device's total keeps to 144 GiB, every page is device
memory that can be written, the twin holds a run of the tenant and the space, and the footprints are apart.
`d0` is the device before the commit. -/
def regionAllowed (t i v : Nat) (d0 d : Dev) : Bool :=
  match regionOf i v with
  | none => true
  | some g =>
    let d1 := dictPut (0x5000 + t) (0x20 + i) v d
    let others := (regions t d).filter fun x => x.index != i
    let page (n : Nat) : Bool := match (walk t (g.base + 65536 * n) true d).1 with
      | .dev _ => true
      | _ => false
    (others.all fun x => decide (x.base + x.units * unitSize ≤ g.base) || decide (g.base + g.units * unitSize ≤ x.base)) &&
    decide (allUnits d1 ≤ 73728) && decide (partnerGet (0x5000 + t) 2 d ≠ 0) &&
    decide (allUnits d1 ≤ allUnits d0 + partnerGet 0x2800 2 d) &&
    !footprintsMeet (tenantGet t 0x38 d) (partnerGet (0x5000 + t) 0x38 d) &&
    (List.range (32 * g.units)).all page

/-- R350 of a deadline stream: an urgent tenant, its own counter, and for a linked one a stream of its own that the
same commit enables. -/
def deadlineAllowed (t v : Nat) (d0 d : Dev) : Bool :=
  !bitOf v 0 ||
  (tenantGet t 3 d == 2 && ownsPool t (dlCounter v) d &&
    (!dlLinked v || (stEnable (streamRec (dlLink v) d) && stTenant (streamRec (dlLink v) d) == t &&
      !stEnable (streamRec (dlLink v) d0))))

/-- R354 of an ingest stream: its counters are the tenant's and its ID is no other enabled stream's. -/
def ingestAllowed (t s v : Nat) (d : Dev) : Bool :=
  let counter (f : Nat) : Bool := !bitOf f 15 || ownsPool t (bitsOf f 0 14) d
  !bitOf v 16 || (counter (bitsOf v 208 16) && counter (bitsOf v 224 16) &&
    ((List.range 16).all fun j => j == s || !bitOf (tenantGet t (0x50 + j) d) 16 ||
      bitsOf (tenantGet t (0x50 + j) d) 0 16 != bitsOf v 0 16))

/-- What refuses a tenant's entry in a commit: a code, 0 for none. -/
def tenantRefusal (t sub v : Nat) (d0 d : Dev) : Nat :=
  let need (b : Bool) : Nat := if b then 0 else 0x06
  if tenantBusy t sub v d then 0x0A
  else if sub = 0x01 then (if v = 1 then need (limitsFit t (tenantGet t 0x33 d) d) else 0)
  else if sub = 0x03 then need (groupsAllowed t v (tenantGet t 0x0A d) d)
  else if sub = 0x08 then need (windowsApart t v (tenantGet t 0x09 d) d)
  else if sub = 0x09 then need (windowsApart t (tenantGet t 0x08 d) v d)
  else if sub = 0x0A then need (groupsAllowed t (tenantGet t 3 d) v d)
  else if 0x20 ≤ sub ∧ sub < 0x30 then need (regionAllowed t (sub - 0x20) v d0 d)
  else if sub = 0x30 then need (blocksFree t v d)
  else if sub = 0x33 then need (limitsFit t v d)
  else if 0x40 ≤ sub ∧ sub < 0x50 then need (deadlineAllowed t v d0 d)
  else if 0x50 ≤ sub ∧ sub < 0x60 then need (ingestAllowed t (sub - 0x50) v d)
  else 0

/-- What refuses an entry in a commit at tick `n`: a code, 0 for none. `d0` is the device before the commit, `d`
with the objects before this one applied (R398). -/
def entryRefusal (n idx sub v : Nat) (d0 d : Dev) : Nat :=
  let need (b : Bool) : Nat := if b then 0 else 0x06
  if 0x5000 ≤ idx ∧ idx ≤ 0x53FF then tenantRefusal (idx - 0x5000) sub v d0 d
  else if idx = 0x2000 ∧ [1, 2, 4, 5, 6].contains sub then (if anyLive d then 0x0A else 0)
  else if idx = 0x2001 then (if oppAllowed v d then 0 else 0x0A)
  else if idx = 0x2440 ∨ idx = 0x2441 then need (streamGood (idx - 0x2440) v d)
  else if idx = 0x2800 then need (storeAllowed v d)
  else if idx = 0x2801 then (if d.mem.refreshDone < 8 then 0x0A else 0)
  else if idx = 0x2804 then poolRefusal (sub - 1) v d
  else if idx = 0x3000 ∧ sub ≤ 2 then
    (if powerAllowed (if sub = 1 then v else dictGet 0x3000 1 d) (if sub = 2 then v else dictGet 0x3000 2 d) d then 0 else 0x0A)
  else if idx = 0x3000 ∧ sub ≤ 4 then need (decide (wanted 0x3000 3 d + 2 ≤ wanted 0x3000 4 d))
  else if idx = 0x4800 ∧ sub ≤ 2 then (if anyLive d then 0x0A else 0)
  else if idx = 0x4800 then (if bankState v d = 0 ∧ splicePoint n d then 0 else 0x0A)
  else if idx = 0x6000 ∧ (sub = 1 ∨ sub = 3) then (if mirroredLive d then 0x0A else 0)
  else 0

/-! ## Quiesce (Table 18.2) -/

/-- Whether an object meets its quiesce condition. A collector stream writes a batch, a seed or repair write is made
and a stack refreshes within one command, so Q2, Q3 and Q4 are met between commands. -/
def quiet (idx sub : Nat) (d : Dev) : Bool :=
  match (entryOf idx sub).elim 0 (·.q) with
  | 1 =>
    let p := idx - 0x4000
    outputEmpty p d && (getPort p d).replay.isEmpty
  | 5 =>
    let t := idx - 0x5000
    if sub < 0x50 then !(d.ctr.reports.any fun r => r.1 == dlCounter (dlRec t (sub - 0x40) d) && bitOf (dlRec t (sub - 0x40) d) 0)
    else !(d.chains.any fun c => c.tenant == t && c.flight.any fun f =>
      dKind f.desc == 2 && bitsOf (dAux f.desc) 0 16 == bitsOf (tenantGet t sub d) 0 16)
  | 6 =>
    let g := 128 * (idx - 0x4A00) + sub - 1
    !((d.net.inject ++ d.net.held).any fun p => p.mc && groupOf p == g)
  | _ => true

end Sys2Proof.Machine
end

