-- ==== Sys2Proof/Machine/Failover.lean ====
section
/-!
DEFINITION. The loss of the partner and what follows (R326 to R335): the declaration, the restore of the lost
ranks, their resumption at the alias splice, and the reintegration of a spare.
-/
namespace Sys2Proof.Machine

/-! ## Restoring a rank (R328) -/

/-- The control records of a rank: the committed ones, then those of the journal that are kept, in MSEQ order. -/
def rankControl (t rank : Nat) (d : Dev) : List MirrorRec :=
  d.twin.control.filter fun r => r.tenant == t && r.rank == rank

/-- The kept journal records of a rank are applied and its journal ends. -/
def settleJournal (t rank : Nat) (d : Dev) : Dev :=
  let mine (r : MirrorRec) : Bool := r.tenant == t && r.rank == rank
  (d.twin.journal.filter fun r => mine r && r.keep).foldl (fun d r => applyRecord r d)
    { d with twin.journal := d.twin.journal.filter fun r => !mine r }

/-- The run frame after the committed one: `index` is the run frame index last heard of. -/
def resumeFrame (t rank index : Nat) (d : Dev) : Nat :=
  match Sparse.get 0 d.twin.committed (rankKey t rank) with
  | 0 => 0
  | v + 1 => index - (index + 65536 - v % 65536) % 65536 + 1

/-- The context-area form of a tile as item-1 pieces give it; the initial state where there is none. -/
def snapshotBytes (seed tile : Nat) (l : List MirrorRec) : Bytes :=
  let mine := l.filter fun r => r.kind == 2 && r.addr == 1 && fieldAt r.data 0 1 == tile
  if mine.isEmpty then initialContext seed tile
  else (List.range 12).flatMap fun i =>
    match mine.find? fun r => fieldAt r.data 1 1 == i with
    | some r => r.data.drop 2
    | none => fillBytes 240 0

/-- A tile's registers, generator lanes and configuration of a rank context, and the local counters of its
footprint. -/
def restoreTile (t ctx tile : Nat) (b : Bytes) (d : Dev) : Dev :=
  let mask := footprintCounters t ctx d
  modTile tile (fun y =>
    let gens := (List.range 512).map fun g => (genKey ctx g, BitVec.ofNat 32 (fieldAt b (4 * g) 4))
    let cfgs := (List.range 6).map fun q =>
      let s := contextSlots.getD q (0, 0)
      (cfgKey ctx s.1 s.2, BitVec.ofNat 96 (fieldAt b (0xA80 + 16 * q) 12))
    let regs := (List.range 31).map fun i => (i + 1, BitVec.ofNat 64 (fieldAt b (0x800 + 8 * i) 8))
    let lcs := ((List.range 48).filter fun i => bitOf mask i).map fun i => (i, BitVec.ofNat 64 (fieldAt b (0x900 + 8 * i) 8))
    withCtx { y with
      gen := gens.foldl (fun m p => Sparse.set 0 m p.1 p.2) y.gen
      cfg := cfgs.foldl (fun m p => Sparse.set 0 m p.1 p.2) y.cfg
      lc := lcs.foldl (fun m p => Sparse.set 0 m p.1 p.2) y.lc } ctx
      { ctxOf y ctx with g := tableOf regs }) d

/-- The counters of a rank take the sums of its adds. -/
def restoreCounters (l : List MirrorRec) (d : Dev) : Dev :=
  (l.filter fun r => r.kind == 1).foldl (fun d r =>
    { d with ctr.pool := Sparse.set 0 d.ctr.pool r.addr (BitVec.ofNat 64 (fieldAt r.data 0 8)) }) d

/-- The open instances of a rank, from its arrival records. -/
def restoreInstances (t rank : Nat) (l : List MirrorRec) (d : Dev) : Dev :=
  (l.filter fun r => r.kind == 2 && r.addr == 2).foldl (fun d r =>
    let b := r.data
    let x := instOrNew t rank (fieldAt b 0 2) (fieldAt b 2 2) (fieldAt b 10 4) d
    let n := fieldAt b 4 2
    putInst (if n = 0 then { x with heard := x.heard ++ [fieldAt b 6 4] }
             else { x with arrived := addRange x.arrived (fieldAt b 6 4, n) }) d) d

/-- The blocks of the lost rank's counters are allocated without R187's refusals. -/
def takeBlocks (t bitmap : Nat) (d : Dev) : Dev :=
  { d with ctr.blockOwner := (bitsSet 1024 bitmap).foldl (fun m j => Sparse.set 0 m j (t + 1)) d.ctr.blockOwner }

/-- The settings of tenant `t` as the partner told them. -/
def lostGet (t sub : Nat) (d : Dev) : Nat := partnerGet (0x5000 + t) sub d

/-- One lost rank is restored into rank context 1: memory in the store, control state, counters, images. -/
def restoreRank (t : Nat) (d0 : Dev) : Dev :=
  let rank := lostGet t itemRank d0
  let d1 := settleJournal t rank d0
  let l := rankControl t rank d1
  let base := lostGet t itemContainer d1
  let h := vaRead (dieTlb 0) t 1 base 256 d1
  let c := parseContainer base h.2.1
  let p := readParts t 1 c h.2.2
  let d2 := { p.2.2 with twin.taken := p.2.2.twin.taken ++ [{
    tenant := t, rank := rank, first := resumeFrame t rank (lostGet t itemIndex d1) d1, con := c
    entries := segmentEntries p.2.1, resumed := false }] }
  let d3 := restoreInstances t rank l (restoreCounters l (takeBlocks t (lostGet t 0x30 d2) d2))
  loadImages t 1 p.2.1 ((bitsSet 128 c.tileMask).foldl (fun d x => restoreTile t 1 x (snapshotBytes (lostGet t 4 d) x l) d) d3)

/-! ## The declaration (R326) -/

/-- Whether a tick declares the partner lost. -/
def lossDeclared (d : Dev) : Bool :=
  (d.twin.state == 2 || d.twin.state == 3 || d.twin.state == 6) &&
  (decide (3 ≤ d.twin.missed) ||
   (d.twin.downAtTick && (Sparse.get {} d.ports 8).state == 4 && d.twin.probeFailed) || d.twin.partnerFatal)

/-- Whether a run has a region that is not yet protected, here or at the partner. -/
def unseeded (t : Nat) (d : Dev) : Bool :=
  d.twin.seeds.any fun x => x.tenant == t && (x.target == 0 || x.target == 2) && !x.protected_

/-- The tenants whose rank on the partner is lost: Armed or Running there, with regions. -/
def lostTenants (d : Dev) : List Nat :=
  (runTenants d).filter fun t => (lostGet t 2 d == 3 || lostGet t 2 d == 4) && !(partnerRegions t d).isEmpty

/-- TWIN_LOST, the restore and FAILOVER_SPLICE. A run with a region that is not protected is halted in place of a
restore (TWIN_LOSS_UNSEEDED). The loss of a spare leaves the survivor in FAILOVER. -/
def declareLoss (d : Dev) : Dev :=
  let d1 := raise 4 evTwinLost (srcPort 8) d
  if d.twin.state = 6 then { (closeStream 5 d1) with twin.reintegrateAt := none, twin.sentBeat := none }
  else
    let lost := lostTenants d1
    let open_ := (runTenants d1).filter fun t => unseeded t d1 && (mirrored t d1 || lost.contains t)
    let from_ := dictGet 0x6000 1 d1
    let d2 := closeStream 5 { d1 with twin.failedFrom := from_, twin.sentBeat := none }
    let d3 := open_.foldl (fun d t => faultRun 2 evTwinLossUnseeded (srcPort 8) t d) d2
    let d4 := (lost.filter fun t => !open_.contains t).foldl (fun d t => restoreRank t d) d3
    raise 4 evFailoverSplice (srcPort 8) d4 (from_ % 2 ^ 18 + ownCoord d4 * 2 ^ 18)

/-- The start of a tick for the pair: a loss is declared, and the notes of the ended frame are dropped. -/
def twinTick (d : Dev) : Dev :=
  let d1 := if lossDeclared d then declareLoss d else d
  { d1 with twin.partnerFatal := false, twin.fullRaised := false
            twin.downAtTick := (Sparse.get {} d1.ports 8).state == 4 }

/-! ## The alias: deposed, or the lost rank resumes (R327, R329) -/

/-- Where the active bank's alias sends a coordinate, if it has one. -/
def aliasTo (c : Nat) (d : Dev) : Option Nat :=
  ((List.range 16).map fun i => dictGet (0x4801 + epoch d) (0x10 + i) d).findSome? fun a =>
    if bitOf a 36 && bitsOf a 0 18 == c then some (bitsOf a 18 18) else none

/-- TWIN_DEPOSED: this device's own coordinate is an alias FROM: every run halts at this tick. -/
def deposeTick (d : Dev) : Dev :=
  if (aliasTo (ownCoord d) d).isSome then
    if d.twin.deposed then d
    else
      ((runTenants d).filter fun t => (getRun t d).running).foldl
        (fun d t => haltNow t (faultRun 2 evTwinDeposed (srcPort 8) t d)) { d with twin.deposed := true }
  else { d with twin.deposed := false }

/-- A taken-over rank resumes at its committed frame + 1; the hold becomes a stretch of 2 (R329). -/
def resumeTaken (x : TakenOver) (d : Dev) : Dev :=
  let t := x.tenant
  let r := getRun t d
  let d1 := { d with twin.taken := d.twin.taken.map fun y => if y.tenant = t then { y with resumed := true } else y }
  let d2 := if r.running then
      (List.range (r.index + 1 - x.first)).foldl (fun d i => giveFrame t 1 (x.first + i) d) d1
    else d1
  requestStretch t 2 1 false (d.clk.frame + r.con.notice) d2

/-- At n_S, the tick at which the alias of the lost coordinate to this one is in force. -/
def resumeTick (d : Dev) : Dev :=
  if (d.twin.state = 5 ∨ d.twin.state = 6) ∧ aliasTo d.twin.failedFrom d = some (ownCoord d) then
    (d.twin.taken.filter fun x => !x.resumed).foldl (fun d x => resumeTaken x d) d
  else d

/-! ## Reintegration (R334, R335) -/

/-- Whether tick `n` begins a run frame of tenant `t` whose entry has flag [0], the present factor lasting. -/
def pointAt (t n : Nat) (d : Dev) : Bool :=
  let r := getRun t d
  let next := d.clk.frame + max 1 r.spanLeft
  r.running && decide (next ≤ n) && decide ((n - next) % max 1 r.factor = 0) &&
    (let e := frameEntry t (r.index + 1 + (n - next) / max 1 r.factor) d
     e.1.done && bitOf (entryFlags e.2.1) 0)

/-- REINTEGRATE_READY once every seed is committed: n_R is the first tick at least 16 frames later at which every
moved run begins a run frame flagged for it. The search goes 1,024 frames ahead at each tick. -/
def readyTick (d : Dev) : Dev :=
  if d.twin.state = 6 ∧ d.twin.reintegrateAt = none ∧ d.twin.taken ≠ [] ∧
      (d.twin.seeds.all fun x => x.target == 2 || x.target == 4 || x.protected_) then
    match ((List.range 1024).map (d.clk.frame + 16 + ·)).find? fun n => d.twin.taken.all fun x => pointAt x.tenant n d with
    | none => d
    | some n =>
      d.twin.taken.foldl (fun d x => requestStretch x.tenant 2 0 true n d)
        (raise 4 evReintegrateReady (srcPort 8) { d with twin.reintegrateAt := some n } n)
  else d

/-- A rank context 1 of a tile ends: its words, its segment and its registers. -/
def dropContext (t tile : Nat) (d : Dev) : Dev :=
  let d1 := if (getTile tile d).runCtx = 1 then swapCtx tile d else d
  let d2 := dropWatch (otherWaiter tile) (abandonWords tile (fun q => q.tenant == t && q.ctx == 1) d1)
  modTile tile (fun x => { x with other := {}, windowSegs := x.windowSegs.filter fun g => !(g.tenant == t && g.ctx == 1) })
    { d2 with chains := d2.chains.filter fun x => !(x.tile == tile && x.tenant == t && x.ctx == 1) }

/-- At n_R the taken-over context stops, its tracked entries complete with ABORTED, and the release follows its
last records. -/
def handOver (x : TakenOver) (d : Dev) : Dev :=
  let d1 := (bitsSet 128 x.con.tileMask).foldl (fun d tile => dropContext x.tenant tile d) d
  let d2 := abortEntries (fun e => e.tenant == x.tenant && e.srank == x.rank) d1
  let mine (t rank : Nat) : Bool := t == x.tenant && rank == x.rank
  let d3 := { d2 with
    coll.chains := d2.coll.chains.filter fun c => !mine c.tenant c.rank
    coll.insts := d2.coll.insts.filter fun c => !mine c.tenant c.rank
    twin.taken := d2.twin.taken.filter (· != x) }
  mirrorSend { kind := 10, tenant := x.tenant, rank := x.rank } d3

/-- REINTEGRATION_HANDOVER at n_R. -/
def handoverTick (d : Dev) : Dev :=
  if d.twin.reintegrateAt = some d.clk.frame then
    let d1 := d.twin.taken.foldl (fun d x => handOver x d) d
    { d1 with twin.state := 2, twin.reintegrateAt := none, twin.suspect := false
              twin.seeds := d1.twin.seeds.filter fun x => x.target != 1 }
  else d

/-- MIRROR_RELEASE at the spare: the rank is restored into its own context and starts at its committed frame + 1;
the spare becomes the survivor's twin (R335). -/
def mirrorRelease (d : Dev) : Dev :=
  match nextRecord 10 d with
  | none => d
  | some (m, d0) =>
    let t := m.tenant
    let r := getRun t d0
    if r.state = .armed ∧ r.rank = m.rank then
      let d1 := settleJournal t m.rank d0
      let l := rankControl t m.rank d1
      let index := lostGet t itemIndex d1
      let first := resumeFrame t m.rank index d1
      let d2 := restoreInstances t m.rank l (restoreCounters l d1)
      let d3 := (bitsSet 128 r.con.tileMask).foldl (fun d x =>
        let b := snapshotBytes (tenantGet t 4 d) x l
        if (getTile x d).owner = t then restoreTile t 0 x b d else (vaWrite (dieTlb 0) t 0 (contextVa t x d) false (padTo 4096 b) d).2) d2
      let d4 := openStream 2 (raise 4 evReintegrated (srcPort 8) (setRunState t .running
        (modRun t (fun x => { x with index := index, spanLeft := 1 }) d3)))
      let d5 := applyStretches t d4.clk.frame d4
      let d6 := openAccount t (modRun t (fun x => { x with spanLeft := x.factor }) d5)
      (List.range (index + 1 - first)).foldl (fun d i => giveFrame t 0 (first + i) d) d6
    else d0

def execMirrorRelease (s : State) : Host.Outcome State Fault Refusal := onDev true mirrorRelease s

end Sys2Proof.Machine
end

