-- ==== Sys2Proof/Machine/Commits.lean ====
section
/-!
DEFINITION. The shadow set and its commit (chapter 17): how each entry takes effect, the evaluation, the outcome,
and the later phases of a phased object (R177, R404).
-/
namespace Sys2Proof.Machine

/-! ## How an entry takes effect -/

/-- Banks and epoch after new sizes: both banks take the default tables, bank 0 is active, the epoch is 0. -/
def defaultBanks (d : Dev) : Dev :=
  let d1 := [0x4801, 0x4802].foldl (fun d i =>
    (List.range 16).foldl (fun d k => dictClear i (0x10 + k) d)
      (dictPut i 1 (defaultDirections d) (dictPut i 2 (defaultDatelines d) d))) d
  { (dictClear 0x4800 3 d1) with net.bank0 := 1, net.bank1 := 0, net.staleRaised := false }

/-- The injection epoch switches (Table 10.10): the bank it names becomes active, the other retiring; its units
count from 0. -/
def switchEpoch (ep : Nat) (d : Dev) : Dev :=
  let d1 := setBank ep 1 (setBank (1 - ep) 2 (dictPut 0x4800 3 ep d))
  epochRefresh { d1 with
    net.injected := Sparse.set 0 d1.net.injected ep 0
    net.delivered := Sparse.set 0 d1.net.delivered ep 0
    net.round := 0, net.reports := [], net.staleRaised := false }

/-- VCORE of an operating point in mV (Table 23.5). -/
def oppMv : Nat → Nat
  | 0 => 600
  | 1 => 650
  | 2 => 700
  | 3 => 760
  | 4 => 820
  | _ => 880

/-- A new operating point: core-clock cycles go on from where they stand; VCORE is at its level (R478). -/
def setOpp (v : Nat) (d : Dev) : Dev :=
  { d with clk.ccBase := ccNow d, clk.ccAt := d.now, clk.freqMHz := oppMHz v, clk.vcoreMv := oppMv v }

/-- A new clapper role: the device is neither in holdover nor does it hold a planned tick. -/
def setRole (d : Dev) : Dev :=
  { d with
    clk.planned := [], clk.seconds := [], clk.missed := 0, clk.lost := false, clk.edges := []
    clk.edgeHold := false, clk.edgeMissing := 0, clk.edgeLocked := false, clk.phaseError := 0, clk.phase := 0 }

/-- The journal's space in the store while a twin is configured. -/
def placeJournal (d : Dev) : Dev :=
  if (twinCoord d).isSome ∧ (d.twin.extents.any fun e => e.tenant == 1024) = false then
    allocUnits 1024 0 (dictGet 0x6000 3 d) d
  else d

/-- The twin coordinate changes: none ends the pairing, another starts it; a survivor keeps what it has taken over
and pairs with the spare. -/
def setTwin (d : Dev) : Dev :=
  if (twinCoord d).isNone then
    let d1 := closeStream 0 d
    { d1 with twin.extents := [], twin.partner := [], twin.journal := [], twin.control := [], twin.committed := []
              twin.seeds := [], twin.sentBeat := none, twin.gotBeat := none }
  else if d.twin.state = 5 ∨ d.twin.state = 6 then d
  else placeJournal { (closeStream 1 d) with twin.gotBeat := none, twin.sentBeat := none }

/-- A collector stream's record changes (R69). -/
def setStream (k old : Nat) (d : Dev) : Dev :=
  let v := streamRec k d
  if stEnable old && stEnable v && stTenant old == stTenant v then d
  else
    let d1 := if stEnable old then disableStream k d else d
    if stEnable v then modStream k (fun x => { ({} : Stream) with dropped := x.dropped, rejected := x.rejected }) d1 else d1

/-- A region is declared or removed (R179, R322): a declared one is seeded while the pair mirrors. -/
def setRegion (t i : Nat) (d : Dev) : Dev :=
  let d1 := { d with twin.seeds := d.twin.seeds.filter fun x =>
    !(x.tenant == t && x.region == i && (x.target == 0 || x.target == 4)) }
  match (regions t d1).find? fun g => g.index == i with
  | some g => if mirroring d1 then startSeed t i 0 (g.units * unitSize) d1 else d1
  | none => d1

/-- A tenant's entry takes effect; the twin is told of it (Table 14.4). -/
def applyTenant (t sub v : Nat) (d : Dev) : Dev :=
  let idx := 0x5000 + t
  if sub = 0x01 then
    (if v = 1 then createRun t (mirrorValue t idx 1 1 1 (dictPut idx 1 1 d)) else teardownNow t true d)
  else
    let d1 := mirrorValue t idx sub ((entryOf idx sub).elim 0 (·.len)) v (dictPut idx sub v d)
    if 0x20 ≤ sub ∧ sub < 0x30 then setRegion t (sub - 0x20) d1
    else if sub = 0x30 then applyBlocks t v d1
    else if 0x40 ≤ sub ∧ sub < 0x50 then
      modDl t (sub - 0x40) (fun _ => if bitOf v 0 then { base := poolValue (dlCounter v) d1 } else {}) d1
    else if 0x50 ≤ sub ∧ sub < 0x60 then
      modRun t (fun r => { r with ingest := Sparse.set {} r.ingest (sub - 0x50) {} }) d1
    else d1

/-- A device-wide entry has its value; what follows from it. `old` is the value before. -/
def applyDevice (idx sub v old : Nat) (d : Dev) : Dev :=
  if idx = 0x2000 then (if sub = 2 ∧ v ≠ old then setRole d else d)
  else if idx = 0x2001 then setOpp v d
  else if idx = 0x2440 ∨ idx = 0x2441 then setStream ((idx - 0x2440) * 64 + sub - 1) old d
  else if idx = 0x2800 then tellFree (placeJournal d)
  else if idx = 0x2801 then
    { d with mem.refreshOld := old, mem.refreshDone := 1, mem.refreshAt := d.clk.ticksPlaced }
  else if idx ≤ 0x3FFF then d
  else if idx ≤ 0x4008 then (if sub = 1 then enablePort (idx - 0x4000) (v == 1) d else d)
  else if idx = 0x4800 then (if sub = 2 then defaultBanks d else d)
  else if idx = 0x6000 then
    if sub = 1 then (if v = old then d else tellFree (setTwin d))
    else if sub = 3 then
      tellFree (placeJournal { d with twin.extents := d.twin.extents.filter fun e => e.tenant != 1024 })
    else d
  else d

/-- A value in effect, written to flash where the entry is persistent (R384). The swing of an optical port has no
effect and reads 0 (Table 12.7); PL and PB are only stored until the next ready (Table 20.5). -/
def putEntry (idx sub v : Nat) (d : Dev) : Dev :=
  if sub = 8 ∧ 0x4004 ≤ idx ∧ idx ≤ 0x4007 then d
  else if idx = 0x3000 ∧ sub ≤ 2 ∧ d.boot.state ≠ 1 then persist idx sub v d
  else if (entryOf idx sub).any (·.pers) then persist idx sub v (dictPut idx sub v d)
  else dictPut idx sub v d

/-- A staged value takes effect. -/
def applyEntry (idx sub v : Nat) (d : Dev) : Dev :=
  if 0x5000 ≤ idx ∧ idx ≤ 0x53FF then applyTenant (idx - 0x5000) sub v d
  else if idx = 0x4800 ∧ sub = 3 then switchEpoch v d
  else applyDevice idx sub v (dictGet idx sub d) (putEntry idx sub v d)

/-! ## Evaluation (R388) -/

/-- One object of the set: judged against what those before it leave, then applied. What a teardown has dropped from
the set is passed over (R398). -/
def judgeObject (n : Nat) (d0 : Dev) (acc : Option (Nat × Nat × Nat) × Dev) (p : Nat × Option Nat) :
    Option (Nat × Nat × Nat) × Dev :=
  let idx := p.1 / 256
  let sub := p.1 % 256
  if acc.1.isSome || (Sparse.get none acc.2.mgmt.shadow p.1).isNone then acc
  else
    let c := entryRefusal n idx sub (p.2.getD 0) d0 acc.2
    if c = 0 then (none, applyEntry idx sub (p.2.getD 0) acc.2) else (some (c, idx, sub), acc.2)

/-- What refuses the set at tick `n`, the first in ascending order of index and subindex: code, index, subindex. -/
def setRefusal (n : Nat) (d : Dev) : Option (Nat × Nat × Nat) := (d.mgmt.shadow.foldl (judgeObject n d) (none, d)).1

/-- The first object that does not meet its quiesce condition. -/
def notQuiet (d : Dev) : Option (Nat × Nat) :=
  (d.mgmt.shadow.find? fun p => !quiet (p.1 / 256) (p.1 % 256) d).map fun p => (p.1 / 256, p.1 % 256)

/-- The timeout of the set in milliseconds: its own, or the smallest of its classed objects (R395). -/
def setTimeout (d : Dev) : Nat :=
  if d.mgmt.commit.timeout ≠ 0 then d.mgmt.commit.timeout
  else
    match (d.mgmt.shadow.map fun p => quiesceTimeout ((entryOf (p.1 / 256) (p.1 % 256)).elim 0 (·.q))).filter (· != 0) with
    | [] => 0
    | x :: xs => xs.foldl min x

/-- An evaluation fixes the outcome for tick `n`, or leaves the commit waiting. -/
def evaluateCommit (n : Nat) (d : Dev) : Dev :=
  let c := d.mgmt.commit
  let fix (o : Nat × Nat × Nat) : Dev := { d with mgmt.commit.decided := some o }
  match setRefusal n d with
  | some o => fix o
  | none =>
    match notQuiet d with
    | none => fix (0, 0, 0)
    | some (idx, sub) =>
      if c.exact_ ∨ c.arrived + setTimeout d * tMs ≤ d.now then fix (0x0A, idx, sub) else d

/-- Whether a commit waits for an evaluation. -/
def commitWaits (d : Dev) : Bool := d.mgmt.commit.state == 1 && d.mgmt.commit.decided.isNone

/-- The evaluation at P − 1 us of the present frame. -/
def frameEvaluation (d : Dev) : Dev :=
  if commitWaits d && decide (d.mgmt.commit.first ≤ d.clk.frame) then evaluateCommit (d.clk.frame + 1) d else d

/-! ## Outcome -/

/-- DETAIL of COMMIT_DONE and COMMIT_REFUSED (Table 22.4). -/
def commitDetail (code idx sub number : Nat) : Nat := code + idx * 2 ^ 8 + sub * 2 ^ 24 + number % 2 ^ 16 * 2 ^ 32

/-- The outcome is reached: the set is unfrozen and cleared, the outcome recorded, COMMIT_DONE sent. -/
def commitOutcome (code idx sub tick state : Nat) (d : Dev) : Dev :=
  let c := d.mgmt.commit
  let det := commitDetail code idx sub c.number
  let d1 := raise 4 evCommitDone 0 { d with
    mgmt.shadow := [], mgmt.frozen := false
    mgmt.applied := if code = 0 then d.mgmt.applied + 1 else d.mgmt.applied
    mgmt.commit := { c with state := state, code := code, failIndex := idx, failSub := sub, tick := tick, decided := none } } det
  if code = 0 then d1 else raise 4 evCommitRefused 0 d1 det

/-- A fixed outcome takes effect at tick `tick` (step c of Table 2.7). -/
def applyDecided (tick : Nat) (d : Dev) : Dev :=
  match d.mgmt.commit.decided with
  | none => d
  | some (code, idx, sub) =>
    if code ≠ 0 then commitOutcome code idx sub 0 3 d
    else
      let set := d.mgmt.shadow
      let d1 := set.foldl (fun d p =>
        if (Sparse.get none d.mgmt.shadow p.1).isNone then d else applyEntry (p.1 / 256) (p.1 % 256) (p.2.getD 0) d) d
      commitOutcome 0 0 0 tick (if set.any fun p => p.1 == entryKey 0x2801 1 then 4 else 2) d1

/-- Whether the commit whose outcome is fixed tears down tenant `t` at the tick to come. -/
def teardownDecided (t : Nat) (d : Dev) : Bool :=
  (d.mgmt.commit.decided.any fun x => x.1 == 0) && Sparse.get none d.mgmt.shadow (entryKey (0x5000 + t) 1) == some 2

/-- Whether no tick has been placed for 2 P. -/
def noTick (d : Dev) : Bool :=
  decide ((if d.clk.placed then d.clk.lastTick else d.clk.resetAt) + 2 * framePeriod d ≤ d.now)

/-- COMMIT_EVALUATION_NO_TICK: with no tick for 2 P, and in minimal mode, the commit is evaluated every 1 ms and
applied at once. -/
def commitNoTick (d : Dev) : Dev :=
  if d.mgmt.commit.state = 1 ∧ (noTick d ∨ d.boot.state = 2) ∧ d.mgmt.commit.polledAt + tMs ≤ d.now then
    let d1 := { d with mgmt.commit.polledAt := d.now }
    applyDecided d1.clk.frame (if d1.mgmt.commit.decided.isNone then evaluateCommit (d1.clk.frame + 1) d1 else d1)
  else d

/-- The frame of the first evaluation that R44 allows a commit that arrives now. -/
def firstFrame (d : Dev) : Nat :=
  if d.clk.placed && decide (d.clk.lastTick + framePeriod d ≤ d.now + tUs) then d.clk.frame + 1 else d.clk.frame

/-- A commit starts (R387): the set is frozen and waits for its first evaluation. An empty set is applied at once,
and an EXACT one whose evaluation is past is refused. -/
def startCommit (v : Nat) (d : Dev) : Dev :=
  let target := bitsOf v 0 48
  let exact_ := bitOf v 96
  let first := max (firstFrame d) (target - 1)
  let c : Commit := {
    number := d.mgmt.commits + 1, state := 1, target := target, timeout := bitsOf v 64 32, exact_ := exact_
    arrived := d.now, first := first, polledAt := d.now }
  let d1 := { d with mgmt.commits := d.mgmt.commits + 1, mgmt.commit := c, mgmt.frozen := true }
  if d.mgmt.shadow.isEmpty then commitOutcome 0 0 0 0 2 d1
  else if exact_ && target != 0 && d.clk.placed && decide (target < first + 1) then commitOutcome 0x0A 0 0 0 3 d1
  else d1

/-- The shadow set is discarded, a staged set in progress of commit excepted. -/
def discardShadow (d : Dev) : Dev := if d.mgmt.frozen then d else { d with mgmt.shadow := [] }

/-! ## Later phases (R404, Table 18.8) -/

/-- PHASED_STEP: at a tick after the last phase the next stack switches; after the eighth the commit reads
applied. -/
def phasedStep (d : Dev) : Dev :=
  if d.mem.refreshDone < 8 ∧ d.mem.refreshAt < d.clk.ticksPlaced then
    let n := d.mem.refreshDone + 1
    { d with
      mem.refreshDone := n, mem.refreshAt := d.clk.ticksPlaced
      mgmt.commit.state := if n = 8 ∧ d.mgmt.commit.state = 4 then 2 else d.mgmt.commit.state }
  else d

def execPhasedStep (s : State) : Host.Outcome State Fault Refusal := onDev true phasedStep s
def execCommitEvaluationNoTick (s : State) : Host.Outcome State Fault Refusal := onDev true commitNoTick s

end Sys2Proof.Machine
end

