-- ==== Sys2Proof/Machine/FnReset.lean ====
section
/-!
DEFINITION. Function-level resets (R424, R425, Table 20.7) and the end of a lease (R386).
-/
namespace Sys2Proof.Machine

/-! ## The end of a lease -/

/-- A lease ends (R386): the shadow set is discarded unless a commit has frozen it, and so is the notification
queue. -/
def endLease (d : Dev) : Dev :=
  discardShadow { d with mgmt.lease.role := 0, mgmt.notices := [] }

/-! ## FLR -/

/-- How long a function's FLR can take: 2 P + 1 ms. -/
def flrTime (d : Dev) : Nat := 2 * framePeriod d + tMs

/-- The entries of VF `t`'s vectors and slots. -/
def dropVectors (fn : Nat) (d : Dev) : Dev :=
  let lo := vectorOf fn 0 d
  let hi := if fn = 0 then 64 else lo + vfCount (fn - 1) d
  { d with
    pcie.msix := d.pcie.msix.filter fun p => !(decide (lo ≤ p.1) && decide (p.1 < hi))
    pcie.pending := d.pcie.pending.filter fun p => !(decide (lo ≤ p.1) && decide (p.1 < hi))
    pcie.vfmap := d.pcie.vfmap.filter fun p => fn == 0 || p.1 / 64 != fn - 1 }

/-- A function's own state returns to its reset values: its enables, block, MSI-X table, slots, outstanding
invalidations and host reads. -/
def dropFunction (fn : Nat) (d0 : Dev) : Dev :=
  let d := dropVectors fn d0
  { d with
    pcie.busMaster := Sparse.set false d.pcie.busMaster fn false
    pcie.memEnable := Sparse.set false d.pcie.memEnable fn false
    pcie.msixEnable := Sparse.set false d.pcie.msixEnable fn false
    pcie.fnMask := Sparse.set false d.pcie.fnMask fn false
    pcie.relaxed := Sparse.set false d.pcie.relaxed fn false
    pcie.blocks := Sparse.set {} d.pcie.blocks fn {}
    pcie.reads := d.pcie.reads.filter fun r => r.fn != fn
    mem.invalidations := d.mem.invalidations.filter fun x => x.fn != fn }

/-- The teardown of a tenant that holds a context. -/
def requestIfPresent (t : Nat) (d : Dev) : Dev := if (getRun t d).present then requestTeardown t d else d

/-- FLR_VF: an FLR of VF `t` (R424). -/
def flrVf (t : Nat) (d : Dev) : Dev :=
  if fnExists (t + 1) d ∧ d.pcie.linkUp then
    let d1 := requestIfPresent t (reelsTeardown t false (dropFunction (t + 1) d))
    { d1 with pcie.flrUntil := Sparse.set 0 d1.pcie.flrUntil (t + 1) (d.now + flrTime d) }
  else d

/-- The functions that exist. -/
def allFns (d : Dev) : List Nat := 0 :: (if d.pcie.vfEnable then (List.range d.pcie.numVfs).map (· + 1) else [])

/-- The mailbox cleared. -/
def clearMailbox (d : Dev) : Dev :=
  { d with
    pcie.reqBuf := [], pcie.rspBuf := [], pcie.ntfBuf := [], pcie.reqLen := 0, pcie.rspLen := 0, pcie.ntfLen := 0
    pcie.reqBusy := false, pcie.rspValid := false, pcie.ntfValid := false }

/-- A lease held over the host mailbox or MCTP over PCIe ends (R425). -/
def endHostLease (d : Dev) : Dev := if d.mgmt.lease.role ≠ 0 ∧ d.mgmt.lease.transport ≤ 1 then endLease d else d

/-- The PF reset of R425: an FLR of every function, and every register of Tables 19.3 to 19.6 and every VFMAP. FATAL
and the boot state show the device's own state and stay. -/
def pfReset (d : Dev) : Dev :=
  let fns := allFns d
  let ts := runTenants d
  let d1 := fns.foldl (fun d fn => dropFunction fn d) d
  let d2 := ((d1.reels.map fun p => p.2.tenant).eraseDups).foldl (fun d t => reelsTeardown t false d) d1
  let d3 := ts.foldl (fun d t => requestIfPresent t d) { d2 with reels := [] }
  let d4 := clearMailbox (endHostLease d3)
  { d4 with
    pcie.vfEnable := false, pcie.numVfs := 0, pcie.bar0 := 0, pcie.vfBar0 := 0, pcie.vfvec := [], pcie.vfmap := [], pcie.msix := [], pcie.pending := []
    pcie.blocks := [], mem.invalidations := [], pcie.reads := []
    pcie.flrUntil := fns.foldl (fun m fn => Sparse.set 0 m fn (d.now + flrTime d)) d4.pcie.flrUntil }

/-- PERST_L asserted: the PF reset, with the controller and the link (Table 20.7). -/
def perstAssert (d : Dev) : Dev :=
  let d1 := pfReset d
  { d1 with pins.perstLow := true, pcie.linkUp := false, pcie.flrUntil := [] }

/-- The link comes up once PERST_L is released and the device has started (R435): no earlier than stage 1. -/
def bringLinkUp (d : Dev) : Dev := if d.pins.perstLow || !d.boot.started then d else { d with pcie.linkUp := true }

/-- PERST_L released. -/
def perstRelease (d : Dev) : Dev := bringLinkUp { d with pins.perstLow := false }

def execFlrVf (vf : Nat) (s : State) : Host.Outcome State Fault Refusal := onDev (decide (vf < 1024)) (flrVf vf) s
def execPfReset (s : State) : Host.Outcome State Fault Refusal := onDev true pfReset s
def execPerstAssert (s : State) : Host.Outcome State Fault Refusal := onDev true perstAssert s
def execPerstRelease (s : State) : Host.Outcome State Fault Refusal := onDev true perstRelease s

end Sys2Proof.Machine
end

