-- ==== Sys2Proof/Machine/Boot.lean ====
section
/-!
DEFINITION. Start-up (chapter 20): verification of an image, the boot ROM, ready and minimal mode, the resets,
firmware update and boot control.
-/
namespace Sys2Proof.Machine

/-! ## Verification (R431, R432) -/

/-- SHA-384 of bytes as 48 bytes. -/
def digest (bs : Bytes) : Bytes := leBytes 48 (Config.sha384 bs)

/-- Bytes of a slot's image. -/
def slotRead (s off n : Nat) (d : Dev) : Bytes := flashRead (slotBase s + off) n d

/-- Check 3: sections aligned, within their limits and the slot, clear of the header and of each other. -/
def sectionsGood (h : Bytes) : Bool :=
  let o1 := fieldAt h 0x20 4
  let n1 := fieldAt h 0x24 4
  let o2 := fieldAt h 0x28 4
  let n2 := fieldAt h 0x2C 4
  decide (o1 % 4096 = 0) && decide (0x1000 ≤ o1) && decide (n1 ≤ 0x100000) && decide (o1 + n1 ≤ slotSize) &&
  decide (o2 % 4096 = 0) && decide (256 ≤ o2) && decide (n2 ≤ 0xE00000) && decide (o2 + n2 ≤ slotSize) &&
  (decide (o1 + n1 ≤ o2) || decide (o2 + n2 ≤ o1))

/-- Check 4: every reserved field of the header is 0. -/
def headerReserved (h : Bytes) : Bool :=
  decide (fieldAt h 6 2 = 0) && decide (fieldAt h 0x10 1 < 4) && decide (fieldAt h 0x11 15 = 0) &&
  decide (fieldAt h 0x91 15 = 0)

/-- Check 6: the signature over bytes 0x000 to 0x09F. -/
def signatureGood (h : Bytes) : Bool :=
  Config.ecdsaVerifies (Config.firmwareKey (fieldAt h 0x90 1)) (digest (h.take 0xA0)) (h.drop 0xA0)

/-- The first check of R432 that slot `s` fails, 0 for none. -/
def verifySlot (s : Nat) (d : Dev) : Nat :=
  let h := slotRead s 0 256 d
  if fieldAt h 0 4 ≠ 0x4D49584A ∨ fieldAt h 4 2 ≠ 1 then 1
  else if bitOf (fieldAt h 0x10 1) Config.stepping = false then 2
  else if sectionsGood h = false then 3
  else if headerReserved h = false then 4
  else if 3 < fieldAt h 0x90 1 ∨ bitOf Config.revokedKeys (fieldAt h 0x90 1) then 5
  else if signatureGood h = false then 6
  else if fieldAt h 0xC 4 < (bootRec d).floor then 7
  else if digest (slotRead s (fieldAt h 0x20 4) (fieldAt h 0x24 4) d) ≠ (h.drop 0x30).take 48 then 8
  else 0

/-- Whether the runtime image of slot `s` matches its digest. -/
def runtimeGood (s : Nat) (d : Dev) : Bool :=
  let h := slotRead s 0 256 d
  digest (slotRead s (fieldAt h 0x28 4) (fieldAt h 0x2C 4) d) == (h.drop 0x60).take 48

/-- The state of a slot as 0x1001 reports it: 0 empty, 1 valid, 2 failed verification. -/
def slotVerdict (s : Nat) (d : Dev) : Nat :=
  if (slotRead s 0 256 d).all (· == 0xFF) then 0 else if verifySlot s d = 0 then 1 else 2

/-! ## Minimal mode (R438, R444) -/

/-- Block 4 of the measurements: the boot record in use and an SVN (Table 20.8). -/
def measureRecord (svn : Nat) (d : Dev) : Bytes := ((copyInUse d).elim (fillBytes 64 0) fun k => recordCopy k d) ++ leBytes 4 svn

/-- DETAIL of the boot events (Table 22.4). -/
def bootDetail (reason check : Nat) : Nat := reason % 65536 + check % 16 * 65536

/-- The device is in minimal mode with a reason. -/
def minimalMode (reason check : Nat) (d : Dev) : Dev :=
  bringLinkUp (raise 3 evMinimalMode 0 { d with
    boot.state := 2, boot.started := true, boot.reason := reason, boot.svn := 0, boot.stage1Digest := 0
    boot.runtimeDigest := 0, boot.measured := measureRecord 0 d } (bootDetail reason check))

/-- Minimal mode is entered with a reason: INPROG is cleared, and MINLATCH set but for a latch of R444. -/
def enterMinimal (reason check : Nat) (d : Dev) : Dev :=
  let latch := reason != 0x0901 && reason != 0x0902
  minimalMode reason check (modBootRec (fun r =>
    { ((r.setFlag 0 false).setFlag 1 (r.minlatch || latch)) with reason := reason }) d)

/-! ## The boot ROM (R433, R434) -/

/-- Where neither copy of the record is valid, a new one is written. -/
def reinitRecord (d : Dev) : Dev := if (copyInUse d).isNone then putBootRec { reason := 0x0602 } d else d

/-- Step 1: an attempt that was in progress failed. -/
def notePrevious (d : Dev) : Dev :=
  if (bootRec d).inprog then
    let reason := if d.boot.pendingReason = 0 then 0x0502 else d.boot.pendingReason
    raise 4 evBootFailed 0 (modBootRec (fun r => { (r.setFlag 0 false) with reason := reason }) d) (bootDetail reason 0)
  else d

/-- The attempt's image starts: stage 1 of slot `s` runs. -/
def startSlot (s : Nat) (d : Dev) : Dev :=
  let h := slotRead s 0 256 d
  bringLinkUp { d with
    boot.state := 0, boot.started := true, boot.slot := s, boot.version := fieldAt h 8 4, boot.svn := fieldAt h 0xC 4
    boot.stage1Digest := Config.sha384 (slotRead s (fieldAt h 0x20 4) (fieldAt h 0x24 4) d)
    boot.reason := (bootRec d).reason }

/-- Steps 3 to 5: attempt k of a slot, the other slot where it does not verify, minimal mode where neither does. -/
def attemptBoot (d0 : Dev) : Dev :=
  let r := bootRec d0
  let s := if r.count + 1 = 3 then 1 - r.next % 2 else r.next % 2
  let put (last reason : Nat) (d : Dev) : Dev := modBootRec (fun r =>
    { (r.setFlag 0 true) with count := r.count + 1, started := r.started + 1, last := last, reason := reason }) d
  let c := verifySlot s d0
  if c = 0 then startSlot s (put s r.reason d0)
  else if verifySlot (1 - s) d0 = 0 then
    startSlot (1 - s) { (put (1 - s) (0x0101 + s) d0) with boot.failCheck := c }
  else enterMinimal 0x0103 c (modBootRec (fun r => { r with count := 3 }) (put (1 - s) r.reason d0))

/-- The boot ROM starts, 1 ms after the reset ends. `flash` says that the flash answers with its SFDP tables; without
it the device is in minimal mode at once, and nothing can be recorded. -/
def bootRom (flash : Bool) (d0 : Dev) : Dev :=
  let d := { d0 with boot.romAt := d0.now + tMs, clk.vcoreMv := oppMv 0 }
  if flash = false then minimalMode 0x0601 0 d
  else
    let d1 := reinitRecord d
    let d2 := { d1 with boot.slotState := [0, 1].foldl (fun m s => Sparse.set 0 m s (slotVerdict s d1)) [] }
    if d2.boot.tripLatch then enterMinimal 0x0901 0 d2
    else if d2.coll.fence = 15 then enterMinimal 0x0902 0 d2
    else
      let d3 := { (notePrevious d2) with boot.pendingReason := 0 }
      let r := bootRec d3
      if r.minlatch ∨ r.count = 3 then enterMinimal r.reason 0 d3 else attemptBoot d3

/-- The boot ROM starts unless something holds the device in reset. -/
def startBoot (flash : Bool) (d : Dev) : Dev :=
  if d.pins.porLow || d.boot.holdAon || d.boot.holdRail then d else bootRom flash d

/-! ## Resets (Table 20.7) -/

/-- What every reset of the device keeps: the flash with all it holds, the host's memory, the levels of the pins and
what holds the device in reset. -/
def resetState (d : Dev) : Dev :=
  { ({} : Dev) with
    now := d.now, freeUsed := d.freeUsed, out := d.out
    ev.persistent := d.ev.persistent, ev.persistentCount := d.ev.persistentCount
    mem.host := d.mem.host
    mgmt.dict := d.mgmt.flash, mgmt.flash := d.mgmt.flash
    boot.flash := d.boot.flash, boot.resetAt := d.now, boot.holdAon := d.boot.holdAon, boot.holdRail := d.boot.holdRail
    boot.fabLost := d.boot.fabLost
    clk.resetAt := d.now, clk.ccAt := d.now
    pins := { d.pins with trip := false, fatal3 := false } }

/-- A cold reset. -/
def coldReset (d : Dev) : Dev := resetState d

/-- A warm reset also keeps the pending reason, the thermal-trip latch, the fenced adder units and the excluded
sensors, and with them ALERT_L of a trip (R474). -/
def warmState (d : Dev) : Dev :=
  let r := resetState d
  { r with
    boot.pendingReason := d.boot.pendingReason, boot.tripLatch := d.boot.tripLatch
    coll.fence := d.coll.fence, pow.excluded := d.pow.excluded, pins.trip := d.pins.trip }

/-- The heartbeats that wait on T go out. -/
def flushHeartbeats (d : Dev) : Dev :=
  (List.range (Sparse.get [] d.net.outQ 65).length).foldl (fun d _ => sendNew 8 1 d) d

/-- Every raised record is collected and reaches the persistent ring (R467). -/
def collectAll (d : Dev) : Dev :=
  persistAll ((List.range d.ev.queue.length).foldl (fun d _ =>
    match pickEvent d.ev.queue with
    | none => d
    | some (e, rest) => collect e { d with ev.queue := rest }) d)

/-- What goes before a reset that the device performs by itself (R442, R467). -/
def beforeReset (d : Dev) : Dev :=
  collectAll (if tPortUp d then flushHeartbeats (sendHeartbeat true d) else d)

/-- A warm reset that the device performs, and the start that follows. -/
def warmReset (flash : Bool) (d : Dev) : Dev := startBoot flash (warmState (beforeReset d))

/-- WARM_RESET: a requested warm reset begins. -/
def requestedWarmReset (flash : Bool) (d : Dev) : Dev := if d.boot.resetDue.isSome then warmReset flash d else d

/-- POR_L has been low for `ns` nanoseconds: from 1 us on it is a cold reset (R473). -/
def porAssert (ns : Nat) (d : Dev) : Dev :=
  if 1000 ≤ ns then coldReset { d with pins.porLow := true } else d

/-- POR_L is released. -/
def porRelease (flash : Bool) (d : Dev) : Dev :=
  if d.pins.porLow then startBoot flash { d with pins.porLow := false, pins.driven := none, boot.fabLost := false, boot.resetAt := d.now, clk.resetAt := d.now }
  else d

/-- BOOT_WATCHDOG: 10,000 ms after the boot ROM's start without ready. -/
def bootWatchdog (flash : Bool) (d : Dev) : Dev :=
  if d.boot.state = 0 ∧ d.boot.started ∧ d.boot.romAt + 10000 * tMs ≤ d.now then
    warmReset flash { d with boot.pendingReason := 0x0501 }
  else d

/-- The reasons a failure during a boot can have (Table 20.10); a runtime image fails its digest where it does. -/
def failureReason (reason : Nat) (d : Dev) : Bool :=
  (reason == 0x0201 + d.boot.slot && !runtimeGood d.boot.slot d) || (decide (0x0300 ≤ reason) && decide (reason ≤ 0x0307)) ||
  (decide (0x0400 ≤ reason) && decide (reason ≤ 0x047F)) || reason == 0x0701

/-- BOOT_FAILURE: the firmware has detected a failure before ready. -/
def bootFailure (reason : Nat) (flash : Bool) (d : Dev) : Dev :=
  if d.boot.state = 0 ∧ d.boot.started ∧ failureReason reason d then
    warmReset flash { d with boot.pendingReason := reason }
  else d

/-! ## Ready (R436) -/

/-- What is stored of a persistent entry: the newest value that waits for the flash, or what the flash holds. -/
def storedValue (idx sub : Nat) (d : Dev) : Nat :=
  match (d.mgmt.flashWaiting.filter fun w => w.1 == entryKey idx sub).getLast? with
  | some w => w.2.1
  | none => (Sparse.get none d.mgmt.flash (entryKey idx sub)).getD (entryDefault idx sub)

/-- HBM reads zero at every ready. -/
def zeroHbm (d : Dev) : Dev :=
  { d with mem.phys := d.mem.phys.filter fun c => !decide (c.1 < hbmEnd)
           mem.err := d.mem.err.filter fun p => !decide (p.1 * 8 < hbmEnd) }

/-- BOOT_FALLBACK where the ready slot is not NEXT. -/
def noteFallback (d : Dev) : Dev :=
  let r := bootRec d
  if d.boot.slot = r.next % 2 then d
  else raise 4 evBootFallback 0 (modBootRec (fun r => { (r.setFlag 2 true) with next := d.boot.slot }) d)
    (bootDetail r.reason d.boot.failCheck)

/-- READY: every condition of R436 holds; `rate` is the rate of the HBM stacks in 0.1 Gb/s. -/
def becomeReady (rate : Nat) (d : Dev) : Dev :=
  if d.boot.state = 0 ∧ d.boot.started ∧ d.boot.romAt ≤ d.now ∧ runtimeGood d.boot.slot d ∧ (rate = 80 ∨ rate = 64 ∨ rate = 48) then
    let h := slotRead d.boot.slot 0 256 d
    let d1 := noteFallback (modBootRec (fun r =>
      { (r.setFlag 0 false) with
        count := 0, last := d.boot.slot, version := d.boot.version, ready := r.ready + 1, time := (d.now - d.boot.romAt) / tMs }) d)
    let d2 := zeroHbm (dictPut 0x3000 1 (storedValue 0x3000 1 d1) (dictPut 0x3000 2 (storedValue 0x3000 2 d1) d1))
    let d3 := { d2 with
      boot.state := 1, boot.hbmRate := rate, clk.vcoreMv := oppMv (dictGet 0x2001 1 d2)
      boot.runtimeDigest := Config.sha384 (slotRead d.boot.slot (fieldAt h 0x28 4) (fieldAt h 0x2C 4) d)
      boot.measured := measureRecord d.boot.svn d2 }
    raise 4 evBootReady 0 (if rate < 80 then raise 4 evHbmRateReduced 0 d3 else d3)
  else d

/-! ## Firmware update (R441) -/

/-- The slot that an update writes. -/
def targetSlot (d : Dev) : Nat :=
  if d.boot.state = 2 then (if (bootRec d).last ≤ 1 then 1 - (bootRec d).last else 0) else 1 - d.boot.slot

/-- The abort code of an update control value in the present state, 0 for none. -/
def updateAbort (v : Nat) (d : Dev) : Nat :=
  let st := d.boot.update
  if (v = 1 ∧ (st = 0 ∨ st = 4 ∨ st = 5)) ∨ (v = 2 ∧ st = 2) ∨ (v = 3 ∧ st = 4) then 0 else 0x0A

/-- Update control: erase and verify start; select sets NEXT. -/
def updateControl (v : Nat) (d : Dev) : Dev :=
  if v = 1 then { d with boot.update := 1 }
  else if v = 2 then { d with boot.update := 3 }
  else modBootRec (fun r => { r with next := targetSlot d }) d

/-- A piece of image data. -/
def imageData (off : Nat) (bs : Bytes) (d : Dev) : Dev :=
  let d1 := flashProgram (slotBase (targetSlot d) + off) bs d
  { d1 with boot.received := (d1.boot.received + bs.length) % 2 ^ 32 }

/-- ERASE_COMPLETE. -/
def eraseComplete (d : Dev) : Dev :=
  if d.boot.update = 1 then
    let d1 := flashErase (slotBase (targetSlot d)) slotSize d
    { d1 with boot.update := 2, boot.received := 0, boot.slotState := Sparse.set 0 d1.boot.slotState (targetSlot d) 0 }
  else d

/-- VERIFY_COMPLETE: R432 with the runtime digest. -/
def verifyComplete (d : Dev) : Dev :=
  if d.boot.update = 3 then
    let s := targetSlot d
    let good := verifySlot s d == 0 && runtimeGood s d
    let d1 := { d with
      boot.update := if good then 4 else 5
      boot.slotState := Sparse.set 0 d.boot.slotState s (if good then 1 else 2) }
    if good then d1 else raise 4 evFwVerifyFail 0 d1
  else d

/-! ## Boot control (R439, Table 20.6) -/

/-- The abort code of a boot control value, 0 for none. -/
def bootControlAbort (v : Nat) (d : Dev) : Nat :=
  if d.boot.state = 0 then 0x0A
  else if v = 5 then (if d.boot.state = 2 then 0x0C else if d.boot.svn < (bootRec d).floor then 0x06 else 0)
  else 0

/-- A warm reset is requested; one that is already on its way stands (R443). -/
def requestWarm (d : Dev) : Dev :=
  if d.boot.resetDue.isSome then d else { d with boot.resetDue := some (0, d.now) }

/-- What a boot control value does once its response has been given. -/
def bootControl (v : Nat) (flash : Bool) (d : Dev) : Dev :=
  if v = 1 then requestWarm d
  else if v = 2 then requestWarm (modBootRec (fun r =>
    { ((r.setFlag 1 false).setFlag 2 false) with count := 0, reason := 0 }) d)
  else if v = 3 then startBoot flash (coldReset (beforeReset d))
  else if v = 4 then requestWarm (modBootRec (fun r => { (r.setFlag 1 true) with reason := 0x0801 }) d)
  else modBootRec (fun r => { r with floor := d.boot.svn }) d

def execWarmReset (flash : Bool) (s : State) : Host.Outcome State Fault Refusal := onDev true (requestedWarmReset flash) s
def execPorAssert (ns : Nat) (s : State) : Host.Outcome State Fault Refusal := onDev true (porAssert ns) s
def execPorRelease (flash : Bool) (s : State) : Host.Outcome State Fault Refusal := onDev true (porRelease flash) s
def execBootWatchdog (flash : Bool) (s : State) : Host.Outcome State Fault Refusal := onDev true (bootWatchdog flash) s
def execBootFailure (reason : Nat) (flash : Bool) (s : State) : Host.Outcome State Fault Refusal :=
  onDev true (bootFailure reason flash) s
def execReady (rate : Nat) (s : State) : Host.Outcome State Fault Refusal := onDev true (becomeReady rate) s
def execEraseComplete (s : State) : Host.Outcome State Fault Refusal := onDev true eraseComplete s
def execVerifyComplete (s : State) : Host.Outcome State Fault Refusal := onDev true verifyComplete s

end Sys2Proof.Machine
end

