-- ==== Sys2Proof/Machine/Ticks.lean ====
section
/-!
DEFINITION. The tick ordered set (R32 to R41, R51): how a clapper announces its ticks, how a follower fixes the time of
one and forwards it, what happens when one is missing, and FRAME_IN.
-/
namespace Sys2Proof.Machine

/-- The last frame number: its tick is the last that a clapper sends. -/
def lastFrame : Nat := 2 ^ 48 - 1

/-- The tick ordered set (Table 2.1); LEAD in units of 50 ps. -/
def tickSet (frame period : Nat) (hold : Bool) (hops lead : Nat) : BitVec 128 :=
  withCrc16 (frame % 2 ^ 48 + (period - 5) % 8 * 2 ^ 48 + (if hold then 2 ^ 51 else 0) + min 255 hops * 2 ^ 56 +
    lead % 2 ^ 32 * 2 ^ 64)

/-- Whether the device is in holdover itself: a follower with ticks missing, a clapper with edges missing, or a frame
counter without REFCLK_FAB (R476). -/
def ownHold (d : Dev) : Bool := decide (0 < d.clk.missed) || d.clk.edgeHold || d.boot.fabLost

/-- A set leaves on every child port. -/
def tickOut (set : BitVec 128) (d : Dev) : Dev := (childPorts d).foldl (fun d p => sendSet p 0 set d) d

/-- The time from the first copy to the second: 256 fc. -/
def copyGap : Nat := 256 * tFc

/-- A tick is planned and announced to the children: the first copy leaves now, the second is due 256 fc later. -/
def announceTick (p : PlannedTick) (d : Dev) : Dev :=
  let lead := p.time - d.now
  tickOut (tickSet p.frame p.period p.hold p.hops lead)
    { d with
      clk.planned := d.clk.planned ++ [p]
      clk.seconds := d.clk.seconds ++
        [{ due := d.now + copyGap, frame := p.frame, period := p.period, hold := p.hold, hops := p.hops
           lead := lead - copyGap }] }

/-! ## The clapper (R32, R38, R40) -/

/-- The most the phase moves in a frame, 5 ns, and the error below which the counter is locked, 1 ns. -/
def phaseStep : Int := 100
def phaseLocked : Int := 20

/-- The correction made with the next tick. -/
def nextStep (d : Dev) : Int := if clapperRole d = 2 then max (-phaseStep) (min phaseStep d.clk.phaseError) else 0

/-- What is left of a correction; below 1 ns the counter is locked. -/
def takeStep (d : Dev) : Dev :=
  let s := nextStep d
  let e := d.clk.phaseError - s
  if s = 0 then d
  else { d with
    clk.phase := d.clk.phase + s
    clk.phaseError := if e.natAbs < phaseLocked.natAbs then 0 else e
    clk.edgeLocked := d.clk.edgeLocked || decide (e.natAbs < phaseLocked.natAbs) }

/-- The next tick of a clapper: one frame after the last it has announced or placed. A clapper that has placed none
begins L from now, with a frame number that no rule states (a free value, log entry 41). -/
def nextOwn (d : Dev) : Nat × Nat × Dev :=
  match d.clk.planned.getLast? with
  | some p => (p.frame + 1, ((p.time : Int) + framePeriod d + nextStep d).toNat, d)
  | none =>
    if d.clk.placed then (d.clk.frame + 1, ((d.clk.lastTick : Int) + framePeriod d + nextStep d).toNat, d)
    else
      let x := freshValue 48 d
      (x.1, d.now + dictGet 0x2000 4 d * tUs, x.2)

/-- Whether the ticks that the clapper has announced reach the last frame. -/
def lastAnnounced (d : Dev) : Bool :=
  match d.clk.planned.getLast? with
  | some p => p.frame == lastFrame
  | none => d.clk.placed && d.clk.frame == lastFrame

/-- TICK_SEND: the first copy leaves L before its tick; one whose time is past leaves at once. -/
def tickSend (d : Dev) : Dev :=
  if clapperRole d ≠ 0 ∧ d.boot.state = 1 ∧ lastAnnounced d = false then
    let x := nextOwn d
    if x.2.1 ≤ d.now + dictGet 0x2000 4 d * tUs then
      let t := max d.now x.2.1
      let d1 := takeStep x.2.2
      let d2 := if clapperRole d = 2 ∧ (x.1 % 2 ^ dictGet 0x2000 7 d : Nat) = 0 then
          { d1 with clk.edges := d1.clk.edges ++ [(t, d1.clk.phase)] } else d1
      announceTick { frame := x.1, time := t, period := periodK d, hold := ownHold d, hops := 0, late := false } d2
    else d
  else d

/-- TICK_SECOND_COPY: the second copies that are due leave. -/
def tickSecondCopy (d : Dev) : Dev :=
  (d.clk.seconds.filter fun s => decide (s.due ≤ d.now)).foldl
    (fun d s => tickOut (tickSet s.frame s.period s.hold s.hops s.lead) d)
    { d with clk.seconds := d.clk.seconds.filter fun s => !decide (s.due ≤ d.now) }

/-! ## FRAME_IN (R32, R475) -/

/-- The expected edge nearest to now, with its phase. -/
def nearestEdge (d : Dev) : Option (Nat × Int) :=
  d.clk.edges.foldl (fun b e =>
    match b with
    | none => some e
    | some x => if ((e.1 : Int) - d.now).natAbs < ((x.1 : Int) - d.now).natAbs then some e else some x) none

/-- FRAME_IN_EDGE: an edge within 1 us of its time ends holdover; one more than 20 ns away, and any before the counter
is first locked, sets the correction that is left to make. Another edge is ignored and counted. Other roles ignore
FRAME_IN. -/
def frameInEdge (d : Dev) : Dev :=
  if clapperRole d ≠ 2 then d
  else
    let miss : Dev := { d with clk.edgeIgnored := d.clk.edgeIgnored + 1 }
    match nearestEdge d with
    | none => miss
    | some e =>
      let err : Int := (d.now : Int) - e.1
      if tUs < err.natAbs then miss
      else
        let d1 := { d with clk.edges := d.clk.edges.filter (· != e), clk.edgeMissing := 0, clk.edgeHold := false }
        if 20 * tNs < err.natAbs ∨ d.clk.edgeLocked = false ∨ d.clk.phaseError ≠ 0 then
          let left := err - (d.clk.phase - e.2)
          if left.natAbs < phaseLocked.natAbs then { d1 with clk.phaseError := 0, clk.edgeLocked := true }
          else { d1 with clk.phaseError := left }
        else d1

/-- FRAME_IN_MISSING: expected edges that have not come are counted; with the fourth in a row the clapper is in
holdover. -/
def frameInMissing (d : Dev) : Dev :=
  let gone (e : Nat × Int) : Bool := decide (e.1 + tUs < d.now)
  let n := (d.clk.edges.filter gone).length
  let d1 := { d with clk.edges := d.clk.edges.filter fun e => !gone e, clk.edgeMissing := d.clk.edgeMissing + n }
  if clapperRole d = 2 ∧ 4 ≤ d1.clk.edgeMissing ∧ d1.clk.edgeHold = false then
    raise 4 evFrameInMissing 0 { d1 with clk.edgeHold := true }
  else d1

/-! ## A follower (R34, R36, R37, R51) -/

/-- Whether a copy is the second of a tick that has its time already. -/
def knownTick (n : Nat) (d : Dev) : Bool := (d.clk.planned.any fun p => p.frame == n) || (d.clk.placed && d.clk.frame == n)

/-- A good copy on the parent port ends holdover; the first of its tick fixes the tick's time and goes on to the
children. -/
def goodCopy (port v : Nat) (d : Dev) : Dev :=
  let hops := bitsOf v 56 8
  let d0 := { d with clk.missed := 0, clk.lost := false }
  let d1 := if 56 < hops ∧ d.clk.depthRaised = false then raise 4 evTickDepth (srcPort port) { d0 with clk.depthRaised := true } else d0
  let n := bitsOf v 0 48
  if knownTick n d1 then d1
  else
    let t : Int := (d.now : Int) + bitsOf v 64 32 - delayUnits port d
    let late := decide (t < (d.now : Int) + tUs)
    let p : PlannedTick := {
      frame := n, time := if late then d.now + tUs else t.toNat, period := bitsOf v 48 3 + 5
      hold := bitOf v 51 || ownHold d1, hops := hops + 1, late := late }
    let d2 := announceTick p { d1 with clk.lastHops := hops }
    if late then raise 4 evTickLate (srcPort port) d2 else d2

/-- TICK_ORDERED_SET: a copy off the tree is discarded and counted, whatever its CRC; a bad one on the parent port is
ignored. -/
def tickReceive (port : Nat) (set : BitVec 128) (d : Dev) : Dev :=
  if (getPort port d).state ≠ 2 ∨ d.boot.state ≠ 1 then d
  else if clapperRole d ≠ 0 ∨ port ≠ parentPort d then
    raise 4 evTickOffTree (srcPort port) { d with clk.offTree := d.clk.offTree + 1 }
  else if crc16Good set then goodCopy port set.toNat d
  else d

/-- The port of the tick tree that a missing tick is reported against. -/
def tickSource (d : Dev) : Nat := if parentPort d < 9 then srcPort (parentPort d) else 0

/-- TICK_MISSED: 1 us before the predicted tick no tick is planned near it; the follower ticks on prediction, and tells
its children with HOLD = 1. -/
def tickMissed (d : Dev) : Dev :=
  let pred := d.clk.lastTick + framePeriod d
  let near (p : PlannedTick) : Bool := decide (2 * ((p.time : Int) - pred).natAbs ≤ framePeriod d)
  if clapperRole d = 0 ∧ d.boot.state = 1 ∧ d.clk.placed ∧ pred ≤ d.now + tUs ∧ (d.clk.planned.any near) = false then
    announceTick
      { frame := (d.clk.frame + 1) % 2 ^ 48, time := max pred d.now, period := periodK d, hold := true
        hops := d.clk.lastHops + 1, late := false }
      (raise 4 evTickMissed (tickSource d) { d with clk.missed := d.clk.missed + 1 })
  else d

/-! ## Runs that a clock fault halts -/

/-- The tenants of Running runs. -/
def runningTenants (d : Dev) : List Nat := (runTenants d).filter fun t => (getRun t d).running

/-- A clock fault: one record for each run that it halts, or one with no run. -/
def clockFault (num source : Nat) (ts : List Nat) (f : Nat → Dev → Dev) (d : Dev) : Dev :=
  if ts.isEmpty then raise 2 num source d else ts.foldl (fun d t => f t d) d

/-- TICK_LOST: 16 ticks in a row have been missed, and every run halts at the next tick; or a clapper has sent its last
tick, and they halt at once. -/
def tickLost (d : Dev) : Dev :=
  if d.clk.lost then d
  else if clapperRole d = 0 ∧ 16 ≤ d.clk.missed then
    clockFault evTickLost 0 (runningTenants d) (faultRun 2 evTickLost 0)
      { d with clk.lost := true }
  else if clapperRole d ≠ 0 ∧ d.clk.placed ∧ d.clk.frame = lastFrame ∧ d.clk.lastTick + framePeriod d ≤ d.now then
    clockFault evTickLost 0 (runningTenants d) (fun t d => haltNow t (faultRun 2 evTickLost 0 t d)) { d with clk.lost := true }
  else d

/-- FRAME_OUT_FALL: 1 us after the tick. -/
def frameOutFall (d : Dev) : Dev :=
  if d.clk.lastTick + tUs ≤ d.now then { d with clk.frameOut := false } else d

def execTickSend (s : State) : Host.Outcome State Fault Refusal := onDev true tickSend s
def execTickSecondCopy (s : State) : Host.Outcome State Fault Refusal := onDev true tickSecondCopy s
def execTickOrderedSet (port : Nat) (set : BitVec 128) (s : State) : Host.Outcome State Fault Refusal :=
  onDev (decide (port < 9)) (tickReceive port set) s
def execTickMissed (s : State) : Host.Outcome State Fault Refusal := onDev true tickMissed s
def execTickLost (s : State) : Host.Outcome State Fault Refusal := onDev true tickLost s
def execFrameInEdge (s : State) : Host.Outcome State Fault Refusal := onDev true frameInEdge s
def execFrameInMissing (s : State) : Host.Outcome State Fault Refusal := onDev true frameInMissing s
def execFrameOutFall (s : State) : Host.Outcome State Fault Refusal := onDev true frameOutFall s

end Sys2Proof.Machine
end

