-- ==== Sys2Proof/Machine/Frames.lean ====
section
/-!
DEFINITION. The frame boundary (Table 2.7): the local tick with its steps a to e, run frames, slips and the guard band
(R45, R46, R310, R320, R37), the SOURCE 1 request (R372), the boundary preparation and teardowns without a tick.
-/
namespace Sys2Proof.Machine

/-! ## Slips (R45, R46) -/

/-- A slip of run `t`: class 2 under the fault policy, which halts it at the next tick, class 4 under stretch. -/
def slipEvent (num src t : Nat) (d : Dev) (detail : Nat := 0) : Dev :=
  if (getRun t d).con.policy = 1 then faultRun 2 num src t d detail else raiseT 4 num src t d detail

/-- FRAME_SLIP of a tile. -/
def frameSlip (tile t : Nat) (d : Dev) : Dev :=
  slipEvent evFrameSlip (srcTile tile) t { d with clk.slips := satAdd 64 d.clk.slips 1 }

/-- The slip request of a run, under the stretch policy: SOURCE 0, factor 2, D frames on. -/
def slipRequest (t : Nat) (d : Dev) : Dev :=
  let c := (getRun t d).con
  if c.policy = 1 then d else requestStretch t 0 1 false (d.clk.frame + c.notice) d

/-- The segments of tenant `t` on a tile that have not finished: those that run, and those that wait. -/
def unfinished (tile t : Nat) (d : Dev) : List Segment :=
  let x := getTile tile d
  let going (g : Segment) : Bool := !(g.ended && ctxDone tile g.ctx 127 d)
  (((x.seg.toList ++ x.other.seg.toList).filter going) ++ x.nextSegs ++ x.other.nextSegs ++ x.windowSegs ++
    x.switchTo.toList).filter fun g => g.tenant == t

/-- Segments of tenant `t` up to run frame `r` have had their overrun reported. -/
def markOverrun (tile t r : Nat) (d : Dev) : Dev :=
  let f (g : Segment) : Segment := if g.tenant = t ∧ g.runFrame ≤ r then { g with slipped := true } else g
  modTile tile (fun x => { x with
    seg := x.seg.map f, nextSegs := x.nextSegs.map f, windowSegs := x.windowSegs.map f, switchTo := x.switchTo.map f
    other := { x.other with seg := x.other.seg.map f, nextSegs := x.other.nextSegs.map f } }) d

/-- SLIP_OVERRUN. -/
def slipOverrun (src t : Nat) (d : Dev) : Dev := faultRun 2 evSlipOverrun src t d

/-- A tile at the guard band of run frame `r`: one FRAME_SLIP for each rank context whose segment of r has not
finished; under stretch one SLIP_OVERRUN for each segment that is D frames late. -/
def guardTile (t r tile : Nat) (acc : Bool × Dev) : Bool × Dev :=
  let c := (getRun t acc.2).con
  let l := unfinished tile t acc.2
  let now_ := l.filter fun g => g.runFrame == r
  let overdue := if c.policy = 1 then [] else l.filter fun g => decide (g.runFrame + c.notice ≤ r) && !g.slipped
  let d1 := now_.foldl (fun d _ => frameSlip tile t d) acc.2
  let d2 := overdue.foldl (fun d _ => slipOverrun (srcTile tile) t d) d1
  (acc.1 || !now_.isEmpty, if overdue.isEmpty then d2 else markOverrun tile t (r - c.notice) d2)

/-- Whether a collective segment that a member has handed in is still open (R310). -/
def instLate (t r : Nat) (x : CollInst) (d : Dev) : Bool :=
  x.tenant == t && x.begun && decide (x.runFrame ≤ r) &&
  (match liveCtx t x.cctx d with
   | some c => !segmentDone x c d
   | none => true)

/-- A collective segment at the guard band of run frame `r`: COLL_LATE once, SLIP_OVERRUN when it is D frames late. -/
def guardInst (t r : Nat) (acc : Bool × Dev) (x : CollInst) : Bool × Dev :=
  let c := (getRun t acc.2).con
  if instLate t r x acc.2 then
    if x.late then
      (acc.1, if c.policy = 0 ∧ x.runFrame + c.notice ≤ r then slipOverrun (srcNi 0) t acc.2 else acc.2)
    else (true, slipEvent evCollLate (srcNi 0) t (putInst { x with late := true } acc.2) (x.cctx + x.cseg * 2 ^ 12))
  else acc

/-- A chain instance that started by itself, likewise. -/
def guardChain (t r : Nat) (acc : Bool × Dev) (x : ChainInst) : Bool × Dev :=
  let c := (getRun t acc.2).con
  if x.tenant = t ∧ x.auto ∧ x.r ≤ r then
    if x.late then (acc.1, if c.policy = 0 ∧ x.r + c.notice ≤ r then slipOverrun (srcNi 0) t acc.2 else acc.2)
    else
      (true, slipEvent evCollLate (srcNi 0) t { acc.2 with coll.chains := acc.2.coll.chains.map fun y =>
        if y.number = x.number then { y with late := true } else y })
  else acc

/-- The guard band of the ending run frame of `t`. -/
def checkSlips (t : Nat) (d : Dev) : Dev :=
  let r := (getRun t d).index
  let d0 := modRun t (fun x => { x with guarded := r + 1 }) d
  let a := (runTiles t d0).foldl (fun acc x => guardTile t r x acc) (false, d0)
  let b := a.2.coll.insts.foldl (guardInst t r) a
  let e := b.2.coll.chains.foldl (guardChain t r) b
  if e.1 then slipRequest t e.2 else e.2

/-- When the guard band of a run begins in the present building frame. -/
def guardTime (t : Nat) (d : Dev) : Nat := d.clk.lastTick + framePeriod d - (getRun t d).con.guardNs * tNs

/-- GUARD_BAND: at the start of a run's guard band, in the last building frame of its run frame. -/
def guardBand (t : Nat) (d : Dev) : Dev :=
  let r := getRun t d
  if r.running ∧ r.spanLeft ≤ 1 ∧ d.clk.placed ∧ r.guarded ≠ r.index + 1 ∧ guardTime t d ≤ d.now then checkSlips t d else d

/-! ## Steps a and b -/

/-- The planned tick that has come: the earliest whose time is reached. -/
def dueTick (d : Dev) : Option PlannedTick :=
  (d.clk.planned.filter fun p => decide (p.time ≤ d.now)).foldl (fun b p =>
    match b with
    | none => some p
    | some x => if p.time < x.time then some p else some x) none

/-- Segments of windowed tiles that their windows' end has left unfinished are cut at the latest now (R345). -/
def closeWindows (d : Dev) : Dev := (d.tiles.map (·.1)).foldl (fun d x => windowEnd x true d) d

/-- Step a: the frame number, the tick's time, and a new period where the tick carries one. -/
def placeTick (p : PlannedTick) (d : Dev) : Dev :=
  let d1 := if p.period = periodK d then d else dictPut 0x2000 1 p.period d
  { d1 with
    clk.frame := p.frame, clk.placed := true, clk.lastTick := p.time, clk.frameOut := true, clk.prepared := false, pow.haltCharge := 0
    clk.ticksPlaced := satAdd 64 d1.clk.ticksPlaced 1
    clk.planned := d1.clk.planned.filter (· != p) }

/-- A run that a tick halts at once. -/
def haltByTick (num : Nat) (t : Nat) (d : Dev) : Dev :=
  haltNow t (raiseEvent { cls := 2, num := num, source := 0, tenant := some t, halt := true } d)

/-- R41: a FRAME that is not the next one halts Running runs; a period that a container does not declare halts its run. -/
def tickFaults (seqBad newK : Bool) (d : Dev) : Dev :=
  let d1 := if seqBad then
    clockFault evTickSequence 0 (runningTenants d) (haltByTick evTickSequence) d else d
  if newK then
    let ts := (runTenants d1).filter fun t =>
      ((getRun t d1).state == .armed || (getRun t d1).running) && (getRun t d1).con.k != periodK d1
    clockFault evPeriodMismatch 0 ts (haltByTick evPeriodMismatch) d1
  else d1

/-- Whether a run frame of a run begins at tick `n`. -/
def beginsAt (n : Nat) (r : Run) (d : Dev) : Bool := startsAt r n d || (r.running && decide (r.spanLeft ≤ 1))

/-- Step b of one run: a pending halt, a halt request due, or the stretch requests due. A run whose teardown is requested
goes straight to Torn down (R23). -/
def stepB (n t : Nat) (d : Dev) : Dev :=
  let r := getRun t d
  if r.teardownPending || teardownDecided t d then d
  else if r.running && r.haltPending then haltNow t d
  else if r.running && (r.haltAt.any fun a => decide (a ≤ n)) then haltNow t (faultRun 2 evRunHaltRequested 0 t d)
  else if beginsAt n r d then
    if r.running && haltDue t n d then haltNow t (faultRun 2 evRunHaltRequested 0 t d) else applyStretches t n d
  else d

/-! ## Step c: teardowns (R22, R24) -/

/-- Every requested teardown takes effect. -/
def stepTeardowns (d : Dev) : Dev :=
  (runTenants d).foldl (fun d t => if (getRun t d).teardownPending then teardownNow t true d else d) d

/-! ## Step e: run frames -/

/-- The lane plan of a run frame; one that names an empty subindex is taken as none (R282). -/
def takePlan (t plan : Nat) (d : Dev) : Dev :=
  let bad := plan != 0xFFFFFFFF && (planEntry plan 0 d).isNone
  let d1 := modRun t (fun x => { x with plan := if bad then 0xFFFFFFFF else plan }) d
  if bad then raiseT 4 evLanePlanMissing 0 t d1 else d1

/-- Past the last frame-table entry a run is idle, and says so once. -/
def runComplete (t : Nat) (d : Dev) : Dev :=
  let d1 := openAccount t (modRun t (fun x => { x with idle := true, plan := 0xFFFFFFFF }) d)
  if (getRun t d1).completeRaised then d1
  else raiseT 4 evRunComplete 0 t (modRun t (fun x => { x with completeRaised := true }) d1)

/-- A run frame of run `t` begins. -/
def beginFrame (t : Nat) (d : Dev) : Dev :=
  let armed := (getRun t d).state == .armed
  let d1 := modRun t (fun x => { x with index := if armed then 0 else x.index + 1, spanLeft := x.factor }) d
  let d2 := mirrorIndex t (if armed then setRunState t .running d1 else d1)
  let r := (getRun t d2).index
  let d3 :=
    if ((getRun t d2).con.entryIndex r).isNone then runComplete t d2
    else giveFrame t 0 r (openAccount t (takePlan t (entryPlan (frameEntry t r d2).2.1) d2))
  if d3.twin.taken.any fun x => x.tenant == t && x.resumed then giveFrame t 1 r d3 else d3

/-- Step e of one run: the run frame that begins here, or one building frame less of the one that goes on. -/
def stepE (begins : List Nat) (t : Nat) (d : Dev) : Dev :=
  let r := getRun t d
  if begins.contains t ∧ (r.state = .armed ∨ r.running) then beginFrame t d
  else if r.running then modRun t (fun x => { x with spanLeft := x.spanLeft - 1 }) d
  else d

/-- A stretched building frame is counted. -/
def countStretched (d : Dev) : Dev :=
  if d.runs.any fun p => p.2.running && decide (1 < p.2.factor) then
    { d with clk.stretchedFrames := satAdd 64 d.clk.stretchedFrames 1 } else d

/-- R37: every run handles the frame of a late tick as slipped on every one of its tiles. -/
def lateSlips (d : Dev) : Dev :=
  (runningTenants d).foldl (fun d t =>
    let tiles := bitsSet 128 (getRun t d).con.tileMask
    if tiles.isEmpty then d else slipRequest t (tiles.foldl (fun d x => frameSlip x t d) d)) d

/-- The commits of run frame `r` of run `t` that the twin has not acknowledged. -/
def openCommits (t r : Nat) (d : Dev) : Nat :=
  (d.twin.commitsDue.filter fun c => c.1 == t && c.2.2 == r).length +
  (d.twin.commitsOut.filter fun c => c.1 == t && c.2.2.1 == r).length

/-- MIRROR_LATE: the tick ends run frame `r` of `t` with its commit not acknowledged (R320). -/
def mirrorLate (p : Nat × Nat) (d : Dev) : Dev :=
  let n := openCommits p.1 p.2 d
  if mirroring d = false ∨ n = 0 ∨ (getRun p.1 d).running = false then d
  else slipRequest p.1 ((List.range n).foldl (fun d _ => slipEvent evMirrorLate (srcPort 8) p.1 d) d)

/-- R372: while the SOURCE 1 level is above 0 each Running run is sent its request at every tick, and one with END at the
first tick at 0. -/
def source1Requests (d : Dev) : Dev :=
  let l := sourceLevel d
  let d1 := { d with pow.source1 := l }
  if l = 0 ∧ d.pow.source1 = 0 then d1
  else
    (runningTenants d1).foldl (fun d t =>
      requestStretch t 1 l (l == 0) (d.clk.frame + (getRun t d).con.notice) d) d1

/-! ## The tick -/

/-- Steps a to e at tick `p`. -/
def applyTick (p : PlannedTick) (d0 : Dev) : Dev :=
  let seqBad := clapperRole d0 == 0 && d0.clk.placed && p.frame != (d0.clk.frame + 1) % 2 ^ 48
  let newK := p.period != periodK d0
  let n := p.frame
  let dA := tickFaults seqBad newK (placeTick p (closeWindows d0))
  let ended := (runningTenants dA).map fun t => (t, (getRun t dA).index)
  let dB := twinTick ((runTenants dA).foldl (fun d t => stepB n t d) dA)
  let begins := (runTenants dB).filter fun t => beginsAt n (getRun t dB) dB
  let dC := handoverTick (deposeTick (stepTeardowns (applyDecided n (retireEnds dB))))
  let dD := thermalLevel dC
  let dE := countStretched (powerLevel (resumeTick ((runTenants dD).foldl (fun d t => stepE begins t d) dD)))
  let dF := (ended.filter fun x => begins.contains x.1).foldl (fun d x => mirrorLate x d) dE
  let dG := if p.late then lateSlips dF else dF
  readyTick (collectorTick (autoStarts (source1Requests dG)))

/-- LOCAL_TICK: the earliest planned tick whose time has come is placed, on a device that is ready. -/
def localTick (d : Dev) : Dev :=
  match dueTick d with
  | none => d
  | some p => if d.boot.state = 1 then applyTick p d else d

/-! ## The boundary preparation and the absence of ticks -/

/-- VCORE ramps up for an operating point that the next tick raises (R478). -/
def rampVcore (d : Dev) : Dev :=
  match d.mgmt.commit.decided, Sparse.get none d.mgmt.shadow (entryKey 0x2001 1) with
  | some (0, _, _), some v => { d with clk.vcoreMv := max d.clk.vcoreMv (oppMv v) }
  | _, _ => d

/-- BOUNDARY_PREPARATION, once a frame at P − 1 us: calibration on every port that is up, the evaluation of a commit. -/
def boundaryPreparation (d : Dev) : Dev :=
  if d.clk.placed ∧ d.clk.prepared = false ∧ d.boot.state = 1 ∧ d.clk.lastTick + framePeriod d ≤ d.now + tUs then
    rampVcore (frameEvaluation ((List.range 9).foldl (fun d p => calibrationRequest p d) { d with clk.prepared := true }))
  else d

/-- Whether a run is in one of the states whose teardown R24 rules. -/
def preRun (r : Run) : Bool := r.state == .created || r.state == .loaded || r.state == .armed

/-- TEARDOWN_NO_TICK: with no tick for 2 P, the teardowns of runs that do not run take effect. -/
def teardownNoTick (d : Dev) : Dev :=
  if noTick d then
    (runTenants d).foldl (fun d t =>
      if (getRun t d).teardownPending && preRun (getRun t d) then teardownNow t true d else d) d
  else d

def execLocalTick (s : State) : Host.Outcome State Fault Refusal := onDev true localTick s
def execGuardBand (tenant : Nat) (s : State) : Host.Outcome State Fault Refusal :=
  onDev (decide (tenant < 1024)) (guardBand tenant) s
def execBoundaryPreparation (s : State) : Host.Outcome State Fault Refusal := onDev true boundaryPreparation s
def execTeardownNoTick (s : State) : Host.Outcome State Fault Refusal := onDev true teardownNoTick s

end Sys2Proof.Machine
end

