-- ==== Sys2Proof/Machine/Mctp.lean ====
section
/-!
DEFINITION. The MCTP endpoint beside Tabing: the control commands of R380, the dynamic address of I3C, and the SPDM
responder (R392, R445). The layouts of these messages are those of DSP0236 and DSP0274, which the spec names and does
not reproduce (PRESUMED, log entry 40).
-/
namespace Sys2Proof.Machine

/-- The transports that carry MCTP: 1 PCI Express, 2 I3C. -/
def mctpOk (tr : Nat) : Bool := tr == 1 || tr == 2

/-- Whether MCTP messages are taken: the device has started, and the link of the transport is up. -/
def mctpOpen (tr : Nat) (d : Dev) : Bool := d.boot.started && (tr == 2 || d.pcie.linkUp)

/-! ## MCTP control (R380) -/

/-- An answer to a control command: message type 0, the request's number of 5 bits with Rq and D clear, the command,
the completion code, the rest. -/
def controlAnswer (tr id cmd code : Nat) (body : Bytes) (d : Dev) : Dev :=
  emit (.mctp tr (leBytes 1 0 ++ leBytes 1 (id % 32) ++ leBytes 1 cmd ++ leBytes 1 code ++ body)) d

/-- A row over a transport. -/
def onMctp (tr : Nat) (f : Dev → Dev) (d : Dev) : Dev := if mctpOpen tr d then f d else d

/-- The EID on a transport. -/
def eidOf (tr : Nat) (d : Dev) : Nat := if tr = 1 then d.mgmt.eidPcie else d.mgmt.eidI3c
def setEid (tr eid : Nat) (d : Dev) : Dev :=
  if tr = 1 then { d with mgmt.eidPcie := eid } else { d with mgmt.eidI3c := eid }

/-- Set Endpoint ID: operations 0 set and 1 force assign an EID from 8 to 254; others change none. -/
def setEndpointId (tr id op eid : Nat) (d : Dev) : Dev :=
  if op % 4 = 3 then controlAnswer tr id 1 0 (leBytes 1 0 ++ leBytes 1 (eidOf tr d) ++ leBytes 1 0) d
  else if op % 4 = 2 ∨ eid < 8 ∨ 254 < eid then controlAnswer tr id 1 2 [] d
  else controlAnswer tr id 1 0 (leBytes 1 0 ++ leBytes 1 eid ++ leBytes 1 0) (setEid tr eid d)

/-- Get Endpoint ID: a simple endpoint with a dynamic EID. -/
def getEndpointId (tr id : Nat) (d : Dev) : Dev :=
  controlAnswer tr id 2 0 (leBytes 1 (eidOf tr d) ++ leBytes 2 0) d

/-- Get Endpoint UUID: that of 0x1000:0x07. -/
def getEndpointUuid (tr id : Nat) (d : Dev) : Dev := controlAnswer tr id 3 0 (leBytes 16 Config.deviceUuid) d

/-- Message types of the device: 0x05 and 0x06 SPDM, 0x7E vendor defined. -/
def mctpTypes : List Nat := [0x05, 0x06, 0x7E]

/-- Get MCTP Version Support, of a message type, of control (0) or of the base protocol (0xFF). -/
def getVersionSupport (tr id typ : Nat) (d : Dev) : Dev :=
  if mctpTypes.contains typ || typ == 0 || typ == 0xFF then
    let vs := Config.mctpVersions typ
    controlAnswer tr id 4 0 (leBytes 1 vs.length ++ vs.flatMap fun v => leBytes 4 v.toNat) d
  else controlAnswer tr id 4 0x80 [] d

/-- Get Message Type Support. -/
def getTypeSupport (tr id : Nat) (d : Dev) : Dev :=
  controlAnswer tr id 5 0 (leBytes 1 mctpTypes.length ++ mctpTypes.flatMap (leBytes 1)) d

/-- Get Vendor Defined Message Support: one set, of the Isvas PCI vendor ID, most significant byte first; its command
set is a free value (log entry 40). -/
def getVendorSupport (tr id selector : Nat) (d : Dev) : Dev :=
  if selector = 0 then
    let x := freshValue 16 d
    controlAnswer tr id 6 0 (leBytes 1 0xFF ++ leBytes 1 0 ++ leBytes 1 0x1F ++ leBytes 1 0x3A ++ leBytes 2 x.1) x.2
  else controlAnswer tr id 6 2 [] d

/-- ENTDAA: a target with no dynamic address takes the one the controller assigns. -/
def enterAddress (addr : Nat) (d : Dev) : Dev :=
  if d.boot.started = true ∧ d.mgmt.i3cAddress = 0 then { d with mgmt.i3cAddress := addr % 128 } else d

def execSetEndpointId (tr id op eid : Nat) (s : State) : Host.Outcome State Fault Refusal :=
  onDev (mctpOk tr) (onMctp tr (setEndpointId tr id op eid)) s
def execGetEndpointId (tr id : Nat) (s : State) : Host.Outcome State Fault Refusal :=
  onDev (mctpOk tr) (onMctp tr (getEndpointId tr id)) s
def execGetEndpointUuid (tr id : Nat) (s : State) : Host.Outcome State Fault Refusal :=
  onDev (mctpOk tr) (onMctp tr (getEndpointUuid tr id)) s
def execGetMctpVersionSupport (tr id typ : Nat) (s : State) : Host.Outcome State Fault Refusal :=
  onDev (mctpOk tr) (onMctp tr (getVersionSupport tr id typ)) s
def execGetMessageTypeSupport (tr id : Nat) (s : State) : Host.Outcome State Fault Refusal :=
  onDev (mctpOk tr) (onMctp tr (getTypeSupport tr id)) s
def execGetVendorDefinedMessageSupport (tr id selector : Nat) (s : State) : Host.Outcome State Fault Refusal :=
  onDev (mctpOk tr) (onMctp tr (getVendorSupport tr id selector)) s
def execEntdaa (addr : Nat) (s : State) : Host.Outcome State Fault Refusal := onDev true (enterAddress addr) s

/-! ## SPDM (R392) -/

/-- An SPDM message leaves: type 0x05, or 0x06 inside the session. -/
def spdmSend (tr : Nat) (secured : Bool) (body : Bytes) (d : Dev) : Dev :=
  emit (.mctp tr (leBytes 1 (if secured then 6 else 5) ++ body)) d

/-- What the responder answers past what the spec states. -/
def spdmReply (tr : Nat) (secured : Bool) (msg : Bytes) (d : Dev) : Dev :=
  spdmSend tr secured (Config.spdmAnswer d.freeUsed msg) { d with freeUsed := d.freeUsed + 1 }

/-- The session ends. -/
def endSession (d : Dev) : Dev := { d with mgmt.spdmSession := false, mgmt.diagnostic := false }

/-- SPDM_FAIL: a failed authentication, signature check or MAC ends the session. -/
def spdmFail (tr : Nat) (d : Dev) : Dev := raise 4 evSpdmFail (srcTransport tr) (endSession d)

/-- Whether a message carries something to check: a MAC of a secured message, the requester's FINISH (0xE5), or its
delivered certificate or challenge answer (0xEB). -/
def spdmChecked (secured : Bool) (msg : Bytes) : Bool :=
  secured || fieldAt msg 1 1 == 0xE5 || fieldAt msg 1 1 == 0xEB

/-- What an accepted message does to the session: FINISH opens it, a diagnostic one where the requester authenticated
with a chain to the Isvas diagnostic root; END_SESSION (0xEC) ends it. -/
def spdmAdvance (msg : Bytes) (d : Dev) : Dev :=
  if fieldAt msg 1 1 = 0xE5 then
    { d with mgmt.spdmSession := true, mgmt.diagnostic := Config.spdmChainsToDiagnosticRoot d.freeUsed msg }
  else if fieldAt msg 1 1 = 0xEC then endSession d
  else d

/-- SPDM_MESSAGE: a request is answered; `secured` is message type 0x06. -/
def spdmMessage (tr : Nat) (secured : Bool) (msg : Bytes) (d : Dev) : Dev :=
  let good := !spdmChecked secured msg || Config.spdmAccepts d.freeUsed msg
  let d1 := spdmReply tr secured msg d
  if good then spdmAdvance msg d1 else spdmFail tr d1

/-- The persistent dictionary values that differ from their defaults, in ascending order of index and subindex, each
with its key (block 5). -/
def persistentBytes (d : Dev) : Bytes :=
  d.mgmt.dict.flatMap fun p =>
    match entryOf (p.1 / 256) (p.1 % 256), p.2 with
    | some r, some v => if r.pers then leBytes 4 p.1 ++ leBytes r.len v else []
    | _, _ => []

/-- The content of measurement block b (R392, Table 20.8). -/
def measurement (b : Nat) (d : Dev) : Bytes :=
  match b with
  | 1 => leBytes 48 (Config.sha384 Config.bootRom)
  | 2 => leBytes 48 d.boot.stage1Digest
  | 3 => leBytes 48 d.boot.runtimeDigest
  | 4 => d.boot.measured
  | _ => leBytes 48 (Config.sha384 (persistentBytes d))

/-- A block as it is returned: index, specification 1, size, kind (a free value, log entry 9), value size,
value. -/
def measurementBlock (b : Nat) (d : Dev) : Bytes × Dev :=
  let v := measurement b d
  let k := freshValue 8 d
  (leBytes 1 b ++ leBytes 1 1 ++ leBytes 2 (v.length + 3) ++ leBytes 1 k.1 ++ leBytes 2 v.length ++ v, k.2)

/-- The blocks that an operation asks for: one, all (0xFF), or only their number (0). -/
def blocksAsked (op : Nat) : List Nat := if op = 0xFF then [1, 2, 3, 4, 5] else if op = 0 then [] else [op]

/-- The measurement record of a list of blocks. -/
def measurementRecord (bs : List Nat) (d : Dev) : Bytes × Dev :=
  bs.foldl (fun r b => let x := measurementBlock b r.2; (r.1 ++ x.1, x.2)) ([], d)

/-- GET_MEASUREMENTS: the blocks an operation asks for, with the responder's nonce and, where asked, a signature of the
leaf key. A block that does not exist, or a version that is not 1.2 or 1.3, is answered as DSP0274 says. -/
def getMeasurements (tr : Nat) (secured : Bool) (msg : Bytes) (d : Dev) : Dev :=
  let op := fieldAt msg 3 1
  let ver := fieldAt msg 0 1
  if secured && !Config.spdmAccepts d.freeUsed msg then spdmFail tr (spdmReply tr secured msg d)
  else if (ver ≠ 0x12 ∧ ver ≠ 0x13) ∨ (5 < op ∧ op ≠ 0xFF) then spdmReply tr secured msg d
  else
    let bs := blocksAsked op
    let r := measurementRecord bs d
    let nonce := freshValue 256 r.2
    let body := leBytes 1 ver ++ leBytes 1 0x60 ++ leBytes 1 (if op = 0 then 5 else 0) ++ leBytes 1 0 ++
      leBytes 1 bs.length ++ leBytes 3 r.1.length ++ r.1 ++ leBytes 32 nonce.1 ++ leBytes 2 0
    let sig := if bitOf (fieldAt msg 2 1) 0 then Config.leafSignature nonce.2.freeUsed (msg ++ body) else []
    spdmSend tr secured (body ++ sig) { nonce.2 with freeUsed := nonce.2.freeUsed + 1 }

def execSpdmMessage (tr : Nat) (secured : Bool) (msg : List (BitVec 8)) (s : State) : Host.Outcome State Fault Refusal :=
  onDev (mctpOk tr) (onMctp tr (spdmMessage tr secured msg)) s
def execGetMeasurements (tr : Nat) (secured : Bool) (msg : List (BitVec 8)) (s : State) :
    Host.Outcome State Fault Refusal :=
  onDev (mctpOk tr) (onMctp tr (getMeasurements tr secured msg)) s

end Sys2Proof.Machine
end

