-- ==== Sys2Proof/Machine/Tabing.lean ====
section
/-!
DEFINITION. The Tabing endpoint (chapter 17): messages, the idempotency window, the access checks, reads and writes,
the lease, and the rows whose message is a request of their own.
-/
namespace Sys2Proof.Machine

/-! ## Messages (R377) -/

/-- A message as its header gives it. -/
structure Msg where
  kind : Nat
  tid : Nat
  idx : Nat
  sub : Nat
  flags : Nat
  lease : Nat
  len : Nat
  off : Nat
  value : Bytes
  deriving DecidableEq, Repr

/-- The fields of a message's header; the value is what follows it. -/
def parseMsg (b : Bytes) : Msg :=
  { kind := fieldAt b 1 1, tid := fieldAt b 2 2, idx := fieldAt b 4 2, sub := fieldAt b 6 1, flags := fieldAt b 7 1
    lease := fieldAt b 8 4, len := fieldAt b 0xC 2, off := fieldAt b 0x10 4, value := b.drop 20 }

/-- Whether a READ names a streamed entry: its LEN is the length of the piece, and no value follows. -/
def readsPiece (m : Msg) : Bool := m.kind == 1 && (entryOf m.idx m.sub).any (·.streamed)

/-- Whether a message is taken: VER, a KIND that is a request or an acknowledgement, reserved bits 0, LEN the number
of bytes that followed. Bytes after an Ethernet frame's message are ignored. -/
def wellFormedMsg (tr : Nat) (b : Bytes) : Bool :=
  let m := parseMsg b
  let follows := if readsPiece m then 0 else m.len
  decide (20 ≤ b.length) && decide (fieldAt b 0 1 = 1) && [1, 2, 3, 0x85].contains m.kind &&
  decide (m.flags < 4) && decide (fieldAt b 0xF 1 = 0) && decide (m.len ≤ 1024) &&
  (m.value.length == follows || (tr == 3 && decide (follows ≤ m.value.length)))

/-- A message without what its transport added. -/
def trimMsg (m : Msg) : Msg := { m with value := m.value.take (if readsPiece m then 0 else m.len) }

/-! ## Roles and rights (R383, R394) -/

/-- Whether a role has some right to an entry. -/
def hasRight (r : EntryRow) (role : Role) : Bool := r.prof.canRead role || r.prof.canWrite role

/-- Entries served while booting and in minimal mode (Table 20.5). -/
def servedEarly (idx sub : Nat) : Bool :=
  [0x1000, 0x1001, 0x1010, 0x1100, 0x1200, 0x1400, 0x3001, 0x7000, 0x7001, 0x6800, 0x6801, 0x6802, 0x6803, 0x8000, 0xF000,
    0xF001].contains idx || (idx == 0x3000 && [0, 1, 2, 0x10, 0x11].contains sub)

/-- Whether the diagnostic window's address lies in HBM or a tile window. -/
def windowDark (off : Nat) (d : Dev) : Bool :=
  let a := dictGet 0xF000 1 d + off
  decide (a < hbmEnd) || decide (0xF000000000 ≤ a)

/-- Step 3 of Table 17.3: what the boot state does not serve. -/
def bootAbort (m : Msg) (d : Dev) : Nat :=
  if d.boot.state = 1 then 0
  else if servedEarly m.idx m.sub = false then (if d.boot.state = 0 then 0x0A else 0x0C)
  else if m.idx = 0xF000 ∧ m.sub = 2 ∧ windowDark m.off d then 0x0C
  else 0

/-- Steps 1 to 5 of Table 17.3: the entry, the boot state, the diagnostic session, the right. -/
def rightAbort (role : Role) (secured : Bool) (m : Msg) (d : Dev) : Nat :=
  let rows := entryRows.filter (·.hasIndex m.idx)
  if (rows.any fun r => hasRight r role) = false then 0x01
  else if m.sub ≠ 0 ∧ ((entryOf m.idx m.sub).any fun r => hasRight r role) = false then 0x02
  else if bootAbort m d ≠ 0 then bootAbort m d
  else if 0xF000 ≤ m.idx ∧ (secured && d.mgmt.diagnostic) = false then 0x0B
  else if m.sub = 0 then (if m.kind = 2 then 0x04 else 0)
  else
    match entryOf m.idx m.sub with
    | none => 0x02
    | some r =>
      if m.kind = 2 then (if r.prof.canWrite role then 0 else 0x04) else if r.prof.canRead role then 0 else 0x05

/-- The range of a physical piece: whole in one range that Table 7.2 does not reserve (R401). -/
def pieceExists (a n : Nat) : Bool :=
  decide (a + n ≤ hbmEnd) ||
  (decide (0 < n) && physExists a && physExists (a + n - 1) && decide (a / 0x1000000 = (a + n - 1) / 0x1000000) &&
    (List.range 5).all fun i =>
      let edge := a / 0x1000000 * 0x1000000 + [0x600000, 0x800000, 0x900000, 0x980000, 0xA00000].getD i 0
      !(decide (a < edge) && decide (edge < a + n)))

/-- Step 8 for a piece of a streamed entry of `len` bytes. -/
def pieceAbort (len : Nat) (m : Msg) (d : Dev) : Nat :=
  if len < m.off + m.len then 0x06
  else if m.idx = 0x8000 ∧ (m.off % 32 ≠ 0 ∨ m.len % 32 ≠ 0) then 0x06
  else if m.idx = 0xF000 ∧ pieceExists (dictGet 0xF000 1 d + m.off) m.len = false then 0x06
  else 0

/-- Steps 7 and 8 of a READ. -/
def readAbort (r : EntryRow) (m : Msg) (d : Dev) : Nat :=
  if r.streamed then (if m.len % 4 ≠ 0 then 0x03 else pieceAbort r.len m d)
  else if m.len ≠ 0 ∨ m.off ≠ 0 then 0x03
  else 0

/-- Step 6: the writer holds the lease and names its epoch. -/
def holdsLease (tr addr : Nat) (d : Dev) : Bool :=
  d.mgmt.lease.role != 0 && d.mgmt.lease.transport == tr && d.mgmt.lease.address == addr
def leaseAbort (tr addr epoch : Nat) (d : Dev) : Nat :=
  if holdsLease tr addr d && d.mgmt.lease.epoch == epoch then 0 else 0x07

/-- Whether an entry is staged or phased. -/
def EntryRow.staged (r : EntryRow) : Bool := r.app == .staged || r.app == .phased

/-- Step 11 of a WRITE: what the entry's own chapter refuses at the write. -/
def busyAbort (m : Msg) (r : EntryRow) (v : Nat) (d : Dev) : Nat :=
  if entryBusy m.idx m.sub v d then 0x0A
  else if r.staged && shadowFull m.idx m.sub r.len d then 0x0A
  else if m.idx = 0x1400 ∧ d.mgmt.frozen then 0x0A
  else if m.idx = 0x1010 ∧ m.sub = 1 ∧ d.boot.update ≠ 2 then 0x0A
  else if m.idx = 0x1010 ∧ m.sub = 2 then updateAbort v d
  else if m.idx = 0x1100 then bootControlAbort v d
  else 0

/-- Steps 6 to 11 of a WRITE of an entry. -/
def writeAbort (tr addr : Nat) (r : EntryRow) (m : Msg) (d : Dev) : Nat :=
  let v := keptValue m.idx m.sub (leNat m.value)
  if leaseAbort tr addr m.lease d ≠ 0 then 0x07
  else if (if r.streamed then m.len % 4 ≠ 0 else m.len ≠ r.len ∨ m.off ≠ 0) then 0x03
  else if r.streamed && pieceAbort r.len m d != 0 then 0x06
  else if !r.streamed && !valueGood m.idx m.sub v d then 0x06
  else if bitOf m.flags 1 && r.staged then 0x08
  else if r.staged && d.mgmt.frozen then 0x09
  else busyAbort m r v d

/-! ## Reads -/

/-- The diagnostic window (R401): stored bits; uncorrectable words are only counted. -/
def windowRead (a n : Nat) (d : Dev) : Bytes × Dev :=
  let bad := (errsIn d.mem.err a n).filter fun p => p.2 == 2
  let r := physRead a n d
  (r.1, bad.foldl (fun d p =>
    if p.1 * 8 < hbmEnd then countUncorrectable (p.1 * 8) d
    else modTCount ((p.1 * 8 - 0xF000000000) / 0x1000000) (fun c => { c with corrected := bumpTable c.corrected 8 1 }) d) r.2.2)

/-- A write of the window generates check bits: words it covers hold no error, one it covers in part is written
whole as it stands. -/
def windowWrite (a : Nat) (bs : Bytes) (d : Dev) : Dev := (physWrite a bs d).2

/-- The value of a read: the staged one where SHADOW asks for it, else the one in effect. -/
def readValue (m : Msg) (r : EntryRow) (d : Dev) : Bytes × Dev :=
  if m.idx = 0x8000 ∧ m.sub = 2 then (ringPiece d.ev.log d.ev.nextSeq 4096 m.off m.len, d)
  else if m.idx = 0x8000 ∧ m.sub = 3 then (ringPiece d.ev.persistent d.ev.persistentCount 256 m.off m.len, d)
  else if m.idx = 0xF000 ∧ m.sub = 2 then windowRead (dictGet 0xF000 1 d + m.off) m.len d
  else if bitOf m.flags 0 && r.staged then
    match Sparse.get none d.mgmt.shadow (entryKey m.idx m.sub) with
    | some v => (leBytes r.len v, d)
    | none => (entryBytes m.idx m.sub d, d)
  else (entryBytes m.idx m.sub d, d)

/-- A READ: its abort code, value and what it leaves. -/
def doRead (role : Role) (secured : Bool) (m : Msg) (d : Dev) : Nat × Bytes × Dev :=
  let c := rightAbort role secured m d
  if c ≠ 0 then (c, [], d)
  else if m.sub = 0 then (if m.len ≠ 0 ∨ m.off ≠ 0 then (0x03, [], d) else (0, entryBytes m.idx 0 d, d))
  else
    match entryOf m.idx m.sub with
    | none => (0x02, [], d)
    | some r =>
      let c := readAbort r m d
      if c ≠ 0 then (c, [], d)
      else
        let v := readValue m r d
        (0, v.1, v.2)

/-! ## Writes (R384) -/

/-- The persistent ring and its count are cleared (R400). -/
def clearRing (d : Dev) : Dev := { d with ev.persistent := [], ev.persistentCount := 0 }

/-- An injected error is armed (R402): a memory word at the window's address goes bad and acts at its next access;
the others wait for their flit or addition. -/
def armError (v : Nat) (d : Dev) : Dev :=
  if bitsOf v 0 4 = 1 then
    let a := dictGet 0xF000 1 d
    if physExists a then setErr (a / 8) (if bitOf v 4 then 2 else 1) d else d
  else
    let w := bitsOf v 0 4 + bitsOf v 8 4 * 256
    { d with mem.armed := if d.mem.armed.contains w then d.mem.armed else d.mem.armed ++ [w] }

/-- A tenant's action: halt request, stretch request, collector flush (Table 15.1). -/
def tenantAction (t sub v : Nat) (d : Dev) : Dev :=
  if sub = 5 then sendStretch t { target := bitsOf v 0 48, source := 4, logf := 0, fin := false } d
  else if sub = 6 then requestStretch t 3 (bitsOf v 64 8) (bitsOf v 72 8 == 1) (bitsOf v 0 48) d
  else flushStream t v d

/-- A train command reaches a port that is enabled (R278). -/
def trainNow (p : Nat) (d : Dev) : Dev := if dictGet (0x4000 + p) 1 d = 1 then startTraining p d else d

/-- An immediate entry takes effect. -/
def writeNow (m : Msg) (v : Nat) (d : Dev) : Dev :=
  if m.idx = 0x1010 then (if m.sub = 1 then imageData m.off m.value d else updateControl v d)
  else if m.idx = 0x1100 then d
  else if m.idx = 0x1400 then (if m.sub = 1 then startCommit (leNat m.value) d else discardShadow d)
  else if 0x4000 ≤ m.idx ∧ m.idx ≤ 0x4008 then trainNow (m.idx - 0x4000) d
  else if 0x5000 ≤ m.idx ∧ m.idx ≤ 0x53FF then tenantAction (m.idx - 0x5000) m.sub v d
  else if m.idx = 0x8000 then clearRing d
  else if m.idx = 0xF000 ∧ m.sub = 2 then windowWrite (dictGet 0xF000 1 d + m.off) m.value d
  else if m.idx = 0xF001 then armError v d
  else putEntry m.idx m.sub v d

/-- A WRITE: its abort code, the value of its response (the commit number, R387) and what it leaves. -/
def doWrite (tr addr : Nat) (secured : Bool) (m : Msg) (d : Dev) : Nat × Bytes × Dev :=
  let c := rightAbort (roleOf tr) secured m d
  if c ≠ 0 then (c, [], d)
  else
    match entryOf m.idx m.sub with
    | none => (0x02, [], d)
    | some r =>
      let c := writeAbort tr addr r m d
      let v := keptValue m.idx m.sub (leNat m.value)
      if c ≠ 0 then (c, [], d)
      else if r.staged then
        (0, [], { d with mgmt.shadow := Sparse.set none d.mgmt.shadow (entryKey m.idx m.sub) (some v) })
      else
        let d1 := writeNow m v d
        (0, if m.idx = 0x1400 ∧ m.sub = 1 then leBytes 8 d1.mgmt.commits else [], d1)

/-! ## The lease (R385) -/

/-- How long a lease lasts: 6 s. -/
def leaseTime : Nat := 6000 * tMs

/-- The lease is granted to a requester with the next epoch. -/
def grantLease (tr addr : Nat) (d : Dev) : Dev :=
  { d with mgmt.lease := { role := roleCode (roleOf tr), transport := tr, address := addr
                           epoch := (d.mgmt.lease.epoch + 1) % 2 ^ 32, expiry := d.now + leaseTime } }

/-- The 6 s start again. -/
def renewLease (d : Dev) : Dev := { d with mgmt.lease.expiry := d.now + leaseTime }

/-- A role's bit in the force mask. -/
def mayForce (tr : Nat) (d : Dev) : Bool := bitOf (dictGet 0x1200 2 d) (roleCode (roleOf tr) - 1)

/-- The lease is forced: as an acquire, whoever holds it. -/
def forceLease (tr addr : Nat) (d : Dev) : Dev :=
  let d1 := raise 4 evLeaseForced (srcTransport tr) (bumpMgmt 7 d)
  if holdsLease tr addr d then renewLease d1
  else grantLease tr addr (if d.mgmt.lease.role = 0 then d1 else endLease d1)

/-- The answer to a granted operation: the epoch and the time to expiry in milliseconds. -/
def leaseAnswer (d : Dev) : Bytes := leBytes 4 d.mgmt.lease.epoch ++ leBytes 4 (leaseLeft d)

/-- A LEASE request: its abort code, response value and what it leaves. -/
def doLease (tr addr : Nat) (m : Msg) (d : Dev) : Nat × Bytes × Dev :=
  let op := fieldAt m.value 0 1
  let good := holdsLease tr addr d && d.mgmt.lease.epoch == fieldAt m.value 4 4
  let ok (e : Dev) : Nat × Bytes × Dev := (0, leaseAnswer e, e)
  if m.value.length ≠ 8 then (0x03, [], d)
  else if op = 1 then
    if d.mgmt.lease.role = 0 then ok (grantLease tr addr d)
    else if holdsLease tr addr d then ok (renewLease d)
    else (0x07, [], d)
  else if op = 2 then (if good then ok (renewLease d) else (0x07, [], d))
  else if op = 3 then (if good then ok (endLease d) else (0x07, [], d))
  else if op = 4 then (if mayForce tr d then ok (forceLease tr addr d) else (0x07, [], d))
  else (0x06, [], d)

/-- LEASE_EXPIRY: a lease that has not been renewed for 6 s ends. -/
def leaseExpiry (d : Dev) : Dev :=
  if d.mgmt.lease.role ≠ 0 ∧ d.mgmt.lease.expiry ≤ d.now then
    raise 4 evLeaseExpired (srcTransport d.mgmt.lease.transport) (endLease d)
  else d

/-! ## The idempotency window (R379) -/

/-- Whether a window is a requester's. -/
def Window.of (w : Window) (tr addr : Nat) : Bool := w.transport == tr && w.address == addr

/-- Whether an answer is still kept: for 10 s. -/
def answerKept (a : Answer) (d : Dev) : Bool := decide (d.now < a.at_ + 10000 * tMs)

/-- The response remembered for a TID. -/
def remembered (tr addr tid : Nat) (d : Dev) : Option Bytes :=
  (d.mgmt.windows.find? (·.of tr addr)).bind fun w =>
    (w.answers.find? fun a => a.tid == tid && answerKept a d).map (·.response)

/-- The window that has been idle longest. -/
def oldestWindow : List Window → Option Window
  | [] => none
  | w :: ws => some (ws.foldl (fun b x => if x.used < b.used then x else b) w)

/-- A response is remembered: the last 32 of each requester, 64 requesters. -/
def remember (tr addr tid : Nat) (resp : Bytes) (d : Dev) : Dev :=
  let old := (d.mgmt.windows.find? (·.of tr addr)).elim [] (·.answers)
  let kept := old.filter fun a => answerKept a d && a.tid != tid
  let rest := d.mgmt.windows.filter fun w => !w.of tr addr
  let room := if rest.length < 64 then rest else
    match oldestWindow rest with
    | some o => rest.filter (· != o)
    | none => rest
  { d with mgmt.windows := room ++ [{ transport := tr, address := addr, used := d.now
                                      answers := kept.drop (kept.length - 31) ++ [{ tid := tid, response := resp, at_ := d.now }] }] }

/-- A requester that repeats a request is heard from again. -/
def touchWindow (tr addr : Nat) (d : Dev) : Dev :=
  { d with mgmt.windows := d.mgmt.windows.map fun w => if w.of tr addr then { w with used := d.now } else w }

/-! ## The endpoint (R374, R376) -/

/-- A response: KIND + 0x80 with TID, INDEX and SUB of the request. Table 17.1 gives it no FLAGS and no LEASE: free
values (log entry 58). OFFSET is that of the request for a streamed entry. -/
def tabingResponse (m : Msg) (code : Nat) (v : Bytes) (d : Dev) : Bytes × Dev :=
  let f := freshValue 2 d
  let l := freshValue 32 f.2
  let off := if (entryOf m.idx m.sub).any (·.streamed) then m.off else 0
  (message (m.kind + 0x80) m.tid m.idx m.sub f.1 l.1 code off v, l.2)

/-- NOTIFY_ACK: the holder's acknowledgement removes its notification; the mailbox's next one is then sent. -/
def notifyAck (tr addr : Nat) (m : Msg) (d : Dev) : Dev :=
  let d1 := if tr = 0 then { d with pcie.reqBusy := false } else d
  if holdsLease tr addr d then
    { d1 with mgmt.notices := d1.mgmt.notices.filter fun n => n.seq % 65536 != m.tid }
  else d1

/-- A boot control value acts once the response has left. -/
def afterResponse (m : Msg) (code : Nat) (flash : Bool) (d : Dev) : Dev :=
  if m.kind = 2 ∧ m.idx = 0x1100 ∧ code = 0 then bootControl (leNat m.value) flash d else d

/-- A request is answered for the first time. -/
def answerRequest (tr addr : Nat) (secured flash : Bool) (m : Msg) (d : Dev) : Dev :=
  let r := if m.kind = 1 then doRead (roleOf tr) secured m d
    else if m.kind = 2 then doWrite tr addr secured m d
    else doLease tr addr m d
  let p := tabingResponse m r.1 r.2.1 (if r.1 = 0 then r.2.2 else bumpMgmt 3 r.2.2)
  afterResponse m r.1 flash (sendMessage tr addr p.1 (remember tr addr m.tid p.1 p.2))

/-- The endpoint takes a message: discarded, an acknowledgement, a repeat, or a request. `flash` says that the flash
answers should the message reset the device. -/
def takeMessage (tr addr : Nat) (secured flash : Bool) (b : Bytes) (d : Dev) : Dev :=
  if wellFormedMsg tr b then
    let m := trimMsg (parseMsg b)
    let d1 := bumpMgmt 0 d
    if m.kind = 0x85 then notifyAck tr addr m d1
    else
      match remembered tr addr m.tid d1 with
      | some resp => sendMessage tr addr resp (touchWindow tr addr (bumpMgmt 2 d1))
      | none => answerRequest tr addr secured flash m d1
  else
    let d1 := bumpMgmt 1 d
    if tr = 0 then { d1 with pcie.reqBusy := false } else d1

/-! ## The rows -/

/-- Whether a transport carries messages now: the device has started; the link is up; 10BASE-T1S is enabled; a twin
is configured; the mailbox has room for a response. -/
def transportOpen (tr : Nat) (d : Dev) : Bool :=
  d.boot.started &&
  (match tr with
   | 0 => d.pcie.linkUp && !d.pcie.rspValid
   | 1 => d.pcie.linkUp
   | 2 => true
   | 3 => dictGet 0x6800 1 d == 1
   | 4 => (twinCoord d).isSome
   | _ => false)

/-- The request that a message is, as the rows of the command table tell them apart. -/
inductive MsgKind where
  | read | windowRead | write | imageData | erase | verify | select | warmReset | clear | coldReset | minimal | raiseSvn
  | clearRing | windowWrite | inject | commit | discard | halt | stretch | flush | train
  | acquire | renew | release | force | ack
  deriving DecidableEq, Repr

/-- The request that a WRITE is. -/
def writeRequest (m : Msg) : MsgKind :=
  let v := leNat m.value
  if m.idx = 0x1010 ∧ m.sub = 1 then .imageData
  else if m.idx = 0x1010 ∧ m.sub = 2 then (if v = 1 then .erase else if v = 2 then .verify else if v = 3 then .select else .write)
  else if m.idx = 0x1100 ∧ m.sub = 5 then
    (match v with
     | 1 => .warmReset
     | 2 => .clear
     | 3 => .coldReset
     | 4 => .minimal
     | 5 => .raiseSvn
     | _ => .write)
  else if m.idx = 0x1400 ∧ m.sub = 1 then .commit
  else if m.idx = 0x1400 ∧ m.sub = 4 then .discard
  else if 0x4000 ≤ m.idx ∧ m.idx ≤ 0x4008 ∧ m.sub = 2 then .train
  else if 0x5000 ≤ m.idx ∧ m.idx ≤ 0x53FF then
    (match m.sub with
     | 5 => .halt
     | 6 => .stretch
     | 7 => .flush
     | _ => .write)
  else if m.idx = 0x8000 ∧ m.sub = 4 then .clearRing
  else if m.idx = 0xF000 ∧ m.sub = 2 then .windowWrite
  else if m.idx = 0xF001 ∧ m.sub = 1 then .inject
  else .write

/-- The request that a message is; one of no listed KIND, which is discarded, counts as a read. -/
def requestOf (m : Msg) : MsgKind :=
  if m.kind = 2 then writeRequest m
  else if m.kind = 3 then
    (match fieldAt m.value 0 1 with
     | 2 => .renew
     | 3 => .release
     | 4 => .force
     | _ => .acquire)
  else if m.kind = 0x85 then .ack
  else if m.idx = 0xF000 ∧ m.sub = 2 then .windowRead
  else .read

/-- A row takes the messages that are its own request; another message has a row of its own. -/
def messageRow (q : MsgKind) (tr addr : Nat) (secured flash : Bool) (b : Bytes) (d : Dev) : Dev :=
  if transportOpen tr d && decide (requestOf (parseMsg b) = q) then takeMessage tr addr secured flash b d else d

/-- There are five transports. -/
def trOk (tr : Nat) : Bool := decide (tr < 5)

def execTabingRead (tr addr : Nat) (secured : Bool) (msg : List (BitVec 8)) (s : State) : Host.Outcome State Fault Refusal :=
  onDev (trOk tr) (messageRow .read tr addr secured true msg) s
def execTabingWrite (tr addr : Nat) (secured : Bool) (msg : List (BitVec 8)) (s : State) : Host.Outcome State Fault Refusal :=
  onDev (trOk tr) (messageRow .write tr addr secured true msg) s
def execLeaseAcquire (tr addr : Nat) (secured : Bool) (msg : List (BitVec 8)) (s : State) : Host.Outcome State Fault Refusal :=
  onDev (trOk tr) (messageRow .acquire tr addr secured true msg) s
def execLeaseRenew (tr addr : Nat) (secured : Bool) (msg : List (BitVec 8)) (s : State) : Host.Outcome State Fault Refusal :=
  onDev (trOk tr) (messageRow .renew tr addr secured true msg) s
def execLeaseRelease (tr addr : Nat) (secured : Bool) (msg : List (BitVec 8)) (s : State) : Host.Outcome State Fault Refusal :=
  onDev (trOk tr) (messageRow .release tr addr secured true msg) s
def execLeaseForce (tr addr : Nat) (secured : Bool) (msg : List (BitVec 8)) (s : State) : Host.Outcome State Fault Refusal :=
  onDev (trOk tr) (messageRow .force tr addr secured true msg) s
def execLeaseExpiry (s : State) : Host.Outcome State Fault Refusal := onDev true leaseExpiry s
def execNotifyAck (tr addr : Nat) (secured : Bool) (msg : List (BitVec 8)) (s : State) : Host.Outcome State Fault Refusal :=
  onDev (trOk tr) (messageRow .ack tr addr secured true msg) s
def execCommit (tr addr : Nat) (secured : Bool) (msg : List (BitVec 8)) (s : State) : Host.Outcome State Fault Refusal :=
  onDev (trOk tr) (messageRow .commit tr addr secured true msg) s
def execShadowDiscard (tr addr : Nat) (secured : Bool) (msg : List (BitVec 8)) (s : State) : Host.Outcome State Fault Refusal :=
  onDev (trOk tr) (messageRow .discard tr addr secured true msg) s
def execHaltRequest (tr addr : Nat) (secured : Bool) (msg : List (BitVec 8)) (s : State) : Host.Outcome State Fault Refusal :=
  onDev (trOk tr) (messageRow .halt tr addr secured true msg) s
def execManagementStretch (tr addr : Nat) (secured : Bool) (msg : List (BitVec 8)) (s : State) : Host.Outcome State Fault Refusal :=
  onDev (trOk tr) (messageRow .stretch tr addr secured true msg) s
def execCollectorFlush (tr addr : Nat) (secured : Bool) (msg : List (BitVec 8)) (s : State) : Host.Outcome State Fault Refusal :=
  onDev (trOk tr) (messageRow .flush tr addr secured true msg) s
def execTrainNow (tr addr : Nat) (secured : Bool) (msg : List (BitVec 8)) (s : State) : Host.Outcome State Fault Refusal :=
  onDev (trOk tr) (messageRow .train tr addr secured true msg) s
def execImageData (tr addr : Nat) (secured : Bool) (msg : List (BitVec 8)) (s : State) : Host.Outcome State Fault Refusal :=
  onDev (trOk tr) (messageRow .imageData tr addr secured true msg) s
def execUpdateErase (tr addr : Nat) (secured : Bool) (msg : List (BitVec 8)) (s : State) : Host.Outcome State Fault Refusal :=
  onDev (trOk tr) (messageRow .erase tr addr secured true msg) s
def execUpdateVerify (tr addr : Nat) (secured : Bool) (msg : List (BitVec 8)) (s : State) : Host.Outcome State Fault Refusal :=
  onDev (trOk tr) (messageRow .verify tr addr secured true msg) s
def execUpdateSelect (tr addr : Nat) (secured : Bool) (msg : List (BitVec 8)) (s : State) : Host.Outcome State Fault Refusal :=
  onDev (trOk tr) (messageRow .select tr addr secured true msg) s
def execBootControlWarmReset (tr addr : Nat) (secured : Bool) (msg : List (BitVec 8)) (s : State) : Host.Outcome State Fault Refusal :=
  onDev (trOk tr) (messageRow .warmReset tr addr secured true msg) s
def execBootControlClear (tr addr : Nat) (secured : Bool) (msg : List (BitVec 8)) (s : State) : Host.Outcome State Fault Refusal :=
  onDev (trOk tr) (messageRow .clear tr addr secured true msg) s
def execBootControlColdReset (tr addr : Nat) (secured flash : Bool) (msg : List (BitVec 8)) (s : State) : Host.Outcome State Fault Refusal :=
  onDev (trOk tr) (messageRow .coldReset tr addr secured flash msg) s
def execBootControlMinimal (tr addr : Nat) (secured : Bool) (msg : List (BitVec 8)) (s : State) : Host.Outcome State Fault Refusal :=
  onDev (trOk tr) (messageRow .minimal tr addr secured true msg) s
def execBootControlRaiseSvn (tr addr : Nat) (secured : Bool) (msg : List (BitVec 8)) (s : State) : Host.Outcome State Fault Refusal :=
  onDev (trOk tr) (messageRow .raiseSvn tr addr secured true msg) s
def execClearPersistentRing (tr addr : Nat) (secured : Bool) (msg : List (BitVec 8)) (s : State) : Host.Outcome State Fault Refusal :=
  onDev (trOk tr) (messageRow .clearRing tr addr secured true msg) s
def execDiagnosticWindowRead (tr addr : Nat) (secured : Bool) (msg : List (BitVec 8)) (s : State) : Host.Outcome State Fault Refusal :=
  onDev (trOk tr) (messageRow .windowRead tr addr secured true msg) s
def execDiagnosticWindowWrite (tr addr : Nat) (secured : Bool) (msg : List (BitVec 8)) (s : State) : Host.Outcome State Fault Refusal :=
  onDev (trOk tr) (messageRow .windowWrite tr addr secured true msg) s
def execErrorInjection (tr addr : Nat) (secured : Bool) (msg : List (BitVec 8)) (s : State) : Host.Outcome State Fault Refusal :=
  onDev (trOk tr) (messageRow .inject tr addr secured true msg) s

/-! ## The SMBus twin sideband (R381, R391) -/

/-- What an arriving block does to the message being assembled: the message once LAST has come. -/
def takeFragment (data : Bytes) (d : Dev) : Option Bytes × Dev :=
  let c := fieldAt data 0 1
  let n := c % 64
  let body := data.drop 1
  let prev := if bitOf c 7 then some ({ bytes := [], next := 0, since := d.now } : Assembly) else d.mgmt.smbus
  match prev with
  | none => (none, d)
  | some a =>
    if n ≠ a.next then (none, { d with mgmt.smbus := none })
    else
      let b : Assembly := { a with bytes := a.bytes ++ body, next := (a.next + 1) % 64 }
      if bitOf c 6 then (some b.bytes, { d with mgmt.smbus := none }) else (none, { d with mgmt.smbus := some b })

/-- A block of the twin reaches the device: address, command code 0x54, byte count, fragment control byte and message
bytes, PEC. A block whose PEC fails is refused and its message discarded. -/
def receiveBlock (block : Bytes) (d : Dev) : Dev :=
  let n := block.length
  if (twinCoord d).isNone ∨ fieldAt block 0 1 ≠ ownAddress d * 2 ∨ fieldAt block 1 1 ≠ 0x54 then d
  else if n < 5 ∨ pec (block.take (n - 1)) ≠ block.getD (n - 1) 0 ∨ fieldAt block 2 1 ≠ n - 4 then
    { d with mgmt.smbus := none, mgmt.smbusCounts := bumpTable d.mgmt.smbusCounts 2 1 }
  else
    let r := takeFragment ((block.drop 3).take (n - 4)) d
    match r.1 with
    | some msg =>
      if fieldAt msg 1 1 = 0x81 ∧ fieldAt msg 4 2 = 0x6000 ∧ fieldAt msg 6 1 = 8 then probeReply (fieldAt msg 20 8) r.2
      else takeMessage 4 (0x95 - ownAddress d) false true msg r.2
    | none => r.2

/-- SMBUS_BLOCK_WRITE: `atOnce` says that the device drives a message of its own at the same time. The addresses
differ in their last bit, so the device at 0x4A, which drives the 1, loses and receives; the device at 0x4B wins. -/
def smbusBlockWrite (block : Bytes) (atOnce : Bool) (d : Dev) : Dev :=
  if d.boot.started = false then d
  else if atOnce && !d.mgmt.smbusOut.isEmpty then
    if ownAddress d = 0x4A then receiveBlock block (arbitrationLoss d) else d
  else receiveBlock block { d with mgmt.smbusIdleAt := d.now }

/-- SMBUS_FRAGMENT_TIMEOUT: a message not complete within 35 ms is discarded. -/
def fragmentTimeout (d : Dev) : Dev :=
  match d.mgmt.smbus with
  | some a => if a.since + 35 * tMs ≤ d.now then
      { d with mgmt.smbus := none, mgmt.smbusCounts := bumpTable d.mgmt.smbusCounts 3 1 } else d
  | none => d

def execSmbusBlockWrite (block : List (BitVec 8)) (atOnce : Bool) (s : State) : Host.Outcome State Fault Refusal :=
  onDev true (smbusBlockWrite block atOnce) s
def execSmbusFragmentTimeout (s : State) : Host.Outcome State Fault Refusal := onDev true fragmentTimeout s

end Sys2Proof.Machine
end

