-- ==== Sys2Proof/Machine/Pcie.lean ====
section
/-!
DEFINITION. The registers of the PCI Express functions (chapter 19): the maps of Tables 19.2 to 19.6 and 19.10, the
access rules of R413, invalidations, event rings, the mailbox, MSI-X tables, configuration writes and host reads.
-/
namespace Sys2Proof.Machine

/-! ## The maps -/

/-- A register of a BAR, with its offset in its block or its numbers. -/
inductive BarReg where
  | device (o : Nat)
  | vfvec (t : Nat)
  | block (o : Nat)
  | mailbox (o : Nat)
  | buffer (j : Nat)
  | table (e w : Nat)
  | pba
  | reel (r o : Nat)
  | vfmap (t k : Nat)
  | slot (k o : Nat)
  deriving DecidableEq, Repr

/-- Registers of each block: offset and width. -/
def deviceRegs : List (Nat × Nat) := [(0, 4), (4, 4), (8, 8)]
def blockRegs : List (Nat × Nat) :=
  [(0, 8), (8, 8), (0x10, 8), (0x18, 8), (0x20, 8), (0x28, 4), (0x2C, 4), (0x30, 4), (0x34, 4)]
def mailboxRegs : List (Nat × Nat) := [(0, 4), (4, 4), (8, 4), (0xC, 4), (0x10, 4)]
def reelRegs : List (Nat × Nat) :=
  [(0, 4), (4, 4), (8, 8), (0x10, 8), (0x18, 8), (0x20, 4), (0x24, 4), (0x28, 4), (0x2C, 4), (0x30, 8), (0x38, 8)]
def slotRegs : List (Nat × Nat) := [(0, 8), (8, 4), (0xC, 4), (0x10, 4), (0x14, 4), (0x18, 8)]

/-- A register as it is found: where it starts, its width, what it is. -/
structure BarAt where
  base : Nat
  width : Nat
  reg : BarReg
  deriving DecidableEq, Repr

/-- The register of a block at `start` that holds byte `off`. -/
def findReg (regs : List (Nat × Nat)) (start off : Nat) (f : Nat → BarReg) : Option BarAt :=
  (regs.find? fun p => decide (start + p.1 ≤ off) && decide (off < start + p.1 + p.2)).map fun p =>
    { base := start + p.1, width := p.2, reg := f p.1 }

/-- The MSI-X table and pending bits, at the same offsets in every function (R412). -/
def msixAt (off : Nat) : Option BarAt :=
  if 0x8000 ≤ off ∧ off < 0x8400 then
    some { base := off / 4 * 4, width := 4, reg := .table (off % 0x1000 / 16) (off % 16 / 4) }
  else if 0x9000 ≤ off ∧ off < 0x9008 then some { base := 0x9000, width := 8, reg := .pba }
  else none

/-- The register of the PF that holds byte `off` (Table 19.2). -/
def pfRegAt (off : Nat) : Option BarAt :=
  if off < 0x1000 then findReg deviceRegs 0 off .device
  else if off < 0x2000 then findReg blockRegs 0x1000 off .block
  else if off < 0x2800 then findReg mailboxRegs 0x2000 off .mailbox
  else if off < 0x4000 then
    some { base := off / 0x800 * 0x800, width := 0x800, reg := .buffer ((off - 0x2800) / 0x800) }
  else if off < 0x5000 then some { base := off / 4 * 4, width := 4, reg := .vfvec ((off - 0x4000) / 4) }
  else if off < 0x10000 then msixAt off
  else if off < 0x22000 then findReg reelRegs (off / 64 * 64) off (.reel ((off - 0x10000) / 64))
  else if 0x100000 ≤ off ∧ off < 0x140000 then
    some { base := off / 4 * 4, width := 4, reg := .vfmap ((off - 0x100000) / 256) (off % 256 / 4) }
  else none

/-- The register of a VF that holds byte `off` (Table 19.10). -/
def vfRegAt (off : Nat) : Option BarAt :=
  if off < 0x1000 then findReg blockRegs 0 off .block
  else if off < 0x1800 then findReg slotRegs (off / 32 * 32) off (.slot ((off - 0x1000) / 32))
  else msixAt off

def regAt (fn off : Nat) : Option BarAt := if fn = 0 then pfRegAt off else vfRegAt off

/-- The size of a function's BAR (R411). -/
def barSize (fn : Nat) : Nat := if fn = 0 then 2 ^ 21 else 2 ^ 16

/-! ## Reads -/

def getBlock' (fn : Nat) (d : Dev) : FnBlock := Sparse.get {} d.pcie.blocks fn
def modBlock (fn : Nat) (f : FnBlock → FnBlock) (d : Dev) : Dev :=
  { d with pcie.blocks := Sparse.modify {} d.pcie.blocks fn f }

/-- Table 19.3. -/
def deviceReg (o : Nat) (d : Dev) : Nat :=
  match o with
  | 0 => 1 + Config.stepping % 256 * 2 ^ 8
  | 4 => leNat (entryBytes 0x1100 1 d) % 4 + (if d.fatal then 4 else 0) + leNat (entryBytes 0x1100 2 d) % 2 ^ 16 * 2 ^ 16
  | _ => leNat (entryBytes 0x2000 8 d) % 2 ^ 48

/-- Table 19.4. -/
def blockReg (x : FnBlock) (o : Nat) : Nat :=
  match o with
  | 0x00 => x.invAddr
  | 0x10 => x.invSeq
  | 0x18 => x.invDone
  | 0x20 => x.evrBase
  | 0x28 => x.evrCtl
  | 0x2C => if x.overflow then 1 else 0
  | 0x30 => x.tail % 2 ^ 32
  | 0x34 => x.head
  | _ => 0

/-- Table 19.6. -/
def mailboxReg (o : Nat) (d : Dev) : Nat :=
  let bit (b : Bool) (w : Nat) : Nat := if b then w else 0
  match o with
  | 0x04 => bit d.pcie.reqBusy 1 + bit d.pcie.rspValid 2 + bit d.pcie.ntfValid 4
  | 0x08 => d.pcie.rspLen
  | 0x0C => d.pcie.ntfLen
  | _ => 0

/-- STATE, CLOSING and KEY as R + 0x24 shows them. -/
def reelStatus (x : Reel) : Nat := x.state % 4 + (if x.closing then 4 else 0) + x.key % 256 * 2 ^ 8

/-- Table 19.5. -/
def reelReg (x : Reel) (o : Nat) : Nat :=
  match o with
  | 0x20 => 0
  | 0x24 => reelStatus x + x.openErr % 8 * 2 ^ 16
  | 0x28 => x.head % 2 ^ 32
  | 0x2C => x.tail % 2 ^ 32
  | 0x30 => x.lastSeq
  | 0x38 => 0
  | o => Sparse.get 0 x.regs o

/-- The slot registers (R420). -/
def slotReg (x : Reel) (o : Nat) : Nat :=
  match o with
  | 0x08 => reelStatus x
  | 0x10 => x.head % 2 ^ 32
  | 0x14 => x.tail % 2 ^ 32
  | 0x18 => x.lastSeq
  | _ => 0

/-- Whether a function's MSI-X table has entry `e`. -/
def msixEntryOk (fn e : Nat) (d : Dev) : Bool := decide (e < 64) && (fn == 0 || decide (e < vfCount (fn - 1) d))

/-- An MSI-X table entry's word `w`. -/
def tableReg (fn e w : Nat) (d : Dev) : Nat :=
  if msixEntryOk fn e d then
    let x := Sparse.get {} d.pcie.msix (vectorOf fn e d)
    match w with
    | 0 => x.addr % 2 ^ 32
    | 1 => x.addr / 2 ^ 32
    | 2 => x.data
    | _ => x.control
  else 0

/-- The pending bit array of a function. -/
def pbaReg (fn : Nat) (d : Dev) : Nat :=
  (List.range 64).foldl (fun n e =>
    if msixEntryOk fn e d && Sparse.get false d.pcie.pending (vectorOf fn e d) then n + 2 ^ e else n) 0

/-- The value a register reads. -/
def barValue (fn : Nat) (r : BarReg) (d : Dev) : Nat :=
  match r with
  | .device o => deviceReg o d
  | .vfvec t => vfBase t d % 2 ^ 11 + vfCount t d * 2 ^ 16
  | .block o => blockReg (getBlock' fn d) o
  | .mailbox o => mailboxReg o d
  | .buffer _ => 0
  | .table e w => tableReg fn e w d
  | .pba => pbaReg fn d
  | .reel r o => reelReg (getReel r d) o
  | .vfmap t k => Sparse.get 0 d.pcie.vfmap (64 * t + k)
  | .slot k o =>
    match slotReel (fn - 1) k d with
    | some r => slotReg (getReel r d) o
    | none => 0

/-- Bytes of a mailbox buffer: 0 request, 1 response, 2 notification. -/
def bufferBytes (j off n : Nat) (d : Dev) : Bytes :=
  match j with
  | 0 => Mem.readN d.pcie.reqBuf off n
  | 1 => ((d.pcie.rspBuf ++ fillBytes 2048 0).drop off).take n
  | _ => ((d.pcie.ntfBuf ++ fillBytes 2048 0).drop off).take n

/-- A read of `n` bytes inside one register. -/
def readReg (fn : Nat) (r : BarAt) (off n : Nat) (d : Dev) : Bytes :=
  match r.reg with
  | .buffer j => bufferBytes j (off - r.base) n d
  | g => ((leBytes r.width (barValue fn g d)).drop (off - r.base)).take n

/-! ## Writes -/

/-- An event of an access: the offset, the size and whether it was a write (Table 22.4). -/
def accessEvent (num fn off n : Nat) (write : Bool) (d : Dev) : Dev :=
  fnRaise 4 num fn d (off % 2 ^ 21 + min n 15 * 2 ^ 21 + (if write then 2 ^ 25 else 0))

/-- A refused register write. -/
def refuseReg (fn off n : Nat) (d : Dev) : Dev := accessEvent evRegRefused fn off n true d

/-- VFVEC: COUNT changes only while VF Enable is 0, from 1 to 64, with at most 1,984 over all VFs (R415). -/
def vfvecWrite (t v : Nat) (d : Dev) : Dev :=
  let c := bitsOf v 16 7
  let sum := (List.range 1024).foldl (fun n u => n + (if u = t then c else vfCount u d)) 0
  if d.pcie.vfEnable ∨ c = 0 ∨ 64 < c ∨ 1984 < sum then refuseReg 0 (0x4000 + 4 * t) 4 d
  else { d with pcie.vfvec := Sparse.set 1 d.pcie.vfvec t c }

/-- The offset of a register of a function block in its BAR. -/
def blockOff (fn o : Nat) : Nat := if fn = 0 then 0x1000 + o else o

/-- INV_CTL: an invalidation is submitted (R418). COUNT 0 lies outside its range and is refused as a range would be. -/
def invSubmit (fn v : Nat) (d : Dev) : Dev :=
  let x := getBlock' fn d
  let all := bitOf v 10
  let pages := bitsOf v 16 32
  if !all && (pages == 0 || decide (2 ^ 48 < x.invAddr + pages * 65536)) then refuseReg fn (blockOff fn 8) 8 d
  else if 64 ≤ d.mem.invalidations.length then fnRaise 4 evInvOverflow fn d
  else
    modBlock fn (fun x => { x with invSeq := (x.invSeq + 1) % 2 ^ 64 })
      { d with mem.invalidations := d.mem.invalidations ++
          [{ fn := fn, tenant := if fn = 0 then bitsOf v 0 10 else fn - 1, va := x.invAddr
             pages := pages, all := all, intr := bitOf v 48 }] }

/-- The event ring's control: ENABLE going from 0 to 1 takes EVR_BASE and LOG2 and sets EVR_TAIL to 0; a LOG2 outside 6
to 16 is then refused. -/
def evrCtlWrite (fn v : Nat) (d : Dev) : Dev :=
  let w := bitsOf v 0 5 + bitsOf v 8 2 * 2 ^ 8
  let x := getBlock' fn d
  if bitOf w 8 && !bitOf x.evrCtl 8 then
    if bitsOf v 0 5 < 6 ∨ 16 < bitsOf v 0 5 then refuseReg fn (blockOff fn 0x28) 4 d
    else modBlock fn (fun x => { x with evrCtl := w, ringBase := x.evrBase, ringLog2 := bitsOf v 0 5, tail := 0 }) d
  else modBlock fn (fun x => { x with evrCtl := w }) d

/-- OVERFLOW: a 1 clears it. -/
def overflowWrite (fn v : Nat) (d : Dev) : Dev :=
  if bitOf v 0 then modBlock fn (fun x => { x with overflow := false }) d else d

/-- A write of a function block register. An address whose low bits must be 0 and are not is refused. -/
def blockWrite (fn o v : Nat) (d : Dev) : Dev :=
  match o with
  | 0x00 => if v % 65536 = 0 then modBlock fn (fun x => { x with invAddr := v % 2 ^ 48 }) d
            else refuseReg fn (blockOff fn 0) 8 d
  | 0x08 => invSubmit fn v d
  | 0x20 => if v % 4096 = 0 then modBlock fn (fun x => { x with evrBase := v % 2 ^ 57 }) d
            else refuseReg fn (blockOff fn 0x20) 8 d
  | 0x28 => evrCtlWrite fn v d
  | 0x2C => overflowWrite fn v d
  | 0x34 => modBlock fn (fun x => { x with head := v % 2 ^ 32 }) d
  | _ => d

/-- MBX_BUSY. -/
def mailboxBusy (d : Dev) : Dev := raise 4 evMbxBusy (srcFn 0) d

/-- The endpoint takes the message that waits in the request buffer once RSP_VALID is 0. -/
def mailboxTake (flash : Bool) (d : Dev) : Dev :=
  if d.pcie.reqBusy && transportOpen 0 d then takeMessage 0 0 false flash (Mem.readN d.pcie.reqBuf 0 d.pcie.reqLen) d else d

/-- SUBMIT. -/
def mailboxSubmit (v : Nat) (flash : Bool) (d : Dev) : Dev :=
  if d.pcie.reqBusy then mailboxBusy d
  else mailboxTake flash { d with pcie.reqBusy := true, pcie.reqLen := v % 2048 }

/-- The release of the response; a message that waits is then taken. -/
def responseRelease (flash : Bool) (d : Dev) : Dev := mailboxTake flash { d with pcie.rspValid := false }

/-- The release of the notification; one that waits is then written. -/
def notificationRelease (d : Dev) : Dev :=
  let d1 := { d with pcie.ntfValid := false }
  if d1.mgmt.lease.role ≠ 0 ∧ d1.mgmt.lease.transport = 0 then sendWaitingNotice d1 else d1

/-- A write of a mailbox register. -/
def mailboxWrite (o v : Nat) (flash : Bool) (d : Dev) : Dev :=
  match o with
  | 0x00 => mailboxSubmit v flash d
  | 0x10 =>
    let d1 := if bitOf v 0 then responseRelease flash d else d
    if bitOf v 1 then notificationRelease d1 else d1
  | _ => d

/-- A write of a word of an MSI-X table entry; clearing the mask sends what is pending. -/
def tableWrite (fn e w v : Nat) (d : Dev) : Dev :=
  if msixEntryOk fn e d then
    let put (f : MsixEntry → MsixEntry) (d : Dev) : Dev :=
      { d with pcie.msix := Sparse.modify {} d.pcie.msix (vectorOf fn e d) f }
    match w with
    | 0 => put (fun x => { x with addr := x.addr / 2 ^ 32 * 2 ^ 32 + v % 2 ^ 32 }) d
    | 1 => put (fun x => { x with addr := x.addr % 2 ^ 32 + v % 2 ^ 32 * 2 ^ 32 }) d
    | 2 => put (fun x => { x with data := v % 2 ^ 32 }) d
    | _ => releasePending fn (put (fun x => { x with control := v % 2 }) d)
  else d

/-- The bits of a reel's context registers that are written (Table 19.5). -/
def reelMask (o v : Nat) : Nat :=
  match o with
  | 0x00 => bitsOf v 0 12 + bitsOf v 16 16 * 2 ^ 16
  | 0x04 => bitsOf v 0 8 + bitsOf v 16 16 * 2 ^ 16
  | 0x08 => v % 2 ^ 48
  | 0x10 => v % 2 ^ 57
  | _ => v % 2 ^ 63

/-- A write of a reel register through the PF. -/
def reelWrite (r o v : Nat) (d : Dev) : Dev :=
  match o with
  | 0x20 =>
    (match v % 4 with
     | 1 => reelOpen r d
     | 2 => reelClose r d
     | 3 => reelResume r d
     | _ => d)
  | 0x38 => doorbell r v false d
  | 0x24 | 0x28 | 0x2C | 0x30 => d
  | o => modReel r (fun x => { x with regs := Sparse.set 0 x.regs o (reelMask o v) }) d

/-- A write of a slot register (R421). -/
def slotWrite (t k o v : Nat) (d : Dev) : Dev :=
  if o = 0 ∨ (o = 0xC ∧ v % 4 = 3) then
    match slotReel t k d with
    | some r => if o = 0 then doorbell r v false d else reelResume r d
    | none => bumpQueue 0 3 d
  else d

/-- A whole register takes a value. -/
def writeReg (fn : Nat) (r : BarReg) (v : Nat) (flash : Bool) (d : Dev) : Dev :=
  match r with
  | .device _ => d
  | .vfvec t => vfvecWrite t v d
  | .block o => blockWrite fn o v d
  | .mailbox o => mailboxWrite o v flash d
  | .buffer _ => d
  | .table e w => tableWrite fn e w v d
  | .pba => d
  | .reel r o => reelWrite r o v d
  | .vfmap t k => { d with pcie.vfmap := Sparse.set 0 d.pcie.vfmap (64 * t + k) (bitsOf v 0 11 + bitsOf v 31 1 * 2 ^ 31) }
  | .slot k o => slotWrite (fn - 1) k o v d

/-- A write inside one register: the request buffer takes any size while REQ_BUSY is 0, the other buffers none; a
narrow write of a register is discarded as ACCESS_WIDTH. -/
def writeInside (fn : Nat) (r : BarAt) (off : Nat) (bs : Bytes) (flash : Bool) (d : Dev) : Dev :=
  match r.reg with
  | .buffer 0 => if d.pcie.reqBusy then mailboxBusy d
                 else { d with pcie.reqBuf := Mem.writeN d.pcie.reqBuf (off - r.base) bs }
  | .buffer _ => d
  | g => if bs.length < r.width then accessEvent evAccessWidth fn off bs.length true d
         else writeReg fn g (leNat bs) flash d

/-! ## Accesses (R413) -/

/-- What an access of at most 8 bytes meets: reserved bytes only, one register, two 32-bit registers (or one and a
reserved offset in the place of the other), or a boundary crossed. -/
inductive Meets where
  | reserved | one (r : BarAt) | pair | crosses
  deriving DecidableEq, Repr

def meets (fn off n : Nat) : Meets :=
  let rs := (List.range n).map fun i => regAt fn (off + i)
  match rs.eraseDups with
  | [none] => .reserved
  | [some r] => .one r
  | _ =>
    let narrow (r : Option BarAt) : Bool :=
      match r with
      | none => true
      | some x => x.width == 4
    if n == 8 && off % 8 == 0 && rs.all narrow then .pair else .crosses

/-- A part of a read. -/
def barReadPart (fn off n : Nat) (d : Dev) : Bytes × Dev :=
  let half (o : Nat) : Bytes :=
    match meets fn o 4 with
    | .one r => readReg fn r o 4 d
    | _ => fillBytes 4 0
  match meets fn off n with
  | .reserved => (fillBytes n 0, d)
  | .one r => (readReg fn r off n d, d)
  | .pair => (half off ++ half (off + 4), d)
  | .crosses => (fillBytes n 0xFF, accessEvent evAccessAlign fn off n false d)

/-- A part of a write. -/
def barWritePart (fn off : Nat) (bs : Bytes) (flash : Bool) (d : Dev) : Dev :=
  let half (o : Nat) (b : Bytes) (d : Dev) : Dev :=
    match meets fn o 4 with
    | .one r => writeInside fn r o b flash d
    | _ => d
  match meets fn off bs.length with
  | .reserved => d
  | .one r => writeInside fn r off bs flash d
  | .pair => half (off + 4) (bs.drop 4) (half off (bs.take 4) d)
  | .crosses => accessEvent evAccessAlign fn off bs.length true d

/-- The parts of a request: one of at most 8 bytes is whole, a longer one is split at 8-byte boundaries. -/
def accessParts (off n : Nat) : List (Nat × Nat) :=
  if n ≤ 8 then (if n = 0 then [] else [(off, n)])
  else
    (List.range (n / 8 + 2)).filterMap fun i =>
      let lo := max off (off / 8 * 8 + 8 * i)
      let hi := min (off + n) (off / 8 * 8 + 8 * (i + 1))
      if lo < hi then some (lo, hi - lo) else none

/-- A BAR read of `n` bytes. -/
def barRead (fn off n : Nat) (d : Dev) : Dev :=
  let r := (accessParts off n).foldl (fun (acc : Bytes × Dev) p =>
    let x := barReadPart fn p.1 p.2 acc.2
    (acc.1 ++ x.1, x.2)) ([], d)
  emit (.regValue fn off (leNat r.1)) r.2

/-- A BAR write. -/
def barWrite (fn off : Nat) (bs : Bytes) (flash : Bool) (d : Dev) : Dev :=
  (accessParts off bs.length).foldl (fun d p => barWritePart fn p.1 ((bs.drop (p.1 - off)).take p.2) flash d) d

/-! ## Errors (R426) -/

/-- A correctable error. -/
def pcieCe (fn : Nat) (d : Dev) : Dev :=
  fnRaise 0 evPcieCe fn { d with pcie.aerCorrectable := satAdd 64 d.pcie.aerCorrectable 1 }

/-- A poisoned write: discarded; one to the request buffer discards all of it. -/
def poisonedWrite (fn off n : Nat) (d : Dev) : Dev :=
  let d1 := pcieUe fn d
  if fn = 0 ∧ off < 0x3000 ∧ 0x2800 < off + n then mailboxBusy { d1 with pcie.reqBuf := [] } else d1

/-- What came with a request or a completion: 0 nothing, 1 a correctable error, 2 poisoned data, 3 another uncorrectable
error (the packet is lost), 4 an uncorrectable internal error. -/
def linkError (err fn : Nat) (ok poisoned : Dev → Dev) (d : Dev) : Dev :=
  match err with
  | 0 => ok d
  | 1 => ok (pcieCe fn d)
  | 2 => poisoned d
  | 3 => pcieUe fn d
  | _ => raiseFatal evPcieInternal (srcFn fn) d

/-- REGISTER_WRITE. -/
def registerWrite (fn off : Nat) (bs : Bytes) (err : Nat) (flash : Bool) (d : Dev) : Dev :=
  if barSize fn < off + bs.length then d
  else barAccess fn (linkError err fn (barWrite fn off bs flash) (poisonedWrite fn off bs.length)) d

/-- REGISTER_READ. -/
def registerRead (fn off n : Nat) (d : Dev) : Dev :=
  if barSize fn < off + n then d else barAccess fn (barRead fn off n) d

def fnOk (fn : Nat) : Bool := decide (fn ≤ 1024)

def execRegisterWrite (fn off : Nat) (bytes : List (BitVec 8)) (err : Nat) (flash : Bool) (s : State) :
    Host.Outcome State Fault Refusal := onDev (fnOk fn) (registerWrite fn off bytes err flash) s
def execRegisterRead (fn off len : Nat) (s : State) : Host.Outcome State Fault Refusal :=
  onDev (fnOk fn) (registerRead fn off len) s
/-- INVALIDATE_RANGE: a 64-bit write of INV_CTL with ALL clear. -/
def execInvalidateRange (fn value : Nat) (s : State) : Host.Outcome State Fault Refusal :=
  onDev (fnOk fn) (barAccess fn fun d => if bitOf value 10 then d else invSubmit fn value d) s
/-- INVALIDATE_ALL: a 64-bit write of INV_CTL with ALL set. -/
def execInvalidateAll (fn value : Nat) (s : State) : Host.Outcome State Fault Refusal :=
  onDev (fnOk fn) (barAccess fn fun d => if bitOf value 10 then invSubmit fn value d else d) s
def execVfvecWrite (vf value : Nat) (s : State) : Host.Outcome State Fault Refusal :=
  onDev (decide (vf < 1024)) (barAccess 0 (vfvecWrite vf value)) s
/-- EVENT_RING_ENABLE: a write of the ring's control with ENABLE set. -/
def execEventRingEnable (fn value : Nat) (s : State) : Host.Outcome State Fault Refusal :=
  onDev (fnOk fn) (barAccess fn fun d => if bitOf value 8 then evrCtlWrite fn value d else d) s
def execOverflowClear (fn value : Nat) (s : State) : Host.Outcome State Fault Refusal :=
  onDev (fnOk fn) (barAccess fn (overflowWrite fn value)) s
def execMailboxSubmit (value : Nat) (flash : Bool) (s : State) : Host.Outcome State Fault Refusal :=
  onDev true (barAccess 0 (mailboxSubmit value flash)) s
def execMailboxResponseRelease (flash : Bool) (s : State) : Host.Outcome State Fault Refusal :=
  onDev true (barAccess 0 (responseRelease flash)) s
def execMailboxNotificationRelease (s : State) : Host.Outcome State Fault Refusal :=
  onDev true (barAccess 0 notificationRelease) s
/-- MSIX_UNMASK: the mask bit of an entry is written 0. -/
def execMsixUnmask (fn entry : Nat) (s : State) : Host.Outcome State Fault Refusal :=
  onDev (fnOk fn && decide (entry < 64)) (barAccess fn (tableWrite fn entry 3 0)) s

/-! ## Invalidations (R172) -/

/-- INVALIDATION_COMPLETE: the oldest request completes, and no cache holds an entry of its tenant and range. -/
def invalidationComplete (d : Dev) : Dev :=
  match d.mem.invalidations with
  | [] => d
  | x :: rest =>
    let d0 := dropCached x.tenant (if x.all then 0 else x.va) (if x.all then 2 ^ 48 else x.va + x.pages * 65536) d
    let d1 := modBlock x.fn (fun b => { b with invDone := (b.invDone + 1) % 2 ^ 64 }) { d0 with mem.invalidations := rest }
    if x.intr then sendVector (vectorOf x.fn 0 d1) d1 else d1

def execInvalidationComplete (s : State) : Host.Outcome State Fault Refusal := onDev true invalidationComplete s

/-! ## Host reads (R422) -/

/-- The read that a completion answers. -/
def readFor (fn addr n : Nat) (r : HostRead) : Bool := r.fn == fn && r.addr == addr && r.len == n && r.done.isNone

/-- A read is answered. -/
def answerRead (fn addr n : Nat) (good : Bool) (d : Dev) : Dev :=
  { d with pcie.reads := d.pcie.reads.map fun r => if readFor fn addr n r then { r with done := some good } else r }

/-- HOST_READ_COMPLETION: `status` 0 good, 1 Unsupported Request, 2 Completer Abort, 3 timed out, 4 poisoned; `err` as
`linkError` has it for the packet. A completion that answers no read is an Unexpected Completion. -/
def hostReadCompletion (fn addr : Nat) (data : Bytes) (status err : Nat) (d : Dev) : Dev :=
  let n := data.length
  let fail (d : Dev) : Dev := answerRead fn addr n false d
  let known := d.pcie.reads.any (readFor fn addr n)
  let good (d : Dev) : Dev :=
    if !known then pcieUe fn d
    else
      match status with
      | 0 => answerRead fn addr n true { d with mem.host := Mem.writeN d.mem.host (hostKey fn addr) data }
      | 1 => fail d
      | 2 => fail d
      | _ => fail (pcieUe fn d)
  if d.pcie.linkUp then retryFrames (linkError err fn good (fun d => fail (pcieUe fn d)) d) else d

def execHostReadCompletion (fn addr : Nat) (data : List (BitVec 8)) (status err : Nat) (s : State) :
    Host.Outcome State Fault Refusal := onDev (fnOk fn) (hostReadCompletion fn addr data status err) s

/-! ## Configuration writes (R410, R412, R422) -/

/-- Bus Master Enable; cleared, it fails the reads under way. -/
def busMasterWrite (fn : Nat) (on : Bool) (d : Dev) : Dev :=
  let d1 := { d with pcie.busMaster := Sparse.set false d.pcie.busMaster fn on }
  if on then d1
  else { d1 with pcie.reads := d1.pcie.reads.map fun r => if r.fn = fn ∧ r.done.isNone then { r with done := some false } else r }

/-- VF Enable of the PF; cleared, the VFs and their state are gone. -/
def vfEnableWrite (on : Bool) (d : Dev) : Dev :=
  if on then { d with pcie.vfEnable := true }
  else if d.pcie.vfEnable then
    { ((List.range d.pcie.numVfs).foldl (fun d t => dropFunction (t + 1) d) d) with pcie.vfEnable := false }
  else d

/-- The configuration fields: 0 Bus Master Enable, 1 Memory Space Enable, 2 MSI-X Enable, 3 Function Mask, 4 Enable
Relaxed Ordering of any function; 5 VF Enable, 6 NumVFs (while VF Enable is 0, up to TotalVFs), 7 BAR0, 8 VF BAR0 of the
PF. Others are not written. -/
def configWrite (fn field v : Nat) (d : Dev) : Dev :=
  let on := bitOf v 0
  match field with
  | 0 => busMasterWrite fn on d
  | 1 => { d with pcie.memEnable := Sparse.set false d.pcie.memEnable fn on }
  | 2 => releasePending fn { d with pcie.msixEnable := Sparse.set false d.pcie.msixEnable fn on }
  | 3 => releasePending fn { d with pcie.fnMask := Sparse.set false d.pcie.fnMask fn on }
  | 4 => { d with pcie.relaxed := Sparse.set false d.pcie.relaxed fn on }
  | 5 => if fn = 0 then vfEnableWrite on d else d
  | 6 => if fn = 0 ∧ d.pcie.vfEnable = false ∧ v ≤ (if d.boot.state = 2 then 0 else 1024) then
      { d with pcie.numVfs := v } else d
  | 7 => if fn = 0 then { d with pcie.bar0 := v % 2 ^ 64 / 2 ^ 21 * 2 ^ 21 } else d
  | 8 => if fn = 0 then { d with pcie.vfBar0 := v % 2 ^ 64 / 2 ^ 16 * 2 ^ 16 } else d
  | _ => d

/-- CONFIGURATION_WRITE: while a function's FLR completes it answers with Request Retry Status (R424). -/
def configurationWrite (fn field v : Nat) (d : Dev) : Dev :=
  if d.pcie.linkUp = false ∨ fnExists fn d = false ∨ d.now < Sparse.get 0 d.pcie.flrUntil fn then d
  else configWrite fn field v d

def execConfigurationWrite (fn field value : Nat) (s : State) : Host.Outcome State Fault Refusal :=
  onDev (fnOk fn) (configurationWrite fn field value) s

end Sys2Proof.Machine
end

