-- ==== Sys2Proof/Machine/Pins.lean ====
section
/-!
DEFINITION. Rails, reference clocks and the test access port (chapter 23).
-/
namespace Sys2Proof.Machine

/-! ## Rails (R477) -/

/-- RAIL_FAULT: a board rail (0 to 4 of Table 23.3) has been below its minimum for `us` microseconds; from 5 on, with
POR_L high, the supervisor holds the device in cold reset. -/
def railFault (rail us : Nat) (d : Dev) : Dev :=
  let d1 := if rail = 2 then { d with pins.vaonLow := true } else d
  if 5 ≤ us ∧ d.pins.porLow = false then { (coldReset d1) with boot.holdRail := true } else d1

/-- RAILS_IN_TOLERANCE: every board rail has been in tolerance for 1 ms. -/
def railsGood (flash : Bool) (d : Dev) : Dev :=
  let d1 := { d with pins.vaonLow := false }
  if d.boot.holdRail then startBoot flash { d1 with boot.holdRail := false } else d1

/-! ## Reference clocks (R476) -/

/-- A port that loses its clock goes down: LINK_DOWN where it was up. -/
def portLosesClock (p : Nat) (d : Dev) : Dev :=
  let st := (getPort p d).state
  if st = 2 ∨ st = 3 then portGoesDown p (raise 4 evLinkDown (srcPort p) (bumpPort p 6 d))
  else if st = 1 then portGoesDown p d
  else d

/-- REFCLK_FAB_LOSS: every Canvas port goes down, and the frame counter is in holdover. -/
def fabLoss (d : Dev) : Dev :=
  (List.range 9).foldl (fun d p => portLosesClock p d) { d with boot.fabLost := true }

/-- REFCLK_AON_LOSS: the device is held in cold reset. -/
def aonLoss (d : Dev) : Dev := { (coldReset d) with boot.holdAon := true }

/-- REFCLK_AON_RETURN: the clock has been back for 1 ms. -/
def aonReturn (flash : Bool) (d : Dev) : Dev :=
  if d.boot.holdAon then startBoot flash { d with boot.holdAon := false } else d

def execRailFault (rail us : Nat) (s : State) : Host.Outcome State Fault Refusal :=
  onDev (decide (rail < 5)) (railFault rail us) s
def execRailsInTolerance (flash : Bool) (s : State) : Host.Outcome State Fault Refusal := onDev true (railsGood flash) s
def execRefclkFabLoss (s : State) : Host.Outcome State Fault Refusal := onDev true fabLoss s
def execRefclkAonLoss (s : State) : Host.Outcome State Fault Refusal := onDev true aonLoss s
def execRefclkAonReturn (flash : Bool) (s : State) : Host.Outcome State Fault Refusal := onDev true (aonReturn flash) s

/-! ## Test access (R480). Instructions: 0 BYPASS, 1 IDCODE, 2 SAMPLE/PRELOAD, 3 EXTEST, 4 CLAMP, 5 HIGHZ -/

/-- TRST_L: while it is low the port is reset and has no effect on the device. -/
def trstLevel (low : Bool) (d : Dev) : Dev :=
  if low then
    { d with pins.trstLow := true, pins.tapCode := 1, pins.shift := 0, pins.driven := none, pins.highz := false }
  else { d with pins.trstLow := false }

/-- An instruction is taken: the value its register captures leaves at TDO while `shift` enters, and what an earlier
one drove is released. -/
def takeTap (code shift captured : Nat) (f : Dev → Dev) (d : Dev) : Dev :=
  if d.pins.trstLow then d
  else f (emit (.jtag captured) { d with
    pins.tapCode := code, pins.shift := shift, pins.driven := none, pins.highz := false })

/-- IDCODE of the stepping. -/
def idcode : Nat := if Config.stepping = 0 then 0x00A10537 else 0x10A10537

/-- The levels of the pins that the state holds. -/
def pinLevels (d : Dev) : Nat :=
  let bit (b : Bool) (w : Nat) : Nat := if b then w else 0
  bit (!d.pins.porLow) 1 + bit (!d.pins.perstLow) 2 + bit (!d.pins.alert) 4 + bit d.clk.frameOut 8

/-- What the boundary register captures now. -/
def capturedCells (d : Dev) : Nat := Config.boundaryCells (pinLevels d) d.now

/-- The boundary register drives its pins: only while POR_L is low. -/
def driveBoundary (d : Dev) : Dev := if d.pins.porLow then { d with pins.driven := some d.pins.boundary } else d

def bypass (shift : Nat) (d : Dev) : Dev := takeTap 0 (shift % 2) 0 id d
def readIdcode (shift : Nat) (d : Dev) : Dev := takeTap 1 (shift % 2 ^ 32) idcode id d
def samplePreload (shift : Nat) (d : Dev) : Dev :=
  takeTap 2 shift (capturedCells d) (fun d => { d with pins.boundary := shift }) d
def extest (shift : Nat) (d : Dev) : Dev :=
  takeTap 3 shift (capturedCells d) (fun d => driveBoundary { d with pins.boundary := shift }) d
def clamp (shift : Nat) (d : Dev) : Dev := takeTap 4 (shift % 2) 0 driveBoundary d
def highz (shift : Nat) (d : Dev) : Dev := takeTap 5 (shift % 2) 0 (fun d => { d with pins.highz := true }) d

def execTrst (low : Bool) (s : State) : Host.Outcome State Fault Refusal := onDev true (trstLevel low) s
/-- BYPASS; every other instruction code acts as BYPASS. -/
def execBypass (shift : Nat) (s : State) : Host.Outcome State Fault Refusal := onDev true (bypass shift) s
def execIdcode (shift : Nat) (s : State) : Host.Outcome State Fault Refusal := onDev true (readIdcode shift) s
def execSamplePreload (shift : Nat) (s : State) : Host.Outcome State Fault Refusal := onDev true (samplePreload shift) s
def execExtest (shift : Nat) (s : State) : Host.Outcome State Fault Refusal := onDev true (extest shift) s
def execClamp (shift : Nat) (s : State) : Host.Outcome State Fault Refusal := onDev true (clamp shift) s
def execHighz (shift : Nat) (s : State) : Host.Outcome State Fault Refusal := onDev true (highz shift) s

end Sys2Proof.Machine
end

