-- ==== Sys2Proof/Machine/Seq.lean ====
section
/-!
DEFINITION. The recurrent sequencer (chapter 5): the checks of a cell record, the products, gates and cell
updates of a step, and the steps of a word.
-/
namespace Sys2Proof.Machine

/-! ## Words (Table 6.11) -/

def sBase (w : BitVec 128) : Nat := wField w 32 17 * 64
def sCtx (w : BitVec 128) : Nat := wField w 49 1
def sT0 (w : BitVec 128) : Nat := wField w 50 32
def sN (w : BitVec 128) : Nat := wField w 82 12 + 1

/-- Whether a counter field names a counter that the tenant may use. -/
def rCounterGood (t : Nat) (c : Nat) (d : Dev) : Bool :=
  !bitOf c 14 && (if bitOf c 15 then ownsPool t (bitsOf c 0 14) d else decide (bitsOf c 0 14 < 48))

/-- A record that breaks R124, apart from the other context's reservation. -/
def recordBad (t base : Nat) (b : Bytes) (d : Dev) : Bool :=
  decide (1 < rType b) || !(decide (1 ≤ rAct b) && decide (rAct b ≤ 4)) || !(decide (1 ≤ rWgt b) && decide (rWgt b ≤ 4)) ||
  decide (31 < rFlags b) || rB b == 0 || decide (128 < rB b) ||
  rH b % 128 != 0 || rH b == 0 || decide (1024 < rH b) ||
  (if rPre b then rD b != 0 else rD b % 64 != 0 || rD b == 0 || decide (4096 < rD b)) ||
  decide (2 < rRnd b) || (if rRnd b = 2 then !([8, 12, 16].contains (rNoise b)) else rNoise b != 0) ||
  (if rReverse b then rChunk b == 0 || decide (4096 < rChunk b) else rChunk b != 0) ||
  decide (2048 < (rRows b).1 + (rRows b).2) || rX b % 64 != 0 || (rType b == 1 && rCBase b != 0) ||
  [rW b, rU b, rBias b, rWork b].any (fun a => a % 64 != 0) ||
  ((rRanges base b).any fun r => decide (scratchSize < r.1 + r.2)) ||
  (rWaits b && (!rCounterGood t (rWaitCtr b) d || rMult b == 0 || decide (1024 < rMult b))) ||
  (rSignals b && !rCounterGood t (rSigCtr b) d) || fieldAt b 0x56 2 != 0 || fieldAt b 0x60 32 != 0

/-- A sequencer word at the head of its queue. -/
def sequencerHead (t : Nat) (q : QWord) (d : Dev) : Dev :=
      let w := q.word
      let k := sCtx w
      if wOp w ≠ 0 ∨ wField w 94 34 ≠ 0 then wordField t 4 d
      else if chargeBad w then rejectHead t 4 1 evCueCharge d
      else if (seqRuns t d).any fun p => p.1 == k then d
      else
        match headWait t q d with
        | (false, d1) => d1
        | (true, d1) =>
          if scratchSize < sBase w + 128 then rejectHead t 4 1 evRnnConfig d1
          else
            let r := physRead (scratchAddr t (sBase w)) 128 d1
            let d2 := scratchUe t q.tenant r.2.1 r.2.2
            if recordBad q.tenant (sBase w) r.1 d2 || conflict t (rRanges (sBase w) r.1) [rRows r.1] d2 then
              rejectHead t 4 1 evRnnConfig d2
            else
              let run : SeqRun := { number := q.number, record := r.1, base := sBase w, step := sT0 w, left := sN w,
                                    signalDue := false }
              requestCue t 4 q (modTile t (fun x => { x with seqs := Sparse.set none x.seqs k (some run) })
                (dispatchHead t 4 .waitCue d2))

/-- SEQUENCER_RUN: the head is checked, waits for its context and its counter, has its record checked, reserves
and requests its one cue. -/
def sequencerRun (t : Nat) (d : Dev) : Dev :=
  if !enginesRun t d then d
  else
    match headOf t 4 d with
    | none => d
    | some q => forRank (q.ctx == 1) (sequencerHead t q) d

/-! ## Products (R121 to R123) -/

/-- The weights of columns `c0` to `c0 + 127` of a matrix of K rows at `base` in scratch: the columns, and
whether a word was uncorrectable. -/
def weightBlock (t : Nat) (b : Bytes) (base k c0 : Nat) (d : Dev) : List (List Num) × Bool × Dev :=
  let z := fmtBits (rWgt b) / 8
  let r := scratchRows t (rowRanges (base + c0 * z) (rGates b * rH b * z) k (128 * z)) d
  let rows := r.1.map fun row => values (rWgt b) (elemsOf z row)
  ((List.range 128).map fun c => rows.map fun row => row.getD c .zero, r.2)

/-- The accumulator row of block `j` (of 128 columns) and vector `i`. -/
def seqRow (b : Bytes) (j i : Nat) : Nat := rFirst b + j * rB b + i

/-- The product of the B vectors and columns [c0, c0 + n) of a matrix is committed to blocks from `j0` on. -/
def product (t tenant : Nat) (b : Bytes) (xs : List (List Num)) (base k c0 n j0 : Nat) (add bad : Bool) (d : Dev) : Dev :=
  let h := classH (rAct b) (rWgt b)
  (List.range (n / 128)).foldl (fun d j =>
    let wb := weightBlock t b base k (c0 + 128 * j) d
    let d1 := scratchUe t tenant wb.2.1 wb.2.2
    (List.range (rB b)).foldl (fun d i =>
      commitSums t tenant (seqRow b (j0 + j) i) add (wb.1.map fun col => chunkSums h (xs.getD i []) col [] []) (bad || wb.2.1) d) d1) d

/-- P_in: the input projection, or its precomputed FP32 values, in every block with overwrite. -/
def inputPart (t tenant : Nat) (b x : Bytes) (d : Dev) : Dev :=
  let gh := rGates b * rH b
  if rPre b then
    (List.range (gh / 128)).foldl (fun d j => (List.range (rB b)).foldl (fun d i =>
      putRow t tenant (seqRow b j i) false (elemsOf 4 ((x.drop (i * rXBytes b + j * 512)).take 512)) [] false false d) d) d
  else
    let z := fmtBits (rAct b) / 8
    let xs := (List.range (rB b)).map fun i => values (rAct b) (elemsOf z ((x.drop (i * rXBytes b)).take (rXBytes b)))
    product t tenant b xs (rW b) (rD b) 0 gh 0 false false d

/-! ## Gates and updates -/

/-- The gate values of vector `i` in gate `g`: F(fl(z + b)), F the function code `fn`. -/
def gateValues (t tenant : Nat) (b : Bytes) (g i fn : Nat) (bias : List Nat) (d : Dev) : List Num × Dev :=
  (List.range (rH b / 128)).foldl (fun acc m =>
    let row := seqRow b (g * (rH b / 128) + m) i
    let r := readLanes t row 128 acc.2
    let d1 := if r.2.1 then accumUe t tenant row r.2.2 else r.2.2
    let bad := poisoned t row d1
    (acc.1 ++ (List.range 128).map fun c =>
      let z : Num := if bad then .nan else flush (num32 (r.1.getD c 0))
      let s := fma32 z (.fin false 1 0) (num32 (bias.getD (g * rH b + m * 128 + c) 0))
      flush (elemFn fn (!rPrecise b) s), d1)) ([], d)

/-- A gate of every vector. -/
def gate (t tenant : Nat) (b : Bytes) (g fn : Nat) (bias : List Nat) (d : Dev) : List (List Num) × Dev :=
  (List.range (rB b)).foldl (fun acc i =>
    let r := gateValues t tenant b g i fn bias acc.2
    (acc.1 ++ [r.1], r.2)) ([], d)

/-- Element (i, e) of values held by vector. -/
def at2 (m : List (List Num)) (i e : Nat) : Num := (m.getD i []).getD e .zero

/-- Every element (b, e) of a state, in ascending j = b·H + e. -/
def eachElem (b : Bytes) (f : Nat → Nat → Num) : List Num :=
  (List.range (rB b)).flatMap fun i => (List.range (rH b)).map fun e => f i e

/-- The state as values, rows of H. -/
def stateRows (b bs : Bytes) : List (List Num) :=
  pieces (rH b) ((values (rAct b) (elemsOf (fmtBits (rAct b) / 8) bs)).map flush)

/-- The four-gate update (R121): c_t and h_t. -/
def fourGate (b : Bytes) (i f g o c : List (List Num)) : List Num × List Num :=
  let ct := eachElem b fun k e => flFma (at2 i k e) (at2 g k e) (flMul (at2 f k e) (at2 c k e))
  let cr := pieces (rH b) ct
  (ct, eachElem b fun k e => flMul (at2 o k e) (flush (elemFn 3 (!rPrecise b) (at2 cr k e))))

/-- The three-gate update (R122): h_t. -/
def threeGate (b : Bytes) (u n h : List (List Num)) : List Num :=
  eachElem b fun k e =>
    flFma (at2 u k e) (at2 h k e) (flMul (flSub (k32 0x3F800000) (at2 u k e)) (at2 n k e))

/-- q = fl(r × h) in the activation format, nearest even. -/
def resetProduct (b : Bytes) (r h : List (List Num)) : List (List Num) :=
  pieces (rH b) (eachElem b fun k e =>
    (fmtD (rAct b)).decode (convert (rAct b) .nearest false (flMul (at2 r k e) (at2 h k e))).1)

/-! ## A step (R126, R127) -/

/-- The position of step `t`. -/
def seqPosition (b : Bytes) (t : Nat) : Nat :=
  if rReverse b then rChunk b * (t / rChunk b) + (rChunk b - 1 - t % rChunk b) else t

/-- Whether step `t` takes the state as zero. -/
def chunkStart (b : Bytes) (t : Nat) : Bool := rReverse b && t % rChunk b == 0

/-- Bytes of a state. -/
def stateBytes (b : Bytes) : Nat := rB b * rH b * (fmtBits (rAct b) / 8)

/-- The work area holds what the step left in it: free values (log entry 19). -/
def scramble (t : Nat) (b : Bytes) (d : Dev) : Dev :=
  let n := rB b * (24 * rH b + 2 * rXBytes b)
  (physWrite (scratchAddr t (rWork b)) ((List.range n).map fun i => BitVec.ofNat 8 (Config.freeValue (d.freeUsed + i)))
    { d with freeUsed := d.freeUsed + n }).2

/-- The arithmetic of a step from the bytes of x, h and c: the converted c_t and h_t. -/
def seqCompute (t k tenant ctx : Nat) (b x h c : Bytes) (d : Dev) : Bytes × Bytes × Dev :=
  let z := fmtBits (rAct b) / 8
  let gh := rGates b * rH b
  let hv := stateRows b h
  let hp := pieces (rH b) (values (rAct b) (elemsOf z h))
  let br := scratchRows t [(rBias b, gh * 4)] (inputPart t tenant b x d)
  let bias := elemsOf 4 (br.1.getD 0 [])
  let d1 := scratchUe t tenant br.2.1 br.2.2
  let key (j : Nat) : Nat := genKey ctx (128 + 64 * k + j % 64)
  let conv (vs : List Num) (d : Dev) : Bytes × Dev :=
    let r := convertAll t key (rAct b) (rRnd b) (rNoise b) false vs d
    (r.1.flatMap (leBytes z), r.2.2)
  if rType b = 0 then
    let d2 := product t tenant b hp (rU b) (rH b) 0 gh 0 true br.2.1 d1
    let gi := gate t tenant b 0 2 bias d2
    let gf := gate t tenant b 1 2 bias gi.2
    let gg := gate t tenant b 2 3 bias gf.2
    let go := gate t tenant b 3 2 bias gg.2
    let r := fourGate b gi.1 gf.1 gg.1 go.1 (stateRows b c)
    let cc := conv r.1 go.2
    let hh := conv r.2 cc.2
    (cc.1, hh.1, hh.2)
  else
    let d2 := product t tenant b hp (rU b) (rH b) 0 (2 * rH b) 0 true br.2.1 d1
    let gr := gate t tenant b 0 2 bias d2
    let gu := gate t tenant b 1 2 bias gr.2
    let q := resetProduct b gr.1 hv
    let d3 := product t tenant b q (rU b) (rH b) (2 * rH b) (rH b) (2 * (rH b / 128)) true br.2.1 gu.2
    let gn := gate t tenant b 2 3 bias d3
    let hh := conv (threeGate b gu.1 gn.1 hv) gn.2
    ([], hh.1, hh.2)

/-- What a step reads: x, h and c; it stops at the first read that does not succeed. -/
def seqReads (t : Nat) (q : QWord) (b : Bytes) (step : Nat) (d : Dev) : Met × List Bytes × Dev :=
  let p := seqPosition b step
  let zero := chunkStart b step
  let n := stateBytes b
  let start := fun va len (acc : Met × List Bytes × Dev) =>
    if acc.1.done then
      let r := if len = 0 then (Met.ok, ([] : Bytes), acc.2.2) else vaRead t q.tenant q.ctx va len acc.2.2
      (if r.1 = .ok then acc.1 else r.1, acc.2.1 ++ [r.2.1], r.2.2)
    else acc
  let r := start (rCBase b) (if zero ∨ rType b = 1 then 0 else n) (start (rHBase b) (if zero then 0 else n)
    (start ((rX b + p * rXStride b) % 2 ^ 64) (rB b * rXBytes b) (.ok, [], d)))
  if r.1 = .wait then r
  else (r.1, [r.2.1.getD 0 [], padTo n (r.2.1.getD 1 []), padTo n (r.2.1.getD 2 [])], dropReads (tenantFn q.tenant d) r.2.2)

/-- Writes one after another; the first that does not succeed stops. -/
def seqWrites (t : Nat) (q : QWord) (l : List (Nat × Bytes)) (d : Dev) : Met × Dev :=
  l.foldl (fun acc w =>
    if acc.1.done then
      let r := vaWrite t q.tenant q.ctx w.1 false w.2 acc.2
      (if r.1 = .ok then acc.1 else r.1, r.2)
    else acc) (.ok, d)

/-- A sequencer context's run becomes `r`. -/
def setSeq (t k : Nat) (r : SeqRun) (d : Dev) : Dev := modTile t (fun x => { x with seqs := Sparse.set none x.seqs k (some r) }) d

/-- A word that meets an access it cannot make ends without its signal. -/
def seqFail (t : Nat) (q : QWord) (m : Met) (d : Dev) : Dev :=
  finishWord t 4 q.number false 0x08 (raiseMet m (srcTile t) q.tenant d) m.code

/-- Whether a step's state write still waits for the twin. -/
def stateSync (q : QWord) (b : Bytes) (d : Dev) : Bool :=
  syncPending q.tenant (rHBase b) (stateBytes b) d || (rType b == 0 && syncPending q.tenant (rCBase b) (stateBytes b) d)

/-- The step signal, once the state write has completed; the last step's writes end the word. -/
def seqSettle (t k : Nat) (q : QWord) (r : SeqRun) (d : Dev) : Dev :=
  let b := r.record
  if stateSync q b d then d
  else
    let d1 := setSeq t k { r with signalDue := false } d
    let c := bitsOf (rSigCtr b) 0 14
    let s := if !rSignals b then d1
      else if bitOf (rSigCtr b) 15 && !ownsPool q.tenant c d1 then staleAdd c (some q.tenant) d1
      else
        match (if bitOf (rSigCtr b) 15 then poolAdd c 1 d1 else localAdd t c 1 d1) with
        | (.applied, d2) => d2
        | (.wrapped, d2) => faultRun 1 evCounterWrap (srcTile t) q.tenant d2
    if r.left = 0 then finishWord t 4 q.number true 0 s else s

/-- The writes of a step: c_t, h_t and, where it has an output, y. -/
def stepWrites (b c h : Bytes) (step : Nat) : List (Nat × Bytes) :=
  (if rType b = 0 then [(rCBase b, c)] else []) ++ [(rHBase b, h)] ++
  (if rY b = 0 then [] else [((rY b + seqPosition b step * rYStride b) % 2 ^ 64, h)])

/-- The step of context `k` that is next runs, with its wait satisfied. -/
def seqStep (t k : Nat) (q : QWord) (r : SeqRun) (d : Dev) : Dev :=
  let b := r.record
  let n := stateBytes b
  if mirrored q.tenant d && journalFull d then raiseJournalFull d
  else
    let ready := (stepWrites b [] [] r.step).foldl (fun acc w =>
      let x := writeReady t q.tenant q.ctx w.1 n acc.2
      (acc.1 && x.1, x.2)) (true, d)
    if !ready.1 then ready.2
    else
      match seqReads t q b r.step ready.2 with
      | (.wait, _, d1) => d1
      | (m, l, d1) =>
        if m.done then
          let v := seqCompute t k q.tenant q.ctx b (l.getD 0 []) (l.getD 1 []) (l.getD 2 []) d1
          let busy := modTile t (fun x => { x with
            arrayAt := if rB b ≤ 8 then x.arrayAt else ccNow d, mvAt := if rB b ≤ 8 then ccNow d else x.mvAt }) (scramble t b v.2.2)
          match seqWrites t q (stepWrites b v.1 v.2.1 r.step) busy with
          | (m2, d2) =>
            if m2.done then
              let r1 : SeqRun := { r with step := r.step + 1, left := r.left - 1, signalDue := true }
              seqSettle t k q r1 (setSeq t k r1 (modTile t (fun x => { x with seqLast := some k }) d2))
            else seqFail t q m2 d2
        else seqFail t q m d1

/-- Whether a step's wait is satisfied (R126). -/
def stepWaitMet (t k : Nat) (r : SeqRun) (d : Dev) : Bool × Dev :=
  let b := r.record
  if rWaits b then
    let e := rWaitBase b + rMult b * r.step
    if bitOf (rWaitCtr b) 15 then poolWait (.seq t k) (bitsOf (rWaitCtr b) 0 14) e d else localWait t (bitsOf (rWaitCtr b) 0 14) e d
  else (true, d)

/-- A context is tried: the word that runs in it holds its cue and has a step left, or one to settle. -/
def trySeq (t k : Nat) (d : Dev) : Bool × Dev :=
  match (seqRuns t d).find? fun p => p.1 == k with
  | none => (false, d)
  | some (_, r) =>
    match wordOf t 4 r.number d with
    | none => (false, d)
    | some q =>
      if q.phase ≠ .granted then (false, d)
      else if r.signalDue then (!stateSync q r.record d, forRank (q.ctx == 1) (seqSettle t k q r) d)
      else
        match stepWaitMet t k r d with
        | (false, d1) => (false, d1)
        | (true, d1) => (true, forRank (q.ctx == 1) (seqStep t k q r) d1)

/-- SEQUENCER_STEP: contexts alternate; context 0 first after both were idle (R128). -/
def sequencerStep (t : Nat) (d : Dev) : Dev :=
  if !enginesRun t d then d
  else
    let first := if (getTile t d).seqLast = some 0 then 1 else 0
    match trySeq t first d with
    | (true, d1) => d1
    | (false, d1) => (trySeq t (1 - first) d1).2

/-! ## The commands -/

def execSequencerRun (tile : Nat) (s : State) : Host.Outcome State Fault Refusal := onTile tile (sequencerRun tile) s
def execSequencerStep (tile : Nat) (s : State) : Host.Outcome State Fault Refusal := onTile tile (sequencerStep tile) s

end Sys2Proof.Machine
end

