-- ==== Sys2Proof/Machine/Vector.lean ====
section
/-!
DEFINITION. The vector engine (chapter 5): its registers and their protection, and the words of Tables 6.9 and
6.10. A lane read from an uncorrectable register word is none.
-/
namespace Sys2Proof.Machine

/-! ## Fields of Table 6.9 -/

def xSub (w : BitVec 128) : Nat := wField w 32 6
def xVd (w : BitVec 128) : Nat := wField w 38 5
def xVa (w : BitVec 128) : Nat := wField w 43 5
def xVb (w : BitVec 128) : Nat := wField w 48 5
def xVc (w : BitVec 128) : Nat := wField w 53 5
def xFmt (w : BitVec 128) : Nat := wField w 58 4
def xDfmt (w : BitVec 128) : Nat := wField w 62 4
def xRnd (w : BitVec 128) : Nat := wField w 66 2
def xNw (w : BitVec 128) : Nat := wField w 68 2
def xSat (w : BitVec 128) : Bool := bitOf w.toNat 70
def xFunc (w : BitVec 128) : Nat := wField w 71 4
def xCoarse (w : BitVec 128) : Bool := bitOf w.toNat 75
def xAddr (w : BitVec 128) : Nat := wField w 76 21 * 4
def xStride (w : BitVec 128) : Nat := wField w 97 16 * 4
def xE (w : BitVec 128) : Nat := wField w 113 8 + 1

/-- How many sub-operations an OP has (Table 6.10). -/
def subCount : Nat → Nat
  | 0 => 2 | 1 => 1 | 2 => 10 | 3 => 5 | 4 => 10 | 5 => 4 | 6 => 3 | _ => 1

/-- The scratch ranges of a load or store. -/
def vecRanges (w : BitVec 128) : List (Nat × Nat) :=
  match wOp w with
  | 0 => if xSub w = 1 then [(xAddr w, 4)] else rowRanges (xAddr w) (xStride w) 8 64
  | 1 => rowRanges (xAddr w) (xStride w) 8 64
  | _ => []

/-- The conditions of R130 and R147. -/
def vectorBad (w : BitVec 128) : Bool :=
  decide (subCount (wOp w) ≤ xSub w) || xRnd w == 3 || xNw w == 3 ||
  (match wOp w with
   | 3 => (xFmt w != 1 && xFmt w != 2) || xDfmt w != 0
   | 8 => decide (9 < xFmt w) || decide (9 < xDfmt w)
   | _ => xFmt w != 0 || xDfmt w != 0) ||
  (wOp w == 7 && decide (8 < xFunc w)) || (vecRanges w).any fun r => decide (scratchSize < r.1 + r.2)

/-! ## Registers -/

/-- `n` bytes of a register. Each byte of an uncorrectable word is none; a corrected word is counted. -/
def vregRead (t r n : Nat) (d : Dev) : List (Option Byte) × Dev :=
  let x := getTile t d
  let es := errsIn x.vrErr (r * 512) n
  let d1 := es.foldl (fun d p => if p.2 = 1 then
      raise 0 evSramCe (srcTile t) (modTCount t (fun c => { c with corrected := bumpTable c.corrected 4 1 })
        (modTile t (fun x => { x with vrErr := Sparse.set 0 x.vrErr p.1 0 }) d)) else d) d
  ((List.range n).map fun i =>
    if Sparse.get 0 x.vrErr ((r * 512 + i) / 8) = 2 then none else some (Mem.get x.vr (r * 512 + i)), d1)

/-- The elements of `z` bytes each of a register's bytes. -/
def vlanes (z : Nat) (bs : List (Option Byte)) : List (Option Nat) :=
  (List.range (bs.length / z)).map fun i =>
    let l := (bs.drop (z * i)).take z
    if l.all Option.isSome then some (leNat (l.filterMap id)) else none

/-- Bytes are written to a register; a word covered whole loses its error. -/
def vregWrite (t r : Nat) (bs : Bytes) (d : Dev) : Dev :=
  modTile t (fun x => { x with
    vr := Mem.writeN x.vr (r * 512) bs
    vrErr := x.vrErr.filter fun p => !(decide (r * 512 ≤ p.1 * 8) && decide (p.1 * 8 + 8 ≤ r * 512 + bs.length)) }) d

/-- VREG_UE: an instruction that met an uncorrectable lane halts the run. -/
def vregUe (t tenant : Nat) (bad : Bool) (d : Dev) : Dev := if bad then faultRun 2 evVregUe (srcTile t) tenant d else d

/-- The canonical NaN that stands for an affected lane: of FP32, FP16 or BF16. -/
def laneNan (code : Nat) : Nat := (fmtD code).nanCode

/-- Three operand registers in lanes of `z` bytes; the flag says one was affected. -/
def operands (t z : Nat) (rs : List Nat) (d : Dev) : List (List (Option Nat)) × Bool × Dev :=
  rs.foldl (fun acc r =>
    let x := vregRead t r 512 acc.2.2
    (acc.1 ++ [vlanes z x.1], acc.2.1 || x.1.any Option.isNone, x.2)) ([], false, d)

/-- Lane `i` of a register of a list of registers. -/
def laneOf (rs : List (List (Option Nat))) (r i : Nat) : Option Nat := (rs.getD r []).getD i none

/-! ## Operations on lanes -/

/-- Whether an FP32 select's comparison holds. -/
def selectHolds (eq : Bool) (a b : Nat) : Bool :=
  let x := vIn a
  let y := vIn b
  if eq then !x.isNan && !y.isNan && !x.lt y && !y.lt x else x.lt y

/-- An FP32 word's lane: a, b, c and the old d. -/
def fp32Lane (sub a b c dd : Nat) : Nat :=
  match sub with
  | 0 => BinOp.add.raw32 a b
  | 1 => BinOp.sub.raw32 a b
  | 2 => BinOp.mul.raw32 a b
  | 3 => bits32 (flFma (vIn a) (vIn b) (vIn c))
  | 4 => BinOp.min.raw32 a b
  | 5 => BinOp.max.raw32 a b
  | 6 => bits32 (vIn a).abs
  | 7 => bits32 (vIn a).neg
  | s => if selectHolds (s == 9) a b then c else dd

/-- A packed 16-bit word's lane. -/
def packedLane (sub code a b c : Nat) : Nat :=
  match sub with
  | 0 => BinOp.add.raw16 code a b
  | 1 => BinOp.mul.raw16 code a b
  | 2 => fma16 code a b c
  | 3 => BinOp.min.raw16 code a b
  | _ => BinOp.max.raw16 code a b

/-- An integer or bitwise word's lane. -/
def intLane (sub a b c dd : Nat) : Nat :=
  let x := BitVec.ofNat 32 a
  let y := BitVec.ofNat 32 b
  match sub with
  | 0 => (x + y).toNat
  | 1 => (x - y).toNat
  | 2 => (x &&& y).toNat
  | 3 => (x ||| y).toNat
  | 4 => (x ^^^ y).toNat
  | 5 => (x <<< (b % 32)).toNat
  | 6 => (x >>> (b % 32)).toNat
  | 7 => (x.sshiftRight (b % 32)).toNat
  | 8 => if x.slt y then c else dd
  | _ => if x = y then c else dd

/-- A lane of an operation on a, b, c and the old d, none where one of those it uses is affected. -/
def lane4 (uses : List (Option Nat)) (f : Nat → Nat → Nat → Nat → Nat) : Option Nat :=
  if uses.all Option.isSome then
    let l := uses.filterMap id
    some (f (l.getD 0 0) (l.getD 1 0) (l.getD 2 0) (l.getD 3 0))
  else none

/-- Which of va, vb, vc and vd a sub-operation reads. -/
def fp32Reads (sub : Nat) : Nat := if sub = 3 then 3 else if sub = 6 ∨ sub = 7 then 1 else if 8 ≤ sub then 4 else 2
def packedReads (sub : Nat) : Nat := if sub = 2 then 3 else 2
def intReads (sub : Nat) : Nat := if 8 ≤ sub then 4 else 2

/-- A lane-wise word: `n` of va, vb, vc, vd are read in lanes of `z` bytes, and every lane of vd is written. -/
def laneWise (t z n nan : Nat) (q : QWord) (f : Nat → Nat → Nat → Nat → Nat) (d : Dev) : Dev :=
  let w := q.word
  let o := operands t z ([xVa w, xVb w, xVc w, xVd w].take n) d
  let out := (List.range (512 / z)).map fun i =>
    (lane4 ((List.range n).map fun r => laneOf o.1 r i) f).getD nan
  vregUe t q.tenant o.2.1 (vregWrite t (xVd w) (out.flatMap (leBytes z)) o.2.2)

/-- A permute word's lane i (Table 6.10). -/
def permuteLane (sub vc : Nat) (o : List (List (Option Nat))) (i : Nat) : Option Nat :=
  match sub with
  | 0 => (laneOf o 1 i).bind fun j => laneOf o 0 (j % 128)
  | 1 => if vc ≤ i then laneOf o 0 (i - vc) else some 0
  | 2 => laneOf o (i % 2) (i / 2)
  | _ => if i < 64 then laneOf o 0 (2 * i) else laneOf o 1 (2 * (i - 64))

/-- VECTOR_PERMUTE's effect. -/
def permuteRun (t : Nat) (q : QWord) (d : Dev) : Dev :=
  let w := q.word
  let o := operands t 4 ([xVa w, xVb w].take (if xSub w = 1 then 1 else 2)) d
  let out := (List.range 128).map fun i => (permuteLane (xSub w) (xVc w) o.1 i).getD (laneNan 0)
  vregUe t q.tenant o.2.1 (vregWrite t (xVd w) (out.flatMap (leBytes 4)) o.2.2)

/-- VECTOR_REDUCTION's effect: the value in lane 0, the index in lane 1, +0 elsewhere (R112). -/
def reductionRun (t : Nat) (q : QWord) (d : Dev) : Dev :=
  let w := q.word
  let o := operands t 4 [xVa w] d
  let xs := (List.range 128).map fun i => vIn ((laneOf o.1 0 i).getD (laneNan 0))
  let r : Num × Nat := if xSub w = 0 then (treeSum xs, 0) else reduceLanes (xSub w == 2) xs
  let out := leBytes 4 (bits32 r.1) ++ leBytes 4 r.2 ++ fillBytes 504 0
  vregUe t q.tenant o.2.1 (vregWrite t (xVd w) out o.2.2)

/-- VECTOR_FUNCTION's effect. -/
def functionRun (t : Nat) (q : QWord) (d : Dev) : Dev :=
  laneWise t 4 1 (laneNan 0) q (fun a _ _ _ => bits32 (flush (elemFn (xFunc q.word) (xCoarse q.word) (num32 a)))) d

/-- VECTOR_LOAD's effect. -/
def tableLoadRun (t : Nat) (q : QWord) (d : Dev) : Dev :=
  let w := q.word
  let r := scratchRows t (vecRanges w) d
  let bs := if xSub w = 1 then (List.replicate 128 (r.1.getD 0 [])).flatten else r.1.flatten
  scratchUe t q.tenant r.2.1 (vregWrite t (xVd w) bs r.2.2)

/-- VECTOR_STORE's effect: chunks in ascending order. -/
def storeRun (t : Nat) (q : QWord) (d : Dev) : Dev :=
  let w := q.word
  let o := operands t 4 [xVa w] d
  let bs := ((List.range 128).map fun i => (laneOf o.1 0 i).getD (laneNan 0)).flatMap (leBytes 4)
  vregUe t q.tenant o.2.1 ((List.range 8).foldl (fun d i =>
    scratchPut t q.tenant (xAddr w + i * xStride w) ((bs.drop (64 * i)).take 64) d) o.2.2)

/-! ## Convert (R113) -/

/-- Free values for the source elements of a convert word that lie beyond its register (log entry 18). -/
def freeElems : Nat → Nat → Dev → List Nat × Dev
  | 0, _, d => ([], d)
  | n + 1, bits, d =>
    let f := freshValue bits d
    let r := freeElems n bits f.2
    (f.1 :: r.1, r.2)

/-- The values of E source elements: those of va, affected ones as NaN, MX ones times their block scale in vb. -/
def convertSource (t : Nat) (w : BitVec 128) (d : Dev) : List Num × Bool × Dev :=
  let bits := fmtBits (xFmt w)
  let cap := min (xE w) (4096 / bits)
  let r := vregRead t (xVa w) ((cap * bits + 7) / 8) d
  let s := if isMx (xFmt w) then vregRead t (xVb w) ((xE w + 31) / 32) r.2 else ([], r.2)
  let raw := r.1.map fun b => b.getD 0
  let inReg := (List.range cap).map fun j =>
    let lo := bits * j / 8
    let hi := (bits * j + bits + 7) / 8
    if ((r.1.drop lo).take (hi - lo)).all Option.isSome then (fmtD (xFmt w)).decode (packedElem raw bits j) else .nan
  let f := freeElems (xE w - cap) bits s.2
  let vs := inReg ++ f.1.map (fmtD (xFmt w)).decode
  let scaled := if isMx (xFmt w) then (List.range vs.length).map fun j =>
      match (s.1.getD (j / 32) none).bind fun b => scaleExp b.toNat with
      | some e => (vs.getD j .zero).scale e
      | none => .nan
    else vs
  (scaled, r.1.any Option.isNone || s.1.any Option.isNone, f.2)

/-- VECTOR_CONVERT's effect: elements beyond the destination register are not written. -/
def convertRun (t : Nat) (q : QWord) (d : Dev) : Dev :=
  let w := q.word
  let src := convertSource t w d
  let c := convertAll t (fun j => genKey q.ctx (256 + j % 256)) (xDfmt w) (xRnd w) (noiseBits (xNw w)) (xSat w) src.1 src.2.2
  let d1 := vregWrite t (xVd w) ((packRow (fmtBits (xDfmt w)) c.1).take 512) c.2.2
  let d2 := if isMx (xDfmt w) then vregWrite t (xVb w) (c.2.1.map (BitVec.ofNat 8)) d1 else d1
  vregUe t q.tenant src.2.1 d2

/-! ## Words -/

/-- A vector word at the head of its queue. -/
def vectorHead (op : Nat) (run : Nat → QWord → Dev → Dev) (t : Nat) (q : QWord) (d : Dev) : Dev :=
      let w := q.word
      if (wOp w = op ∨ 8 < wOp w) ∧ engineFree t 3 d then
        if 8 < wOp w ∨ wField w 121 7 ≠ 0 ∨ cueBad w then wordField t 3 d
        else if vectorBad w then rejectHead t 3 1 evVectorConfig d
        else if conflict t (vecRanges w) [] d then rejectHead t 3 1 evRnnConflict d
        else
          match headWait t q d with
          | (false, d1) => d1
          | (true, d1) => finishWord t 3 q.number true 0 (run t q (dispatchHead t 3 .running d1))
      else d

/-- A vector word of OP `op`: the head is checked, waits for its counter, and runs. A reserved OP is rejected by
whichever row meets it. -/
def vectorRow (op : Nat) (run : Nat → QWord → Dev → Dev) (t : Nat) (d : Dev) : Dev :=
  if !enginesRun t d then d
  else
    match headOf t 3 d with
    | none => d
    | some q => forRank (q.ctx == 1) (vectorHead op run t q) d

def fp32Run (t : Nat) (q : QWord) (d : Dev) : Dev :=
  laneWise t 4 (fp32Reads (xSub q.word)) (laneNan 0) q (fp32Lane (xSub q.word)) d
def packedRun (t : Nat) (q : QWord) (d : Dev) : Dev :=
  laneWise t 2 (packedReads (xSub q.word)) (laneNan (xFmt q.word)) q (fun a b c _ => packedLane (xSub q.word) (xFmt q.word) a b c) d
def integerRun (t : Nat) (q : QWord) (d : Dev) : Dev :=
  laneWise t 4 (intReads (xSub q.word)) (laneNan 0) q (intLane (xSub q.word)) d

/-! ## The commands -/

def execVectorLoad (tile : Nat) (s : State) : Host.Outcome State Fault Refusal := onTile tile (vectorRow 0 tableLoadRun tile) s
def execVectorStore (tile : Nat) (s : State) : Host.Outcome State Fault Refusal := onTile tile (vectorRow 1 storeRun tile) s
def execVectorFp32 (tile : Nat) (s : State) : Host.Outcome State Fault Refusal := onTile tile (vectorRow 2 fp32Run tile) s
def execVectorPacked16 (tile : Nat) (s : State) : Host.Outcome State Fault Refusal := onTile tile (vectorRow 3 packedRun tile) s
def execVectorInteger (tile : Nat) (s : State) : Host.Outcome State Fault Refusal := onTile tile (vectorRow 4 integerRun tile) s
def execVectorPermute (tile : Nat) (s : State) : Host.Outcome State Fault Refusal := onTile tile (vectorRow 5 permuteRun tile) s
def execVectorReduction (tile : Nat) (s : State) : Host.Outcome State Fault Refusal := onTile tile (vectorRow 6 reductionRun tile) s
def execVectorFunction (tile : Nat) (s : State) : Host.Outcome State Fault Refusal := onTile tile (vectorRow 7 functionRun tile) s
def execVectorConvert (tile : Nat) (s : State) : Host.Outcome State Fault Refusal := onTile tile (vectorRow 8 convertRun tile) s

end Sys2Proof.Machine
end

