-- ==== Sys2Proof/Machine/Dispatch.lean ====
section
/-!
DEFINITION. The one dispatch from a command to its meaning.
-/
namespace Sys2Proof.Machine

/-- A command's effect on everything but the queue. -/
def exec (i : Instr) (s : State) : Host.Outcome State Fault Refusal :=
  match i with
  | .tickSend => Sys2Proof.Machine.execTickSend s
  | .tickSecondCopy => Sys2Proof.Machine.execTickSecondCopy s
  | .tickOrderedSet port set => Sys2Proof.Machine.execTickOrderedSet port set s
  | .localTick => Sys2Proof.Machine.execLocalTick s
  | .tickMissed => Sys2Proof.Machine.execTickMissed s
  | .tickLost => Sys2Proof.Machine.execTickLost s
  | .frameInEdge => Sys2Proof.Machine.execFrameInEdge s
  | .frameInMissing => Sys2Proof.Machine.execFrameInMissing s
  | .guardBand tenant => Sys2Proof.Machine.execGuardBand tenant s
  | .stretchRequest => Sys2Proof.Machine.execStretchRequest s
  | .haltRequestReceipt => Sys2Proof.Machine.execHaltRequestReceipt s
  | .boundaryPreparation => Sys2Proof.Machine.execBoundaryPreparation s
  | .commitEvaluationNoTick => Sys2Proof.Machine.execCommitEvaluationNoTick s
  | .teardownNoTick => Sys2Proof.Machine.execTeardownNoTick s
  | .calibrationOrderedSet port set => Sys2Proof.Machine.execCalibrationOrderedSet port set s
  | .alu tile => Sys2Proof.Machine.execAlu tile s
  | .addi tile => Sys2Proof.Machine.execAddi tile s
  | .andi tile => Sys2Proof.Machine.execAndi tile s
  | .ori tile => Sys2Proof.Machine.execOri tile s
  | .xori tile => Sys2Proof.Machine.execXori tile s
  | .shli tile => Sys2Proof.Machine.execShli tile s
  | .shri tile => Sys2Proof.Machine.execShri tile s
  | .sari tile => Sys2Proof.Machine.execSari tile s
  | .ins tile => Sys2Proof.Machine.execIns tile s
  | .slti tile => Sys2Proof.Machine.execSlti tile s
  | .ldw tile => Sys2Proof.Machine.execLdw tile s
  | .beq tile => Sys2Proof.Machine.execBeq tile s
  | .bne tile => Sys2Proof.Machine.execBne tile s
  | .blt tile => Sys2Proof.Machine.execBlt tile s
  | .bge tile => Sys2Proof.Machine.execBge tile s
  | .bltu tile => Sys2Proof.Machine.execBltu tile s
  | .bgeu tile => Sys2Proof.Machine.execBgeu tile s
  | .jal tile => Sys2Proof.Machine.execJal tile s
  | .jalr tile => Sys2Proof.Machine.execJalr tile s
  | .cadd tile => Sys2Proof.Machine.execCadd tile s
  | .cwait tile => Sys2Proof.Machine.execCwait tile s
  | .cwaitt tile => Sys2Proof.Machine.execCwaitt tile s
  | .cread tile => Sys2Proof.Machine.execCread tile s
  | .cwaitRelease tile => Sys2Proof.Machine.execCwaitRelease tile s
  | .cwaittTimeout tile => Sys2Proof.Machine.execCwaittTimeout tile s
  | .issue tile => Sys2Proof.Machine.execIssue tile s
  | .issueResume tile => Sys2Proof.Machine.execIssueResume tile s
  | .waite tile => Sys2Proof.Machine.execWaite tile s
  | .waiteRelease tile => Sys2Proof.Machine.execWaiteRelease tile s
  | .rsr tile => Sys2Proof.Machine.execRsr tile s
  | .endSegment tile => Sys2Proof.Machine.execEndSegment tile s
  | .illegalInstruction tile => Sys2Proof.Machine.execIllegalInstruction tile s
  | .segmentFinished tile => Sys2Proof.Machine.execSegmentFinished tile s
  | .contextSwitch tile => Sys2Proof.Machine.execContextSwitch tile s
  | .matrixCompute tile => Sys2Proof.Machine.execMatrixCompute tile s
  | .matrixStrideConfig tile => Sys2Proof.Machine.execMatrixStrideConfig tile s
  | .matrixScaleConfig tile => Sys2Proof.Machine.execMatrixScaleConfig tile s
  | .mvCompute tile => Sys2Proof.Machine.execMvCompute tile s
  | .mvConfig tile => Sys2Proof.Machine.execMvConfig tile s
  | .outputToScratch tile => Sys2Proof.Machine.execOutputToScratch tile s
  | .outputFused tile => Sys2Proof.Machine.execOutputFused tile s
  | .outputScalars tile => Sys2Proof.Machine.execOutputScalars tile s
  | .outputClip tile => Sys2Proof.Machine.execOutputClip tile s
  | .outputVectors tile => Sys2Proof.Machine.execOutputVectors tile s
  | .vectorLoad tile => Sys2Proof.Machine.execVectorLoad tile s
  | .vectorStore tile => Sys2Proof.Machine.execVectorStore tile s
  | .vectorFp32 tile => Sys2Proof.Machine.execVectorFp32 tile s
  | .vectorPacked16 tile => Sys2Proof.Machine.execVectorPacked16 tile s
  | .vectorInteger tile => Sys2Proof.Machine.execVectorInteger tile s
  | .vectorPermute tile => Sys2Proof.Machine.execVectorPermute tile s
  | .vectorReduction tile => Sys2Proof.Machine.execVectorReduction tile s
  | .vectorFunction tile => Sys2Proof.Machine.execVectorFunction tile s
  | .vectorConvert tile => Sys2Proof.Machine.execVectorConvert tile s
  | .sequencerRun tile => Sys2Proof.Machine.execSequencerRun tile s
  | .sequencerStep tile => Sys2Proof.Machine.execSequencerStep tile s
  | .dmaChain tile => Sys2Proof.Machine.execDmaChain tile s
  | .niPut tile => Sys2Proof.Machine.execNiPut tile s
  | .niGet tile => Sys2Proof.Machine.execNiGet tile s
  | .niCounterAdd tile => Sys2Proof.Machine.execNiCounterAdd tile s
  | .niStartChain tile => Sys2Proof.Machine.execNiStartChain tile s
  | .wordRetire tile eng => Sys2Proof.Machine.execWordRetire tile eng s
  | .cueGrant => Sys2Proof.Machine.execCueGrant s
  | .deferredRampRelease => Sys2Proof.Machine.execDeferredRampRelease s
  | .arrayIdle tile => Sys2Proof.Machine.execArrayIdle tile s
  | .powerMonitorSample mw => Sys2Proof.Machine.execPowerMonitorSample mw s
  | .sensorRead die temps stackTemps => Sys2Proof.Machine.execSensorRead die temps stackTemps s
  | .collectorRequest die tenant record => Sys2Proof.Machine.execCollectorRequest die tenant record s
  | .collectorEvaluation die => Sys2Proof.Machine.execCollectorEvaluation die s
  | .collectorFlush tr addr secured msg => Sys2Proof.Machine.execCollectorFlush tr addr secured msg s
  | .dmaCopy engine => Sys2Proof.Machine.execDmaCopy engine s
  | .dmaFill engine => Sys2Proof.Machine.execDmaFill engine s
  | .dmaGuardedCopy engine => Sys2Proof.Machine.execDmaGuardedCopy engine s
  | .dmaGather engine => Sys2Proof.Machine.execDmaGather engine s
  | .dmaDescriptorComplete engine => Sys2Proof.Machine.execDmaDescriptorComplete engine s
  | .patrolScrub addr => Sys2Proof.Machine.execPatrolScrub addr s
  | .invalidateRange fn value => Sys2Proof.Machine.execInvalidateRange fn value s
  | .invalidateAll fn value => Sys2Proof.Machine.execInvalidateAll fn value s
  | .invalidationComplete => Sys2Proof.Machine.execInvalidationComplete s
  | .phasedStep => Sys2Proof.Machine.execPhasedStep s
  | .caddPacket => Sys2Proof.Machine.execCaddPacket s
  | .watchRelease counter => Sys2Proof.Machine.execWatchRelease counter s
  | .reelOpen reel => Sys2Proof.Machine.execReelOpen reel s
  | .reelClose reel => Sys2Proof.Machine.execReelClose reel s
  | .reelCloseComplete reel => Sys2Proof.Machine.execReelCloseComplete reel s
  | .reelResume fn index => Sys2Proof.Machine.execReelResume fn index s
  | .doorbell fn index value spoilt => Sys2Proof.Machine.execDoorbell fn index value spoilt s
  | .descriptorFetch reel spoil => Sys2Proof.Machine.execDescriptorFetch reel spoil s
  | .nop reel => Sys2Proof.Machine.execNop reel s
  | .word reel => Sys2Proof.Machine.execWord reel s
  | .transfer reel => Sys2Proof.Machine.execTransfer reel s
  | .collect reel => Sys2Proof.Machine.execCollect reel s
  | .load reel => Sys2Proof.Machine.execLoad reel s
  | .arm reel => Sys2Proof.Machine.execArm reel s
  | .teardown reel => Sys2Proof.Machine.execTeardown reel s
  | .descriptorWaitTimeout reel => Sys2Proof.Machine.execDescriptorWaitTimeout reel s
  | .descriptorComplete reel => Sys2Proof.Machine.execDescriptorComplete reel s
  | .interruptModerationExpiry reel => Sys2Proof.Machine.execInterruptModerationExpiry reel s
  | .routerUnicast port vc spoilt => Sys2Proof.Machine.execRouterUnicast port vc spoilt s
  | .routerMulticast port vc spoilt => Sys2Proof.Machine.execRouterMulticast port vc spoilt s
  | .linkFlitTransmit port spoilt => Sys2Proof.Machine.execLinkFlitTransmit port spoilt s
  | .pktLifetimeSweep => Sys2Proof.Machine.execPktLifetimeSweep s
  | .rankCacheFill => Sys2Proof.Machine.execRankCacheFill s
  | .windowCacheFill => Sys2Proof.Machine.execWindowCacheFill s
  | .drainRound round => Sys2Proof.Machine.execDrainRound round s
  | .drainReport port set => Sys2Proof.Machine.execDrainReport port set s
  | .drainRelease port set => Sys2Proof.Machine.execDrainRelease port set s
  | .slotWindowOpen tenant cctx => Sys2Proof.Machine.execSlotWindowOpen tenant cctx s
  | .slotWindowClose tenant cctx => Sys2Proof.Machine.execSlotWindowClose tenant cctx s
  | .txreqPut => Sys2Proof.Machine.execTxreqPut s
  | .txreqGet => Sys2Proof.Machine.execTxreqGet s
  | .txreqQuery => Sys2Proof.Machine.execTxreqQuery s
  | .txrsp => Sys2Proof.Machine.execTxrsp s
  | .cack => Sys2Proof.Machine.execCack s
  | .responseTimeout tag => Sys2Proof.Machine.execResponseTimeout tag s
  | .transactionDeadline tag => Sys2Proof.Machine.execTransactionDeadline tag s
  | .queryResend tag => Sys2Proof.Machine.execQueryResend tag s
  | .resolveTimeout tag => Sys2Proof.Machine.execResolveTimeout tag s
  | .lifetimeHoldExpiry tag => Sys2Proof.Machine.execLifetimeHoldExpiry tag s
  | .quarantineEnd tag => Sys2Proof.Machine.execQuarantineEnd tag s
  | .trainNow tr addr secured msg => Sys2Proof.Machine.execTrainNow tr addr secured msg s
  | .trainingPhaseTimeout port phase => Sys2Proof.Machine.execTrainingPhaseTimeout port phase s
  | .linkHandshake port coord pcode serial resume held snr t1 t2 t3 t4 => Sys2Proof.Machine.execLinkHandshake port coord pcode serial resume held snr t1 t2 t3 t4 s
  | .linkFlitReceive port bytes errors => Sys2Proof.Machine.execLinkFlitReceive port bytes errors s
  | .nakReceive port ack => Sys2Proof.Machine.execNakReceive port ack s
  | .replayTimerExpiry port => Sys2Proof.Machine.execReplayTimerExpiry port s
  | .retrainRequest port => Sys2Proof.Machine.execRetrainRequest port s
  | .lockLoss port => Sys2Proof.Machine.execLockLoss port s
  | .retrainTimeout port => Sys2Proof.Machine.execRetrainTimeout port s
  | .downTrainingRetry port => Sys2Proof.Machine.execDownTrainingRetry port s
  | .widthChange port set => Sys2Proof.Machine.execWidthChange port set s
  | .widthChangeApply port tx => Sys2Proof.Machine.execWidthChangeApply port tx s
  | .wakeStart port => Sys2Proof.Machine.execWakeStart port s
  | .sleepStart port => Sys2Proof.Machine.execSleepStart port s
  | .demandWake port => Sys2Proof.Machine.execDemandWake port s
  | .laneRampStep port lane => Sys2Proof.Machine.execLaneRampStep port lane s
  | .laneEnergyDetect port lane level => Sys2Proof.Machine.execLaneEnergyDetect port lane level s
  | .qualifierMatch port lane q => Sys2Proof.Machine.execQualifierMatch port lane q s
  | .qualifierTimeout port lane => Sys2Proof.Machine.execQualifierTimeout port lane s
  | .relockComplete port lane tx => Sys2Proof.Machine.execRelockComplete port lane tx s
  | .laneWakeLate port lane => Sys2Proof.Machine.execLaneWakeLate port lane s
  | .noiseFloorMeasure port lane value => Sys2Proof.Machine.execNoiseFloorMeasure port lane value s
  | .sdata => Sys2Proof.Machine.execSdata s
  | .collectiveStep tenant rank cctx cseg fails => Sys2Proof.Machine.execCollectiveStep tenant rank cctx cseg fails s
  | .collectiveSegmentComplete tenant rank cctx cseg => Sys2Proof.Machine.execCollectiveSegmentComplete tenant rank cctx cseg s
  | .chainPut chain => Sys2Proof.Machine.execChainPut chain s
  | .chainAdd chain => Sys2Proof.Machine.execChainAdd chain s
  | .chainHandin chain => Sys2Proof.Machine.execChainHandin chain s
  | .chainSignal chain => Sys2Proof.Machine.execChainSignal chain s
  | .chainMput chain => Sys2Proof.Machine.execChainMput chain s
  | .chainInstanceEnd chain => Sys2Proof.Machine.execChainInstanceEnd chain s
  | .mirrorWrite => Sys2Proof.Machine.execMirrorWrite s
  | .mirrorCounterAdd => Sys2Proof.Machine.execMirrorCounterAdd s
  | .mirrorState => Sys2Proof.Machine.execMirrorState s
  | .mirrorCommit => Sys2Proof.Machine.execMirrorCommit s
  | .mirrorAck => Sys2Proof.Machine.execMirrorAck s
  | .repairRequest => Sys2Proof.Machine.execRepairRequest s
  | .repairReply => Sys2Proof.Machine.execRepairReply s
  | .mirrorSeed => Sys2Proof.Machine.execMirrorSeed s
  | .mirrorDirect => Sys2Proof.Machine.execMirrorDirect s
  | .heartbeat => Sys2Proof.Machine.execHeartbeat s
  | .mirrorRelease => Sys2Proof.Machine.execMirrorRelease s
  | .heartbeatSend => Sys2Proof.Machine.execHeartbeatSend s
  | .heartbeatMissed => Sys2Proof.Machine.execHeartbeatMissed s
  | .seedSend => Sys2Proof.Machine.execSeedSend s
  | .commitRecordSend => Sys2Proof.Machine.execCommitRecordSend s
  | .probeReply count => Sys2Proof.Machine.execProbeReply count s
  | .probeTimeout => Sys2Proof.Machine.execProbeTimeout s
  | .tenantSwitch tile => Sys2Proof.Machine.execTenantSwitch tile s
  | .windowStart tile => Sys2Proof.Machine.execWindowStart tile s
  | .windowEnd tile => Sys2Proof.Machine.execWindowEnd tile s
  | .publication => Sys2Proof.Machine.execPublication s
  | .resultExpiry tenant stream => Sys2Proof.Machine.execResultExpiry tenant stream s
  | .tabingRead tr addr secured msg => Sys2Proof.Machine.execTabingRead tr addr secured msg s
  | .tabingWrite tr addr secured msg => Sys2Proof.Machine.execTabingWrite tr addr secured msg s
  | .leaseAcquire tr addr secured msg => Sys2Proof.Machine.execLeaseAcquire tr addr secured msg s
  | .leaseRenew tr addr secured msg => Sys2Proof.Machine.execLeaseRenew tr addr secured msg s
  | .leaseRelease tr addr secured msg => Sys2Proof.Machine.execLeaseRelease tr addr secured msg s
  | .leaseForce tr addr secured msg => Sys2Proof.Machine.execLeaseForce tr addr secured msg s
  | .leaseExpiry => Sys2Proof.Machine.execLeaseExpiry s
  | .notifyAck tr addr secured msg => Sys2Proof.Machine.execNotifyAck tr addr secured msg s
  | .notifyResend => Sys2Proof.Machine.execNotifyResend s
  | .commit tr addr secured msg => Sys2Proof.Machine.execCommit tr addr secured msg s
  | .shadowDiscard tr addr secured msg => Sys2Proof.Machine.execShadowDiscard tr addr secured msg s
  | .haltRequest tr addr secured msg => Sys2Proof.Machine.execHaltRequest tr addr secured msg s
  | .managementStretch tr addr secured msg => Sys2Proof.Machine.execManagementStretch tr addr secured msg s
  | .smbusBlockWrite block atOnce => Sys2Proof.Machine.execSmbusBlockWrite block atOnce s
  | .smbusFragmentTimeout => Sys2Proof.Machine.execSmbusFragmentTimeout s
  | .smbusRetry lost => Sys2Proof.Machine.execSmbusRetry lost s
  | .spdmMessage tr secured msg => Sys2Proof.Machine.execSpdmMessage tr secured msg s
  | .getMeasurements tr secured msg => Sys2Proof.Machine.execGetMeasurements tr secured msg s
  | .setEndpointId tr id op eid => Sys2Proof.Machine.execSetEndpointId tr id op eid s
  | .getEndpointId tr id => Sys2Proof.Machine.execGetEndpointId tr id s
  | .getEndpointUuid tr id => Sys2Proof.Machine.execGetEndpointUuid tr id s
  | .getMctpVersionSupport tr id typ => Sys2Proof.Machine.execGetMctpVersionSupport tr id typ s
  | .getMessageTypeSupport tr id => Sys2Proof.Machine.execGetMessageTypeSupport tr id s
  | .getVendorDefinedMessageSupport tr id selector => Sys2Proof.Machine.execGetVendorDefinedMessageSupport tr id selector s
  | .entdaa addr => Sys2Proof.Machine.execEntdaa addr s
  | .imageData tr addr secured msg => Sys2Proof.Machine.execImageData tr addr secured msg s
  | .updateErase tr addr secured msg => Sys2Proof.Machine.execUpdateErase tr addr secured msg s
  | .eraseComplete => Sys2Proof.Machine.execEraseComplete s
  | .updateVerify tr addr secured msg => Sys2Proof.Machine.execUpdateVerify tr addr secured msg s
  | .verifyComplete => Sys2Proof.Machine.execVerifyComplete s
  | .updateSelect tr addr secured msg => Sys2Proof.Machine.execUpdateSelect tr addr secured msg s
  | .bootControlWarmReset tr addr secured msg => Sys2Proof.Machine.execBootControlWarmReset tr addr secured msg s
  | .bootControlClear tr addr secured msg => Sys2Proof.Machine.execBootControlClear tr addr secured msg s
  | .bootControlColdReset tr addr secured flash msg => Sys2Proof.Machine.execBootControlColdReset tr addr secured flash msg s
  | .bootControlMinimal tr addr secured msg => Sys2Proof.Machine.execBootControlMinimal tr addr secured msg s
  | .bootControlRaiseSvn tr addr secured msg => Sys2Proof.Machine.execBootControlRaiseSvn tr addr secured msg s
  | .clearPersistentRing tr addr secured msg => Sys2Proof.Machine.execClearPersistentRing tr addr secured msg s
  | .diagnosticWindowRead tr addr secured msg => Sys2Proof.Machine.execDiagnosticWindowRead tr addr secured msg s
  | .diagnosticWindowWrite tr addr secured msg => Sys2Proof.Machine.execDiagnosticWindowWrite tr addr secured msg s
  | .errorInjection tr addr secured msg => Sys2Proof.Machine.execErrorInjection tr addr secured msg s
  | .registerWrite fn off bytes err flash => Sys2Proof.Machine.execRegisterWrite fn off bytes err flash s
  | .vfvecWrite vf value => Sys2Proof.Machine.execVfvecWrite vf value s
  | .eventRingEnable fn value => Sys2Proof.Machine.execEventRingEnable fn value s
  | .overflowClear fn value => Sys2Proof.Machine.execOverflowClear fn value s
  | .mailboxSubmit value flash => Sys2Proof.Machine.execMailboxSubmit value flash s
  | .mailboxResponseRelease flash => Sys2Proof.Machine.execMailboxResponseRelease flash s
  | .mailboxNotificationRelease => Sys2Proof.Machine.execMailboxNotificationRelease s
  | .msixUnmask fn entry => Sys2Proof.Machine.execMsixUnmask fn entry s
  | .hostReadCompletion fn addr data status err => Sys2Proof.Machine.execHostReadCompletion fn addr data status err s
  | .flrVf vf => Sys2Proof.Machine.execFlrVf vf s
  | .pfReset => Sys2Proof.Machine.execPfReset s
  | .perstAssert => Sys2Proof.Machine.execPerstAssert s
  | .perstRelease => Sys2Proof.Machine.execPerstRelease s
  | .porAssert ns => Sys2Proof.Machine.execPorAssert ns s
  | .porRelease flash => Sys2Proof.Machine.execPorRelease flash s
  | .ready rate => Sys2Proof.Machine.execReady rate s
  | .bootWatchdog flash => Sys2Proof.Machine.execBootWatchdog flash s
  | .bootFailure reason flash => Sys2Proof.Machine.execBootFailure reason flash s
  | .warmReset flash => Sys2Proof.Machine.execWarmReset flash s
  | .railFault rail us => Sys2Proof.Machine.execRailFault rail us s
  | .refclkFabLoss => Sys2Proof.Machine.execRefclkFabLoss s
  | .refclkAonLoss => Sys2Proof.Machine.execRefclkAonLoss s
  | .trst low => Sys2Proof.Machine.execTrst low s
  | .bypass shift => Sys2Proof.Machine.execBypass shift s
  | .idcode shift => Sys2Proof.Machine.execIdcode shift s
  | .samplePreload shift => Sys2Proof.Machine.execSamplePreload shift s
  | .extest shift => Sys2Proof.Machine.execExtest shift s
  | .clamp shift => Sys2Proof.Machine.execClamp shift s
  | .highz shift => Sys2Proof.Machine.execHighz shift s
  | .pcSample tile => Sys2Proof.Machine.execPcSample tile s
  | .captureComplete tile => Sys2Proof.Machine.execCaptureComplete tile s
  | .obsDrain tile => Sys2Proof.Machine.execObsDrain tile s
  | .eventCollect => Sys2Proof.Machine.execEventCollect s
  | .persistentRingWrite => Sys2Proof.Machine.execPersistentRingWrite s
  | .refclkAonReturn flash => Sys2Proof.Machine.execRefclkAonReturn flash s
  | .railsInTolerance flash => Sys2Proof.Machine.execRailsInTolerance flash s
  | .frameOutFall => Sys2Proof.Machine.execFrameOutFall s
  | .injectionCapRelease tenant => Sys2Proof.Machine.execInjectionCapRelease tenant s
  | .persistentValueWrite => Sys2Proof.Machine.execPersistentValueWrite s
  | .configurationWrite fn field value => Sys2Proof.Machine.execConfigurationWrite fn field value s
  | .registerRead fn off len => Sys2Proof.Machine.execRegisterRead fn off len s

end Sys2Proof.Machine
end

