-- ==== Sys2Proof/Machine/Idle.lean ====
section
/-!
DEFINITION. What one unit of time does by itself.
-/
namespace Sys2Proof.Machine

/-- One unit of 50 ps with no command: the clock, the activity counts of every core-clock cycle that ends in
it (R459), and the age of every descriptor held at the head of its reel. -/
def idleTime (d : Dev) : Dev :=
  let d1 := passTime 1 d
  shiftHeld 1 (countActivity (ccNow d1 - ccNow d) d1)

end Sys2Proof.Machine
end

