-- ==== Sys2Proof/Machine/Step.lean ====
section
/-!
DEFINITION. One step of the machine: the command at the front of the queue is taken and run on the rest.
-/
namespace Sys2Proof.Machine

/-- One step. On an empty queue nothing is commanded: one unit of 50 ps passes (R459 counts it)
(DESIGN CHOICE, log entry 2). -/
def step (s : State) : Host.Outcome State Fault Refusal :=
  match s.pending with
  | [] => .next { s with dev := idleTime s.dev }
  | c :: rest => exec c { s with pending := rest }

/-- The state with the command that a word spells in front of its queue; the state itself where it spells
none. -/
def State.withFetchWord (s : State) (nbits w : Nat) : State :=
  match decodeTableWord nbits w with
  | some c => { s with pending := c :: s.pending }
  | none => s

end Sys2Proof.Machine
end

