-- ==== Sys2Proof/Safety.lean ====
section
/-!
DEFINITION. The terms in which claims about the block are stated: what it is for a command to complete, to be
refused and to leave parts of the device as they were, and when the pins agree with the state.
-/
namespace Sys2Proof.Machine

/-- Command `c` completes at `s`: exec answers a next state with the queue as it was and a device of which `P`
holds. -/
def Completes (c : Instr) (s : State) (P : Dev → Prop) : Prop :=
  ∃ d', exec c s = .next { s with dev := d' } ∧ P d'

/-- Command `c` answers the next state whose device is `d'`, with the pins that follow the state at their levels
(R474, R475) and the queue as it was. -/
def Answers (c : Instr) (s : State) (d' : Dev) : Prop := exec c s = .next { s with dev := settle d' }

/-- Command `c` is refused at `s`: it names a unit the part does not have. -/
def RefusesUnit (c : Instr) (s : State) : Prop := exec c s = .refused .noSuchUnit

/-- No work is in hand whose mirror records need a run frame: how every device stands between commands. -/
def untagged (d : Dev) : Dev := tagWork [] d

/-- The pins that follow the state are at their levels: ALERT_L as R474 has it, and FRAME_OUT low outside the
ready state (R475). -/
def PinsSettled (d : Dev) : Prop := d.pins.alert = alertLevel d ∧ (d.clk.frameOut = true → d.boot.state = 1)

/-- A record of an event, raised now: the fields that its raising fixes (R466). -/
def Raised (cls num source : Nat) (tenant : Option Nat) (d : Dev) (e : Event) : Prop :=
  e.cls = cls ∧ e.num = num ∧ e.source = source ∧ e.tenant = tenant ∧ e.raisedAt = d.now

/-! ## Tile control cores -/

/-- The core of tile `t` runs and is at instruction `i`, whose word can be read (a single-bit error in it is
corrected). -/
def AtInstr (t : Nat) (i : CoreInstr) (d : Dev) : Prop :=
  t < 128 ∧ coreRuns t d = true ∧ (getTile t d).pc < 262144 ∧ CoreInstr.decode (fetchWord t d) = some i ∧
    Sparse.get 0 d.mem.imemErr (fetchAddr t d / 8) ≤ 1

/-- From `d` to `d'` nothing differs but tile `t`'s own state, the correction of a fetched word with its count,
and the events raised. -/
def CoreFrame (t : Nat) (d d' : Dev) : Prop :=
  (∀ u, u ≠ t → getTile u d' = getTile u d) ∧
  d' = { d with tiles := d'.tiles, tcount := d'.tcount, ev := d'.ev, mem.imemErr := d'.mem.imemErr, twin.tag := [],
                pins.alert := d'.pins.alert, clk.frameOut := d'.clk.frameOut }

/-- The same where a wait may also begin or end: a watch on a pool counter, and the stall that observation times. -/
def CoreWaitFrame (t : Nat) (d d' : Dev) : Prop :=
  (∀ u, u ≠ t → getTile u d' = getTile u d) ∧
  d' = { d with tiles := d'.tiles, tcount := d'.tcount, ev := d'.ev, tobs := d'.tobs, mem.imemErr := d'.mem.imemErr,
                ctr.watches := d'.ctr.watches, twin.tag := [], pins.alert := d'.pins.alert, clk.frameOut := d'.clk.frameOut }

/-- Tile `t`'s core writes `v` into register `r` (g0 takes none) and goes on at `pc`; every other register, the
rest of the tile and the rest of the device stay (`CoreFrame`). -/
def CoreStep (t r : Nat) (v : BitVec 64) (pc : Nat) (d d' : Dev) : Prop :=
  (∀ j, readG t j d' = if j = r ∧ r ≠ 0 then v else readG t j d) ∧
  getTile t d' = { getTile t d with g := (getTile t d').g, pc := pc } ∧ CoreFrame t d d'

/-- The same for a row that a trace records: where the segment is not traced, the rest of the device stays; where it
is, every tile stays all the same. -/
def CoreTracedStep (t r : Nat) (v : BitVec 64) (pc : Nat) (d d' : Dev) : Prop :=
  (∀ j, readG t j d' = if j = r ∧ r ≠ 0 then v else readG t j d) ∧
  getTile t d' = { getTile t d with g := (getTile t d').g, pc := pc } ∧
  (∀ u, u ≠ t → getTile u d' = getTile u d) ∧ (tracing t d = false → CoreFrame t d d')

/-! ## Engine words -/

/-- Word `q` is at the head of engine `e`'s queue on tile `t`, of the device's own rank, and the engine may take up
its next word. -/
def AtHead (t e : Nat) (q : QWord) (d : Dev) : Prop :=
  t < 128 ∧ enginesRun t d = true ∧ engineFree t e d = true ∧ headOf t e d = some q ∧ q.ctx ≠ 1

/-- Word `q` waits for no counter, or its counter's storage is sound and the counter has reached the snapshot. -/
def CounterMet (t : Nat) (q : QWord) (d : Dev) : Prop :=
  wWctr q.word = 63 ∨
  (Sparse.get 0 d.ctr.err (t * 64 + wWctr q.word) = 0 ∧ localPoisoned t (wWctr q.word) d = false ∧
    q.snap ≤ localValue t (wWctr q.word) d)

/-- Word `q` waits for a counter whose storage is sound and which has not reached the snapshot. -/
def CounterShort (t : Nat) (q : QWord) (d : Dev) : Prop :=
  wWctr q.word ≠ 63 ∧ Sparse.get 0 d.ctr.err (t * 64 + wWctr q.word) = 0 ∧
    (localPoisoned t (wWctr q.word) d = true ∨ localValue t (wWctr q.word) d < q.snap)

/-! ## PCI Express -/

/-- An access of the host reaches function `fn`: the link is up, the function exists and its memory space is enabled. -/
def Reaches (fn : Nat) (d : Dev) : Prop :=
  d.pcie.linkUp = true ∧ fnExists fn d = true ∧ Sparse.get false d.pcie.memEnable fn = true

end Sys2Proof.Machine
end

