-- ==== Sys2Proof/WellFormed.lean ====
section
/-!
DEFINITION. Which commands name units that the part has: two dies of 64 tiles, 9 ports, 1,024 tenants, 1,152 reels
(Table 9.1), 1,025 functions, 16,384 pool counters and tracking entries.
-/
namespace Sys2Proof

def tileExists (t : Nat) : Bool := decide (t < 128)
def tenantExists (t : Nat) : Bool := decide (t < 1024)
/-- Ports 0 to 8: four electrical, four optical, and T. -/
def portExists (p : Nat) : Bool := decide (p < 9)
/-- A lane of a port: 16 of an electrical one, 8 of an optical one, 32 of T. -/
def laneExists (p l : Nat) : Bool := portExists p && decide (l < if p < 4 then 16 else if p < 8 then 8 else 32)
/-- The PF is function 0, VF t function t + 1. -/
def functionExists (fn : Nat) : Bool := decide (fn ≤ 1024)
/-- A reel as a function names it: a reel of the PF, a slot of a VF. -/
def reelNamed (fn i : Nat) : Bool := if fn = 0 then decide (i < 1152) else functionExists fn && decide (i < 64)

/-- Whether every unit that a command names exists. -/
def Instr.wellFormed (c : Instr) : Bool :=
  match c with
  | .tickSend => true
  | .tickSecondCopy => true
  | .tickOrderedSet port _ => portExists port
  | .localTick => true
  | .tickMissed => true
  | .tickLost => true
  | .frameInEdge => true
  | .frameInMissing => true
  | .guardBand tenant => tenantExists tenant
  | .stretchRequest => true
  | .haltRequestReceipt => true
  | .boundaryPreparation => true
  | .commitEvaluationNoTick => true
  | .teardownNoTick => true
  | .calibrationOrderedSet port _ => portExists port
  | .alu tile => tileExists tile
  | .addi tile => tileExists tile
  | .andi tile => tileExists tile
  | .ori tile => tileExists tile
  | .xori tile => tileExists tile
  | .shli tile => tileExists tile
  | .shri tile => tileExists tile
  | .sari tile => tileExists tile
  | .ins tile => tileExists tile
  | .slti tile => tileExists tile
  | .ldw tile => tileExists tile
  | .beq tile => tileExists tile
  | .bne tile => tileExists tile
  | .blt tile => tileExists tile
  | .bge tile => tileExists tile
  | .bltu tile => tileExists tile
  | .bgeu tile => tileExists tile
  | .jal tile => tileExists tile
  | .jalr tile => tileExists tile
  | .cadd tile => tileExists tile
  | .cwait tile => tileExists tile
  | .cwaitt tile => tileExists tile
  | .cread tile => tileExists tile
  | .cwaitRelease tile => tileExists tile
  | .cwaittTimeout tile => tileExists tile
  | .issue tile => tileExists tile
  | .issueResume tile => tileExists tile
  | .waite tile => tileExists tile
  | .waiteRelease tile => tileExists tile
  | .rsr tile => tileExists tile
  | .endSegment tile => tileExists tile
  | .illegalInstruction tile => tileExists tile
  | .segmentFinished tile => tileExists tile
  | .contextSwitch tile => tileExists tile
  | .matrixCompute tile => tileExists tile
  | .matrixStrideConfig tile => tileExists tile
  | .matrixScaleConfig tile => tileExists tile
  | .mvCompute tile => tileExists tile
  | .mvConfig tile => tileExists tile
  | .outputToScratch tile => tileExists tile
  | .outputFused tile => tileExists tile
  | .outputScalars tile => tileExists tile
  | .outputClip tile => tileExists tile
  | .outputVectors tile => tileExists tile
  | .vectorLoad tile => tileExists tile
  | .vectorStore tile => tileExists tile
  | .vectorFp32 tile => tileExists tile
  | .vectorPacked16 tile => tileExists tile
  | .vectorInteger tile => tileExists tile
  | .vectorPermute tile => tileExists tile
  | .vectorReduction tile => tileExists tile
  | .vectorFunction tile => tileExists tile
  | .vectorConvert tile => tileExists tile
  | .sequencerRun tile => tileExists tile
  | .sequencerStep tile => tileExists tile
  | .dmaChain tile => tileExists tile
  | .niPut tile => decide (tile ≤ 128)
  | .niGet tile => decide (tile ≤ 128)
  | .niCounterAdd tile => decide (tile ≤ 128)
  | .niStartChain tile => decide (tile ≤ 128)
  | .wordRetire tile eng => decide (tile ≤ 128) && decide (eng < 7)
  | .cueGrant => true
  | .deferredRampRelease => true
  | .arrayIdle tile => tileExists tile
  | .powerMonitorSample _ => true
  | .sensorRead die _ _ => decide (die < 2)
  | .collectorRequest die tenant _ => decide (die < 2) && tenantExists tenant
  | .collectorEvaluation die => decide (die < 2)
  | .collectorFlush tr _ _ _ => decide (tr < 5)
  | .dmaCopy engine => decide (engine < 130)
  | .dmaFill engine => decide (engine < 130)
  | .dmaGuardedCopy engine => decide (engine < 130)
  | .dmaGather engine => decide (engine < 130)
  | .dmaDescriptorComplete engine => decide (engine < 130)
  | .patrolScrub addr => decide (addr < 0x4800000000)
  | .invalidateRange fn _ => functionExists fn
  | .invalidateAll fn _ => functionExists fn
  | .invalidationComplete => true
  | .phasedStep => true
  | .caddPacket => true
  | .watchRelease counter => decide (counter < 16384)
  | .reelOpen reel => decide (reel < 1152)
  | .reelClose reel => decide (reel < 1152)
  | .reelCloseComplete reel => decide (reel < 1152)
  | .reelResume fn index => reelNamed fn index
  | .doorbell fn index _ _ => reelNamed fn index
  | .descriptorFetch reel _ => decide (reel < 1152)
  | .nop reel => decide (reel < 1152)
  | .word reel => decide (reel < 1152)
  | .transfer reel => decide (reel < 1152)
  | .collect reel => decide (reel < 1152)
  | .load reel => decide (reel < 1152)
  | .arm reel => decide (reel < 1152)
  | .teardown reel => decide (reel < 1152)
  | .descriptorWaitTimeout reel => decide (reel < 1152)
  | .descriptorComplete reel => decide (reel < 1152)
  | .interruptModerationExpiry reel => decide (reel < 1152)
  | .routerUnicast port vc _ => decide (port < 10) && decide (vc < 8)
  | .routerMulticast port vc _ => decide (port < 10) && decide (vc < 8)
  | .linkFlitTransmit port _ => portExists port
  | .pktLifetimeSweep => true
  | .rankCacheFill => true
  | .windowCacheFill => true
  | .drainRound _ => true
  | .drainReport port _ => portExists port
  | .drainRelease port _ => portExists port
  | .slotWindowOpen tenant _ => tenantExists tenant
  | .slotWindowClose tenant _ => tenantExists tenant
  | .txreqPut => true
  | .txreqGet => true
  | .txreqQuery => true
  | .txrsp => true
  | .cack => true
  | .responseTimeout tag => decide (tag < 16384)
  | .transactionDeadline tag => decide (tag < 16384)
  | .queryResend tag => decide (tag < 16384)
  | .resolveTimeout tag => decide (tag < 16384)
  | .lifetimeHoldExpiry tag => decide (tag < 16384)
  | .quarantineEnd tag => decide (tag < 16384)
  | .trainNow tr _ _ _ => decide (tr < 5)
  | .trainingPhaseTimeout port phase => portExists port && decide (1 ≤ phase) && decide (phase ≤ 5)
  | .linkHandshake port _ _ _ _ _ _ _ _ _ _ => portExists port
  | .linkFlitReceive port _ _ => portExists port
  | .nakReceive port _ => portExists port
  | .replayTimerExpiry port => portExists port
  | .retrainRequest port => portExists port
  | .lockLoss port => portExists port
  | .retrainTimeout port => portExists port
  | .downTrainingRetry port => portExists port
  | .widthChange port _ => portExists port
  | .widthChangeApply port _ => portExists port
  | .wakeStart port => portExists port
  | .sleepStart port => portExists port
  | .demandWake port => portExists port
  | .laneRampStep port lane => laneExists port lane
  | .laneEnergyDetect port lane _ => laneExists port lane
  | .qualifierMatch port lane _ => laneExists port lane
  | .qualifierTimeout port lane => laneExists port lane
  | .relockComplete port lane _ => laneExists port lane
  | .laneWakeLate port lane => laneExists port lane
  | .noiseFloorMeasure port lane _ => laneExists port lane
  | .sdata => true
  | .collectiveStep tenant _ _ _ _ => tenantExists tenant
  | .collectiveSegmentComplete tenant _ _ _ => tenantExists tenant
  | .chainPut _ => true
  | .chainAdd _ => true
  | .chainHandin _ => true
  | .chainSignal _ => true
  | .chainMput _ => true
  | .chainInstanceEnd _ => true
  | .mirrorWrite => true
  | .mirrorCounterAdd => true
  | .mirrorState => true
  | .mirrorCommit => true
  | .mirrorAck => true
  | .repairRequest => true
  | .repairReply => true
  | .mirrorSeed => true
  | .mirrorDirect => true
  | .heartbeat => true
  | .mirrorRelease => true
  | .heartbeatSend => true
  | .heartbeatMissed => true
  | .seedSend => true
  | .commitRecordSend => true
  | .probeReply _ => true
  | .probeTimeout => true
  | .tenantSwitch tile => tileExists tile
  | .windowStart tile => tileExists tile
  | .windowEnd tile => tileExists tile
  | .publication => true
  | .resultExpiry tenant stream => tenantExists tenant && decide (stream < 16)
  | .tabingRead tr _ _ _ => decide (tr < 5)
  | .tabingWrite tr _ _ _ => decide (tr < 5)
  | .leaseAcquire tr _ _ _ => decide (tr < 5)
  | .leaseRenew tr _ _ _ => decide (tr < 5)
  | .leaseRelease tr _ _ _ => decide (tr < 5)
  | .leaseForce tr _ _ _ => decide (tr < 5)
  | .leaseExpiry => true
  | .notifyAck tr _ _ _ => decide (tr < 5)
  | .notifyResend => true
  | .commit tr _ _ _ => decide (tr < 5)
  | .shadowDiscard tr _ _ _ => decide (tr < 5)
  | .haltRequest tr _ _ _ => decide (tr < 5)
  | .managementStretch tr _ _ _ => decide (tr < 5)
  | .smbusBlockWrite _ _ => true
  | .smbusFragmentTimeout => true
  | .smbusRetry _ => true
  | .spdmMessage tr _ _ => (tr == 1 || tr == 2)
  | .getMeasurements tr _ _ => (tr == 1 || tr == 2)
  | .setEndpointId tr _ _ _ => (tr == 1 || tr == 2)
  | .getEndpointId tr _ => (tr == 1 || tr == 2)
  | .getEndpointUuid tr _ => (tr == 1 || tr == 2)
  | .getMctpVersionSupport tr _ _ => (tr == 1 || tr == 2)
  | .getMessageTypeSupport tr _ => (tr == 1 || tr == 2)
  | .getVendorDefinedMessageSupport tr _ _ => (tr == 1 || tr == 2)
  | .entdaa _ => true
  | .imageData tr _ _ _ => decide (tr < 5)
  | .updateErase tr _ _ _ => decide (tr < 5)
  | .eraseComplete => true
  | .updateVerify tr _ _ _ => decide (tr < 5)
  | .verifyComplete => true
  | .updateSelect tr _ _ _ => decide (tr < 5)
  | .bootControlWarmReset tr _ _ _ => decide (tr < 5)
  | .bootControlClear tr _ _ _ => decide (tr < 5)
  | .bootControlColdReset tr _ _ _ _ => decide (tr < 5)
  | .bootControlMinimal tr _ _ _ => decide (tr < 5)
  | .bootControlRaiseSvn tr _ _ _ => decide (tr < 5)
  | .clearPersistentRing tr _ _ _ => decide (tr < 5)
  | .diagnosticWindowRead tr _ _ _ => decide (tr < 5)
  | .diagnosticWindowWrite tr _ _ _ => decide (tr < 5)
  | .errorInjection tr _ _ _ => decide (tr < 5)
  | .registerWrite fn _ _ _ _ => functionExists fn
  | .vfvecWrite vf _ => decide (vf < 1024)
  | .eventRingEnable fn _ => functionExists fn
  | .overflowClear fn _ => functionExists fn
  | .mailboxSubmit _ _ => true
  | .mailboxResponseRelease _ => true
  | .mailboxNotificationRelease => true
  | .msixUnmask fn entry => functionExists fn && decide (entry < 64)
  | .hostReadCompletion fn _ _ _ _ => functionExists fn
  | .flrVf vf => decide (vf < 1024)
  | .pfReset => true
  | .perstAssert => true
  | .perstRelease => true
  | .porAssert _ => true
  | .porRelease _ => true
  | .ready _ => true
  | .bootWatchdog _ => true
  | .bootFailure _ _ => true
  | .warmReset _ => true
  | .railFault rail _ => decide (rail < 5)
  | .refclkFabLoss => true
  | .refclkAonLoss => true
  | .trst _ => true
  | .bypass _ => true
  | .idcode _ => true
  | .samplePreload _ => true
  | .extest _ => true
  | .clamp _ => true
  | .highz _ => true
  | .pcSample tile => tileExists tile
  | .captureComplete tile => tileExists tile
  | .obsDrain tile => tileExists tile
  | .eventCollect => true
  | .persistentRingWrite => true
  | .refclkAonReturn _ => true
  | .railsInTolerance _ => true
  | .frameOutFall => true
  | .injectionCapRelease tenant => tenantExists tenant
  | .persistentValueWrite => true
  | .configurationWrite fn _ _ => functionExists fn
  | .registerRead fn _ _ => functionExists fn

end Sys2Proof
end

