-- ==== Sys2Proof/Certificates/Slice0/Obligations.lean ====
section
/-!
DEFINITION. The statements of this model for the provers, in the order of OBLIGATIONS.json.
-/
open Sys2Proof Sys2Proof.Machine

/-- R133: g0 reads 0 and a write to it has no effect; any other register reads what was written last, and a write
leaves every other register of every tile. -/
def Obligations.CoreRegisterRule : Prop :=
  ∀ (t r : Nat) (v : BitVec 64) (d : Dev),
    readG t 0 d = 0 ∧ writeG t 0 v d = d ∧ (r ≠ 0 → readG t r (writeG t r v d) = v) ∧
    (∀ u j, u ≠ t ∨ j ≠ r → readG u j (writeG t r v d) = readG u j d)

/-- R136 and Table 6.3 in terms of integers: the core's results wrap modulo 2^64, shifts use bits [5:0] of the amount, SAR
keeps the sign, SLT compares signed and SLTU unsigned values, and INSj replaces one 16-bit field. Tables 5.3 and 6.10: the
integer and bitwise vector class on 32-bit lanes: add and subtract modulo 2^32, the bitwise operations, shifts by the low
five bits of b, and the two selects, signed less-than and equality, that take c where they hold and keep d. -/
def Obligations.IntegerArithmetic : Prop :=
  ((∀ x y : BitVec 64,
     (AluFn.add.eval x y).toNat = (x.toNat + y.toNat) % 2 ^ 64 ∧
     ((AluFn.sub.eval x y).toNat + y.toNat) % 2 ^ 64 = x.toNat ∧
     (AluFn.mul.eval x y).toNat = x.toNat * y.toNat % 2 ^ 64 ∧
     (AluFn.shl.eval x y).toNat = x.toNat * 2 ^ (y.toNat % 64) % 2 ^ 64 ∧
     (AluFn.shr.eval x y).toNat = x.toNat / 2 ^ (y.toNat % 64) ∧
     (AluFn.sar.eval x y).toInt = x.toInt / 2 ^ (y.toNat % 64) ∧
     (AluFn.slt.eval x y = if x.toInt < y.toInt then 1 else 0) ∧
     (AluFn.sltu.eval x y = if x.toNat < y.toNat then 1 else 0) ∧
     (∀ i, i < 64 →
       ((AluFn.and_.eval x y).getLsbD i = (x.getLsbD i && y.getLsbD i) ∧
        (AluFn.or_.eval x y).getLsbD i = (x.getLsbD i || y.getLsbD i) ∧
        (AluFn.xor.eval x y).getLsbD i = (x.getLsbD i ^^ y.getLsbD i)))) ∧
   (∀ (x : BitVec 64) (n : BitVec 6),
     (ShiftOp.shl.eval x n).toNat = x.toNat * 2 ^ n.toNat % 2 ^ 64 ∧
     (ShiftOp.shr.eval x n).toNat = x.toNat / 2 ^ n.toNat ∧ (ShiftOp.sar.eval x n).toInt = x.toInt / 2 ^ n.toNat) ∧
   (∀ (j : BitVec 2) (x : BitVec 64) (imm : BitVec 16) (i : Nat), i < 64 →
     (insertField j x imm).getLsbD i = if i / 16 = j.toNat then imm.getLsbD (i % 16) else x.getLsbD i)) ∧
  (∀ (a b c dd : Nat), a < 2 ^ 32 → b < 2 ^ 32 →
     intLane 0 a b c dd = (a + b) % 2 ^ 32 ∧
     (intLane 1 a b c dd + b) % 2 ^ 32 = a ∧ intLane 1 a b c dd < 2 ^ 32 ∧
     intLane 2 a b c dd = a &&& b ∧ intLane 3 a b c dd = a ||| b ∧ intLane 4 a b c dd = a ^^^ b ∧
     intLane 5 a b c dd = a * 2 ^ (b % 32) % 2 ^ 32 ∧ intLane 6 a b c dd = a / 2 ^ (b % 32) ∧
     (let signed (x : Nat) : Int := if x < 2 ^ 31 then x else x - 2 ^ 32
      signed (intLane 7 a b c dd) = signed a / 2 ^ (b % 32) ∧
      intLane 8 a b c dd = if signed a < signed b then c else dd) ∧
     intLane 9 a b c dd = if a = b then c else dd)

/-- Table 6.3: where a core is at an ALU, ADDI, ANDI, ORI, XORI, SHLI, SHRI, SARI, INS, SLTI or RSR instruction, or
at an LDW of a good address that reads well, the row completes: the result stands in d (g0 takes none), the pc
is 4 further, and nothing else differs but the correction and count of a fetched single-bit word and its event. -/
def Obligations.CoreArithmetic : Prop :=
  ∀ (s : State) (t : Nat),
    let d := s.dev
    let g (r : BitVec 5) : BitVec 64 := readG t r.toNat d
    let next : Nat := (getTile t d).pc + 4
    (∀ fn r a b, AtInstr t (.alu fn r a b) d → Completes (.alu t) s (CoreStep t r.toNat (fn.eval (g a) (g b)) next d)) ∧
    (∀ r a imm, AtInstr t (.addi r a imm) d → Completes (.addi t) s (CoreStep t r.toNat (g a + imm.signExtend 64) next d)) ∧
    (∀ r a imm, AtInstr t (.logic .and_ r a imm) d →
      Completes (.andi t) s (CoreStep t r.toNat (g a &&& imm.zeroExtend 64) next d)) ∧
    (∀ r a imm, AtInstr t (.logic .or_ r a imm) d →
      Completes (.ori t) s (CoreStep t r.toNat (g a ||| imm.zeroExtend 64) next d)) ∧
    (∀ r a imm, AtInstr t (.logic .xor r a imm) d →
      Completes (.xori t) s (CoreStep t r.toNat (g a ^^^ imm.zeroExtend 64) next d)) ∧
    (∀ r a n, AtInstr t (.shift .shl r a n) d → Completes (.shli t) s (CoreStep t r.toNat (g a <<< n.toNat) next d)) ∧
    (∀ r a n, AtInstr t (.shift .shr r a n) d → Completes (.shri t) s (CoreStep t r.toNat (g a >>> n.toNat) next d)) ∧
    (∀ r a n, AtInstr t (.shift .sar r a n) d →
      Completes (.sari t) s (CoreStep t r.toNat ((g a).sshiftRight n.toNat) next d)) ∧
    (∀ j r a imm, AtInstr t (.ins j r a imm) d →
      Completes (.ins t) s (CoreStep t r.toNat (insertField j (g a) imm) next d)) ∧
    (∀ r a imm, AtInstr t (.slti r a imm) d →
      Completes (.slti t) s (CoreStep t r.toNat (if (g a).toInt < (imm.signExtend 64).toInt then 1 else 0) next d)) ∧
    (∀ r i v, AtInstr t (.rsr r i) d → specialReg t i.toNat d = some v →
      Completes (.rsr t) s (CoreStep t r.toNat (BitVec.ofNat 64 v) next d)) ∧
    (∀ r a imm, AtInstr t (.ldw r a imm) d →
      let addr := (g a + imm.signExtend 64 * 8).toNat
      let place := fetchAddr t d - (getTile t d).pc + addr
      addr % 8 = 0 → addr < 262144 → Sparse.get 0 d.mem.imemErr (place / 8) ≤ 1 →
      Completes (.ldw t) s (CoreStep t r.toNat (BitVec.ofNat 64 (leNat (Mem.readN d.mem.imem place 8))) next d))

/-- Table 6.3 and R137: where a core is at a branch, JAL or JALR, the row completes. A branch whose condition holds
goes to pc + 4 OFF where that is a multiple of 4 below 262,144, and one whose condition does not hold goes on with the
next instruction; JAL and JALR write pc + 4 into d (g0 takes none) and go to their target, JALR's read before d is
written. Nothing else differs where the segment is not traced. -/
def Obligations.CoreControlFlow : Prop :=
  ∀ (s : State) (t : Nat),
    let d := s.dev
    let g (r : BitVec 5) : BitVec 64 := readG t r.toNat d
    let pc : Nat := (getTile t d).pc
    let branches (k : Cond) (c : Instr) (holds : BitVec 64 → BitVec 64 → Prop) : Prop :=
      ∀ a b off, AtInstr t (.branch k a b off) d →
        let target : Int := pc + off.toInt * 4
        (holds (g a) (g b) → targetGood target = true → Completes c s (CoreTracedStep t 0 0 target.toNat d)) ∧
        (¬ holds (g a) (g b) → Completes c s (CoreTracedStep t 0 0 (pc + 4) d))
    branches .eq (.beq t) (fun x y => x = y) ∧
    branches .ne (.bne t) (fun x y => x ≠ y) ∧
    branches .lt (.blt t) (fun x y => x.toInt < y.toInt) ∧
    branches .ge (.bge t) (fun x y => y.toInt ≤ x.toInt) ∧
    branches .ltu (.bltu t) (fun x y => x.toNat < y.toNat) ∧
    branches .geu (.bgeu t) (fun x y => y.toNat ≤ x.toNat) ∧
    (∀ r off, AtInstr t (.jal r off) d →
      let target : Int := pc + off.toInt * 4
      targetGood target = true → Completes (.jal t) s (CoreStep t r.toNat (BitVec.ofNat 64 (pc + 4)) target.toNat d)) ∧
    (∀ r a imm, AtInstr t (.jalr r a imm) d →
      let target : Nat := (g a + imm.signExtend 64 * 4).toNat
      targetGood target = true →
      Completes (.jalr t) s (CoreTracedStep t r.toNat (BitVec.ofNat 64 (pc + 4)) target d))

/-- R139, R189 to R192: on a counter that the core may name and whose storage is sound, CADD adds a positive amount
that does not wrap (a poisoned counter discards it), CREAD returns the value (all ones where it is poisoned), CWAIT
goes on where the unsigned value is at or above the expected one, and CWAITT gives 0 then and 1 where its time is 0;
the others wait: a wait on a pool counter leaves a watch at the slice and the core held. -/
def Obligations.CoreCounters : Prop :=
  ∀ (s : State) (t : Nat),
    let d := s.dev
    let g (r : BitVec 5) : BitVec 64 := readG t r.toNat d
    let next : Nat := (getTile t d).pc + 4
    let sound (p : Bool) (n : Nat) : Prop := Sparse.get 0 d.ctr.err (if p then 65536 + n else t * 64 + n) = 0
    let bad (p : Bool) (n : Nat) : Bool := if p then poolPoisoned n d else localPoisoned t n d
    let value (p : Bool) (n : Nat) (e : Dev) : Nat := if p then poolValue n e else localValue t n e
    let met (p : Bool) (n : Nat) (v : BitVec 64) : Prop := bad p n = false ∧ v.toNat ≤ value p n d
    (∀ u a p (i : BitVec 15), AtInstr t (.cadd u a p i) d → counterNamed t p i.toNat d = true → sound p i.toNat →
      0 < (g a).toInt → (bad p i.toNat = false → value p i.toNat d + (g a).toNat < 2 ^ 64) →
      Completes (.cadd t) s (fun d' =>
        (∀ q n, value q n d' = if q = p ∧ n = i.toNat ∧ bad p n = false then value q n d + (g a).toNat else value q n d) ∧
        (∀ j, readG t j d' = readG t j d) ∧ (getTile t d').pc = next ∧ (∀ u, u ≠ t → getTile u d' = getTile u d) ∧
        d'.mem.phys = d.mem.phys)) ∧
    (∀ r u p (i : BitVec 15), AtInstr t (.cread r u p i) d → counterNamed t p i.toNat d = true → sound p i.toNat →
      Completes (.cread t) s (CoreStep t r.toNat
        (if bad p i.toNat then BitVec.allOnes 64 else BitVec.ofNat 64 (value p i.toNat d)) next d)) ∧
    (∀ u a p (i : BitVec 15), AtInstr t (.cwait u a p i) d → counterNamed t p i.toNat d = true → sound p i.toNat →
      (p = true → watching (.core t) d = false) →
      (met p i.toNat (g a) → Completes (.cwait t) s (CoreStep t 0 0 next d)) ∧
      (¬ met p i.toNat (g a) → Completes (.cwait t) s (fun d' =>
        getTile t d' = { getTile t d with wait := .counter p i.toNat (g a).toNat } ∧
        d'.ctr.watches = d.ctr.watches ++
          (if p then [{ counter := i.toNat, expected := (g a).toNat, waiter := .core t }] else []) ∧
        CoreWaitFrame t d d'))) ∧
    (∀ r a p (i : BitVec 15), AtInstr t (.cwaitt r a p i) d → counterNamed t p i.toNat d = true → sound p i.toNat →
      (p = true → watching (.core t) d = false) →
      (met p i.toNat (g a) → Completes (.cwaitt t) s (CoreStep t r.toNat 0 next d)) ∧
      (¬ met p i.toNat (g a) → (g r).toNat = 0 → watching (.core t) d = false →
        Completes (.cwaitt t) s (CoreStep t r.toNat 1 next d)) ∧
      (¬ met p i.toNat (g a) → 0 < (g r).toNat → Completes (.cwaitt t) s (fun d' =>
        getTile t d' = { getTile t d with wait := .timed p i.toNat (g a).toNat r.toNat (ccNow d + (g r).toNat) } ∧
        CoreWaitFrame t d d')))

/-- R138, R151, R191 and R192: CWAIT_RELEASE lets a core go on whose counter has reached its expected value (a CWAITT
gives 0), CWAITT_TIMEOUT one whose time has passed without that (it gives 1), ISSUE_RESUME one whose engine's queue
has a free entry again (its word joins the queue) and WAITE_RELEASE one whose engines have retired its words.
Outside an observed trace, nothing else of the device differs but the wait's own watch and stall. -/
def Obligations.CoreReleases : Prop :=
  ∀ (s : State) (t : Nat),
    let d := s.dev
    let x := getTile t d
    t < 128 → coreLive t d = true → tracing t d = false →
    (∀ p i e, x.wait = .counter p i e → waitMet t p i e d = true → Completes (.cwaitRelease t) s (fun d' =>
      getTile t d' = { x with wait := .free, pc := x.pc + 4 } ∧ CoreWaitFrame t d d')) ∧
    (∀ p i e r c, x.wait = .timed p i e r c → waitMet t p i e d = true → Completes (.cwaitRelease t) s (fun d' =>
      readG t r d' = 0 ∧ (∀ j, j ≠ r → readG t j d' = readG t j d) ∧
      getTile t d' = { x with wait := .free, pc := x.pc + 4, g := (getTile t d').g } ∧ CoreWaitFrame t d d')) ∧
    (∀ p i e r c, x.wait = .timed p i e r c → waitMet t p i e d = false → c ≤ ccNow d →
      Completes (.cwaittTimeout t) s (fun d' =>
        (r ≠ 0 → readG t r d' = 1) ∧ (∀ j, j ≠ r → readG t j d' = readG t j d) ∧ watching (.core t) d' = false ∧
        getTile t d' = { x with wait := .free, pc := x.pc + 4, g := (getTile t d').g } ∧ CoreWaitFrame t d d')) ∧
    (∀ m, x.wait = .engines m → enginesDone t m d = true → Completes (.waiteRelease t) s (fun d' =>
      getTile t d' = { x with wait := .free, pc := x.pc + 4 } ∧ CoreWaitFrame t d d')) ∧
    (∀ a, x.wait = .issueFull a → a % 2 = 0 →
      let w : BitVec 128 := readG t (a + 1) d ++ readG t a d
      headerGood w = true → (wEng w = 6 → wOp w = 2 → wField w 66 32 ≠ 0) →
      (queueOf t (wEng w) d).length < queueDepth (wEng w) → Completes (.issueResume t) s (fun d' =>
        (∃ q : QWord, queueOf t (wEng w) d' = queueOf t (wEng w) d ++ [q] ∧ q.word = w ∧ q.tenant = coreTenant t d ∧
          q.snap = if wWctr w = 63 then 0 else (readG t (wWreg w) d).toNat) ∧
        getTile t d' = { x with wait := .free, pc := x.pc + 4, queues := (getTile t d').queues, issued := x.issued + 1 } ∧
        CoreWaitFrame t d d'))

/-- R142, R138, R136 and R135: an ISSUE of an even a whose header is good puts g[a], g[a + 1] with the snapshot of
g[WREG] (none where WCTR is 63) at the end of the engine's queue, or holds the core where the queue is full; WAITE
goes on where the masked engines have retired every word of the core's rank, and holds the core otherwise; END ends
the segment. -/
def Obligations.CoreIssue : Prop :=
  ∀ (s : State) (t : Nat),
    let d := s.dev
    let x := getTile t d
    (∀ a : BitVec 5, AtInstr t (.issue a) d → a.toNat % 2 = 0 →
      let w : BitVec 128 := readG t (a.toNat + 1) d ++ readG t a.toNat d
      headerGood w = true → (wEng w = 6 → wOp w = 2 → wField w 66 32 ≠ 0) →
      ((queueOf t (wEng w) d).length < queueDepth (wEng w) → Completes (.issue t) s (fun d' =>
        (∃ q : QWord, queueOf t (wEng w) d' = queueOf t (wEng w) d ++ [q] ∧ q.word = w ∧ q.tenant = coreTenant t d ∧
          q.snap = (if wWctr w = 63 then 0 else (readG t (wWreg w) d).toNat) ∧ q.number = x.issued) ∧
        (∀ e, e ≠ wEng w → queueOf t e d' = queueOf t e d) ∧
        getTile t d' = { x with pc := x.pc + 4, queues := (getTile t d').queues, issued := x.issued + 1 } ∧
        CoreFrame t d d')) ∧
      (queueDepth (wEng w) ≤ (queueOf t (wEng w) d).length → Completes (.issue t) s (fun d' =>
        getTile t d' = { x with wait := .issueFull a.toNat } ∧ CoreWaitFrame t d d'))) ∧
    (∀ u m, AtInstr t (.waite u m) d →
      (enginesDone t m.toNat d = true → Completes (.waite t) s (CoreStep t 0 0 (x.pc + 4) d)) ∧
      (enginesDone t m.toNat d = false → Completes (.waite t) s (fun d' =>
        getTile t d' = { x with wait := .engines m.toNat } ∧ CoreWaitFrame t d d'))) ∧
    (AtInstr t .end_ d → Completes (.endSegment t) s (fun d' =>
      getTile t d' = { x with wait := .free, seg := x.seg.map fun g => { g with ended := true } } ∧
      (∀ u, u ≠ t → getTile u d' = getTile u d) ∧ (tracing t d = false → CoreWaitFrame t d d')))

/-- R155 with R134, R136, R137, R139, R189 and R190: an illegal instruction, a bad branch or jump target, a bad LDW
address, a counter that may not be named, an add of a non-positive amount and one that would wrap end the segment;
the core executes nothing further of it, and a Running run moves to Halted at the next tick. A jump has written pc + 4
into d first. -/
def Obligations.CoreTraps : Prop :=
  ∀ (s : State) (t : Nat),
    let d := s.dev
    let x := getTile t d
    let g (r : BitVec 5) : BitVec 64 := readG t r.toNat d
    let ends (c : Instr) (num : Nat) : Prop := Completes c s (fun d' =>
      (getTile t d').seg = (x.seg.map fun g => { g with ended := true }) ∧ (getTile t d').pc = x.pc ∧ coreRuns t d' = false ∧
      ((getRun (coreTenant t d) d).running = true → (getRun (coreTenant t d) d').haltPending = true) ∧
      (∀ u, u ≠ t → getTile u d' = getTile u d) ∧ d'.mem.phys = d.mem.phys ∧
      Sparse.get 0 d'.ev.counts 1 = satAdd 64 (Sparse.get 0 d.ev.counts 1) 1 ∧
      (d.ev.queue.length < 510 → ∃ e ∈ d'.ev.queue, Raised 1 num (srcTile t) (some (coreTenant t d)) d e))
    t < 128 → coreRuns t d = true → x.pc < 262144 → Sparse.get 0 d.mem.imemErr (fetchAddr t d / 8) ≤ 1 →
    (CoreInstr.decode (fetchWord t d) = none → ends (.illegalInstruction t) evCoreIllegal) ∧
    (∀ r i, CoreInstr.decode (fetchWord t d) = some (.rsr r i) → 10 ≤ i.toNat → ends (.illegalInstruction t) evCoreIllegal) ∧
    (∀ r off, CoreInstr.decode (fetchWord t d) = some (.jal r off) →
      targetGood ((x.pc : Int) + off.toInt * 4) = false → ends (.jal t) evCorePc) ∧
    (∀ r a imm, CoreInstr.decode (fetchWord t d) = some (.jalr r a imm) →
      targetGood (g a + imm.signExtend 64 * 4).toNat = false → ends (.jalr t) evCorePc) ∧
    (∀ r a imm, CoreInstr.decode (fetchWord t d) = some (.ldw r a imm) →
      ((g a + imm.signExtend 64 * 8).toNat % 8 ≠ 0 ∨ 262144 ≤ (g a + imm.signExtend 64 * 8).toNat) →
      ends (.ldw t) evCoreAddr) ∧
    (∀ u a p i, CoreInstr.decode (fetchWord t d) = some (.cadd u a p i) → counterNamed t p i.toNat d = false →
      ends (.cadd t) evCounterRange) ∧
    (∀ u a p i, CoreInstr.decode (fetchWord t d) = some (.cadd u a p i) → counterNamed t p i.toNat d = true →
      (g a).toInt ≤ 0 → ends (.cadd t) evCounterDecrease) ∧
    (∀ u a (i : BitVec 15), CoreInstr.decode (fetchWord t d) = some (.cadd u a false i) →
      counterNamed t false i.toNat d = true → 0 < (g a).toInt → Sparse.get 0 d.ctr.err (t * 64 + i.toNat) = 0 →
      localPoisoned t i.toNat d = false → 2 ^ 64 ≤ localValue t i.toNat d + (g a).toNat → ends (.cadd t) evCounterWrap) ∧
    (∀ u a p i, CoreInstr.decode (fetchWord t d) = some (.cwait u a p i) → counterNamed t p i.toNat d = false →
      ends (.cwait t) evCounterRange) ∧
    (∀ r a p i, CoreInstr.decode (fetchWord t d) = some (.cwaitt r a p i) → counterNamed t p i.toNat d = false →
      ends (.cwaitt t) evCounterRange) ∧
    (∀ r u p i, CoreInstr.decode (fetchWord t d) = some (.cread r u p i) → counterNamed t p i.toNat d = false →
      ends (.cread t) evCounterRange)

/-- R32, R34, R38, R40 and R475. A ready clapper whose next tick is no more than L away announces it: its first copy
goes out on every child port with its LEAD (`announceTick`), and its second is due 256 fc later; in role 2 the phase
takes its step and an edge of FRAME_IN is expected with every 2^m-th tick. A second copy that is due leaves on every
child port. FRAME_OUT is low from 1 us after the tick.
R34, R36, R37 and R51. On a ready device, the first good copy of a tick on the parent port fixes its time at
arr + LEAD - d, where that is 1 us or more away, and at arr + 1 us with TICK_LATE where it is not; it ends holdover and
is forwarded to the children with HOPS + 1. Another copy of a tick whose time is fixed changes no plan. A copy on
another port, and any copy that a clapper receives, is discarded and counted, with TICK_OFF_TREE; one on the parent
port that fails its CRC is ignored. -/
def Obligations.TickSets : Prop :=
  (∀ (s : State) (d : Dev), s.dev = d →
     (clapperRole d ≠ 0 → d.boot.state = 1 → lastAnnounced d = false →
       (nextOwn d).2.1 ≤ d.now + dictGet 0x2000 4 d * tUs →
       let n : Nat := (nextOwn d).1
       let at_ : Nat := max d.now (nextOwn d).2.1
       let e := takeStep (nextOwn d).2.2
       Answers .tickSend s (announceTick { frame := n, time := at_, period := periodK d, hold := ownHold d, hops := 0, late := false }
         (if clapperRole d = 2 ∧ n % 2 ^ dictGet 0x2000 7 d = 0 then { e with clk.edges := e.clk.edges ++ [(at_, e.clk.phase)] }
          else e))) ∧
     (∀ x xs, d.clk.seconds = x :: xs → x.due ≤ d.now → (∀ y ∈ xs, d.now < y.due) →
       Answers .tickSecondCopy s
         ((childPorts d).foldl (fun e p => sendSet p 0 (tickSet x.frame x.period x.hold x.hops x.lead) e)
           { d with clk.seconds := xs })) ∧
     (d.clk.lastTick + tUs ≤ d.now → Answers .frameOutFall s { d with clk.frameOut := false })) ∧
  (∀ (s : State) (d : Dev) (port : Nat) (set : BitVec 128), s.dev = d →
     let n := bitsOf set.toNat 0 48
     let hops := bitsOf set.toNat 56 8
     let t : Int := (d.now : Int) + bitsOf set.toNat 64 32 - delayUnits port d
     let e := { d with clk.missed := 0, clk.lost := false }
     let plan (at_ : Nat) (late : Bool) : PlannedTick :=
       { frame := n, time := at_, period := bitsOf set.toNat 48 3 + 5, hold := bitOf set.toNat 51 || ownHold e
         hops := hops + 1, late := late }
     port < 9 → (getPort port d).state = 2 → d.boot.state = 1 →
     (clapperRole d = 0 → port = parentPort d → crc16Good set = true → hops ≤ 56 →
       (knownTick n d = false → (d.now : Int) + tUs ≤ t →
         Answers (.tickOrderedSet port set) s (announceTick (plan t.toNat false) { e with clk.lastHops := hops })) ∧
       (knownTick n d = false → t < (d.now : Int) + tUs →
         Answers (.tickOrderedSet port set) s
           (raise 4 evTickLate (srcPort port) (announceTick (plan (d.now + tUs) true) { e with clk.lastHops := hops }))) ∧
       (knownTick n d = true → Answers (.tickOrderedSet port set) s e)) ∧
     (clapperRole d = 0 → port = parentPort d → crc16Good set = false → Answers (.tickOrderedSet port set) s d) ∧
     (clapperRole d ≠ 0 ∨ port ≠ parentPort d →
       Answers (.tickOrderedSet port set) s
         (raise 4 evTickOffTree (srcPort port) { d with clk.offTree := d.clk.offTree + 1 })))

/-- R39, R40 and R32. A follower with no tick planned near the prediction ticks on it, tells its children with HOLD = 1
and raises TICK_MISSED; with 16 missed in a row TICK_LOST makes every Running run halt at the next tick, and one record
with no run says so where none runs. An edge of FRAME_IN within 1 us of its time ends holdover, and one more than
20 ns away sets the correction that is left; an edge near no expected one, and one in another role, changes nothing but
the count. The fourth expected edge in a row that has not come begins holdover with FRAME_IN_MISSING.
R35 and Table 12.3. On a port that is up, a good request (PHASE 0) is answered with a reply that carries t2 and t3,
and a good reply to this end's request gives a new value of d, with the request no longer open; a reply that answers no
request, a set that fails its CRC and a set on a port that is not up change nothing. -/
def Obligations.TickFaults : Prop :=
  (∀ (s : State) (d : Dev), s.dev = d →
     let pred := d.clk.lastTick + framePeriod d
     (clapperRole d = 0 → d.boot.state = 1 → d.clk.placed = true → pred ≤ d.now + tUs →
       (∀ p ∈ d.clk.planned, framePeriod d < 2 * ((p.time : Int) - pred).natAbs) →
       Answers .tickMissed s (announceTick
         { frame := (d.clk.frame + 1) % 2 ^ 48, time := max pred d.now, period := periodK d, hold := true
           hops := d.clk.lastHops + 1, late := false }
         (raise 4 evTickMissed (tickSource d) { d with clk.missed := d.clk.missed + 1 }))) ∧
     (clapperRole d = 0 → d.clk.lost = false → 16 ≤ d.clk.missed →
       (runningTenants d = [] → Answers .tickLost s (raise 2 evTickLost 0 { d with clk.lost := true })) ∧
       (runningTenants d ≠ [] → Answers .tickLost s
         ((runningTenants d).foldl (fun e t => faultRun 2 evTickLost 0 t e) { d with clk.lost := true }))) ∧
     (clapperRole d ≠ 2 → Answers .frameInEdge s d) ∧
     (clapperRole d = 2 → nearestEdge d = none → Answers .frameInEdge s { d with clk.edgeIgnored := d.clk.edgeIgnored + 1 }) ∧
     (∀ e, clapperRole d = 2 → nearestEdge d = some e → tUs < ((d.now : Int) - e.1).natAbs →
       Answers .frameInEdge s { d with clk.edgeIgnored := d.clk.edgeIgnored + 1 }) ∧
     (∀ e, clapperRole d = 2 → nearestEdge d = some e → ((d.now : Int) - e.1).natAbs ≤ 20 * tNs →
       d.clk.edgeLocked = true → d.clk.phaseError = 0 →
       Answers .frameInEdge s { d with clk.edges := d.clk.edges.filter (· != e), clk.edgeMissing := 0, clk.edgeHold := false }) ∧
     (∀ e, clapperRole d = 2 → nearestEdge d = some e → 20 * tNs < ((d.now : Int) - e.1).natAbs →
       ((d.now : Int) - e.1).natAbs ≤ tUs → 20 ≤ ((d.now : Int) - e.1 - (d.clk.phase - e.2)).natAbs →
       Answers .frameInEdge s
         { d with clk.edges := d.clk.edges.filter (· != e), clk.edgeMissing := 0, clk.edgeHold := false
                  clk.phaseError := (d.now : Int) - e.1 - (d.clk.phase - e.2) }) ∧
     (let gone (e : Nat × Int) : Bool := decide (e.1 + tUs < d.now)
      let n := d.clk.edgeMissing + (d.clk.edges.filter gone).length
      let e := { d with clk.edges := d.clk.edges.filter fun x => !gone x, clk.edgeMissing := n }
      (n < 4 → Answers .frameInMissing s e) ∧
      (clapperRole d = 2 → 4 ≤ n → d.clk.edgeHold = false →
        Answers .frameInMissing s (raise 4 evFrameInMissing 0 { e with clk.edgeHold := true })))) ∧
  (∀ (s : State) (d : Dev) (port : Nat) (set : BitVec 128), s.dev = d →
     let v := set.toNat
     let sent := Sparse.get 0 d.clk.calSent port
     port < 9 →
     ((getPort port d).state = 2 → crc16Good set = true →
       (bitsOf v 0 2 = 0 → Answers (.calibrationOrderedSet port set) s
         (emit (.orderedSet port 1 (calibrationSet 1 d.now d.now)) d)) ∧
       (bitsOf v 0 2 = 1 → sent ≠ 0 → Answers (.calibrationOrderedSet port set) s
         (delaySample port (exchangeDelay port (sent - 1) (bitsOf v 8 48) (bitsOf v 56 48) d.now d)
           { d with clk.calSent := Sparse.set 0 d.clk.calSent port 0 })) ∧
       (bitsOf v 0 2 = 1 → sent = 0 → Answers (.calibrationOrderedSet port set) s d)) ∧
     ((getPort port d).state ≠ 2 ∨ crc16Good set = false → Answers (.calibrationOrderedSet port set) s d))

/-- R45 and R46. At the start of a Running run's guard band in the last building frame of its run frame, with every
segment, collective and chain of it finished, nothing is raised and the guard band is passed (GUARD_BAND). A tile whose
one unfinished segment is of the ending run frame raises FRAME_SLIP: class 0x2 under the fault policy, which halts the
run at the next tick, and class 0x4 under the stretch policy, where the slip request asks for factor 2 at run frame
n + D. GUARD_BAND does nothing before its time. -/
def Obligations.GuardBandSlips : Prop :=
  ∀ (s : State) (d : Dev) (t : Nat), s.dev = d → t < 1024 →
    let r := getRun t d
    let e := modRun t (fun x => { x with guarded := r.index + 1 }) d
    (r.running = true → r.spanLeft ≤ 1 → d.clk.placed = true → r.guarded ≠ r.index + 1 → guardTime t d ≤ d.now →
      (∀ x, unfinished x t d = []) → (∀ i ∈ d.coll.insts, instLate t r.index i e = false) →
      (∀ c ∈ d.coll.chains, ¬ (c.tenant = t ∧ c.auto = true ∧ c.r ≤ r.index)) → Answers (.guardBand t) s e) ∧
    (d.now < guardTime t d ∨ r.running = false ∨ r.guarded = r.index + 1 → Answers (.guardBand t) s d) ∧
    (∀ x g, unfinished x t d = [g] → g.runFrame = r.index →
      let slipped := { d with clk.slips := satAdd 64 d.clk.slips 1 }
      (r.con.policy = 1 → guardTile t r.index x (false, d) = (true, faultRun 2 evFrameSlip (srcTile x) t slipped)) ∧
      (r.con.policy ≠ 1 → 0 < r.con.notice →
        guardTile t r.index x (false, d) = (true, raiseT 4 evFrameSlip (srcTile x) t slipped))) ∧
    (r.con.policy ≠ 1 →
      slipRequest t d = sendStretch t { target := d.clk.frame + r.con.notice, source := 0, logf := 1, fin := false } d)

/-- R48 to R50. A request packet that waits at the network interface is taken: a payload that R48 discards is counted; a
stretch request is kept by an Armed or Running run for its boundary, and one whose TARGET has passed is STRETCH_LATE for
a Running run; a halt request is kept by a Running run, and a late one halts it at the next tick; a run in another
state ignores either. R47 and R48: at a boundary the requests due are merged by source: slip requests count once by their
largest LOGF for that boundary alone; each of sources 1 to 3 takes the largest LOGF among its requests with END = 0,
nothing after END = 1 alone, and keeps what it had where none is due. The factor is 2^min(5, sum), STRETCH_LIMIT is raised
exactly where the sum is above 5, the requests due are dropped and the others kept; nothing else of the run or of another
run changes. -/
def Obligations.Stretches : Prop :=
  (∀ (s : State) (d e : Dev) (p : Packet) (halt : Bool), s.dev = d → takeStretchPacket halt d = some (p, e) →
     let c : Instr := if halt then .haltRequestReceipt else .stretchRequest
     let t := bitsOf (blockOf p) 56 10
     let r := getRun t e
     (parseStretch (blockOf p) = none → Answers c s (setRun t { r with discarded := r.discarded + 1 } e)) ∧
     (∀ q, parseStretch (blockOf p) = some q → q.source ≠ 4 →
       (r.state = .armed ∨ r.state = .running → targetPassed q.target e = false →
         Answers c s (setRun t { r with requests := r.requests ++ [q] } e)) ∧
       (r.state = .running → targetPassed q.target e = true → Answers c s (faultRun 2 evStretchLate 0 t e)) ∧
       (r.state = .armed → targetPassed q.target e = true → Answers c s e) ∧
       (r.state ≠ .armed → r.state ≠ .running → Answers c s e)) ∧
     (∀ q, parseStretch (blockOf p) = some q → q.source = 4 →
       (r.state = .running → targetPassed q.target e = false →
         Answers c s (setRun t { r with requests := r.requests ++ [q] } e)) ∧
       (r.state = .running → targetPassed q.target e = true →
         Answers c s (setRun t { r with haltAt := some (e.clk.frame + 1) } e)) ∧
       (r.state ≠ .running → Answers c s e))) ∧
  (∀ (t n : Nat) (d : Dev),
     let r := getRun t d
     let due := r.requests.filter fun q => decide (q.target ≤ n)
     let slip := (due.filter fun q => q.source == 0).foldl (fun m q => max m q.logf) 0
     let sum := slip + heldAfter due r.inForce 1 + heldAfter due r.inForce 2 + heldAfter due r.inForce 3
     let x := getRun t (applyStretches t n d)
     x.factor = 2 ^ min 5 sum ∧ x.factor ≤ 32 ∧
     (∀ k, k = 1 ∨ k = 2 ∨ k = 3 → Sparse.get 0 x.inForce k = heldAfter due r.inForce k) ∧
     x.requests = r.requests.filter (fun q => !decide (q.target ≤ n)) ∧
     x = { r with requests := x.requests, slipLog := slip, inForce := x.inForce, factor := x.factor } ∧
     (∀ u, u ≠ t → getRun u (applyStretches t n d) = getRun u d) ∧
     (sum ≤ 5 → (applyStretches t n d).ev = d.ev) ∧
     (5 < sum → Sparse.get 0 (applyStretches t n d).ev.counts 4 = satAdd 64 (Sparse.get 0 d.ev.counts 4) 1))

/-- R35, R44, R388, R24 and R404. Once a frame, 1 us before its end, every port that is up begins a calibration exchange,
and a commit that waits is evaluated: one that is refused has its outcome fixed, and one that nothing refuses and that is
quiet is fixed as applied. With no tick for 2 P, or in minimal mode, a commit is evaluated every 1 ms, and its outcome
takes effect at once; requested teardowns of runs that do not run take effect too. The later phases of a refresh change
reach one stack at a tick, and after the eighth the commit reads applied. -/
def Obligations.BoundaryWork : Prop :=
  ∀ (s : State) (d : Dev), s.dev = d →
    (d.clk.placed = true → d.clk.prepared = false → d.boot.state = 1 → d.clk.lastTick + framePeriod d ≤ d.now + tUs →
      let e := (List.range 9).foldl (fun e p => calibrationRequest p e) { d with clk.prepared := true }
      let n := d.clk.frame + 1
      (commitWaits d = false → Answers .boundaryPreparation s (rampVcore e)) ∧
      (commitWaits d = true → d.mgmt.commit.first ≤ d.clk.frame →
        (∀ o, setRefusal n e = some o →
          Answers .boundaryPreparation s (rampVcore { e with mgmt.commit.decided := some o })) ∧
        (setRefusal n e = none → notQuiet e = none →
          Answers .boundaryPreparation s (rampVcore { e with mgmt.commit.decided := some (0, 0, 0) })))) ∧
    (d.mgmt.commit.state = 1 → noTick d = true ∨ d.boot.state = 2 → d.mgmt.commit.polledAt + tMs ≤ d.now →
      d.mgmt.commit.decided = none →
      let e := { d with mgmt.commit.polledAt := d.now }
      (∀ c i k, setRefusal (d.clk.frame + 1) e = some (c, i, k) → c ≠ 0 →
        Answers .commitEvaluationNoTick s (commitOutcome c i k 0 3 { e with mgmt.commit.decided := some (c, i, k) })) ∧
      (setRefusal (d.clk.frame + 1) e = none → notQuiet e = none →
        Answers .commitEvaluationNoTick s (applyDecided d.clk.frame { e with mgmt.commit.decided := some (0, 0, 0) })) ∧
      (∀ i, setRefusal (d.clk.frame + 1) e = none → notQuiet e = some i → d.mgmt.commit.exact_ = false →
        d.now < d.mgmt.commit.arrived + setTimeout e * tMs → Answers .commitEvaluationNoTick s e)) ∧
    (noTick d = true →
      Answers .teardownNoTick s ((runTenants d).foldl (fun e t =>
        if (getRun t e).teardownPending && preRun (getRun t e) then teardownNow t true e else e) d)) ∧
    (noTick d = false → Answers .teardownNoTick s d) ∧
    (d.mem.refreshDone < 8 → d.mem.refreshAt < d.clk.ticksPlaced →
      Answers .phasedStep s { d with
        mem.refreshDone := d.mem.refreshDone + 1, mem.refreshAt := d.clk.ticksPlaced
        mgmt.commit.state := if d.mem.refreshDone = 7 ∧ d.mgmt.commit.state = 4 then 2 else d.mgmt.commit.state })

/-- R75: the word at the head of an engine's queue that is rejected leaves the queue and is put into no execution; no
counter, register or memory takes anything from it; its event is raised for its tenant with class 0x1; a Running run of
it is to halt at the next tick, and the runs of other tenants stay as they are. -/
def Obligations.RejectedWord : Prop :=
  ∀ (t e num : Nat) (q : QWord) (d : Dev), headOf t e d = some q → q.reel = none →
    let d' := rejectHead t e 1 num d
    queueOf t e d' = (queueOf t e d).drop 1 ∧
    (∀ x k, (x ≠ t ∨ k ≠ e) → queueOf x k d' = queueOf x k d) ∧
    (∀ x, getTile x d' = { getTile x d with queues := (getTile x d').queues }) ∧
    d' = { d with tiles := d'.tiles, runs := d'.runs, ev := d'.ev } ∧
    ((getRun q.tenant d).running = true → getRun q.tenant d' = { getRun q.tenant d with haltPending := true }) ∧
    (∀ u, u ≠ q.tenant ∨ (getRun q.tenant d).running = false → getRun u d' = getRun u d) ∧
    Sparse.get 0 d'.ev.counts 1 = satAdd 64 (Sparse.get 0 d.ev.counts 1) 1

/-- R144, R143, R140 and R141, for the stride and scale words of the matrix array, the one of the matrix-vector unit and
the three of the output stage: at the head of its queue, with its reserved bits and cue fields 0 and its counter
reached, the word leaves the queue, its bits [127:32] become the state of its OP, and its work is done; a word with a
reserved bit or a cue field set is rejected with WORD_FIELD; one whose counter is short stays. -/
def Obligations.ConfigurationWords : Prop :=
  ∀ (s : State) (d : Dev) (t : Nat) (q : QWord), s.dev = d →
    let config (c : Instr) (e op res : Nat) : Prop :=
      AtHead t e q d → wOp q.word = op →
      (wField q.word res (128 - res) ≠ 0 ∨ cueBad q.word = true →
        Answers c s (asTile t (rejectHead t e 1 evWordField) d)) ∧
      (wField q.word res (128 - res) = 0 → cueBad q.word = false →
        (CounterMet t q d → Completes c s (fun d' =>
          Sparse.get 0 (getTile t d').cfg (cfgKey q.ctx e op) = q.word.extractLsb' 32 96 ∧
          (∀ k, k ≠ cfgKey q.ctx e op → Sparse.get 0 (getTile t d').cfg k = Sparse.get 0 (getTile t d).cfg k) ∧
          queueOf t e d' = (queueOf t e d).drop 1 ∧ execOf t e d' = execOf t e d ++ [{ q with phase := .done }] ∧
          getTile t d' = { getTile t d with
            cfg := (getTile t d').cfg, queues := (getTile t d').queues, exec := (getTile t d').exec } ∧
          (∀ x, x ≠ t → getTile x d' = getTile x d) ∧
          d' = settle { d with tiles := d'.tiles, twin.tag := [] })) ∧
        (CounterShort t q d → Answers c s (untagged d)))
    config (.matrixStrideConfig t) 0 1 82 ∧ config (.matrixScaleConfig t) 0 2 100 ∧ config (.mvConfig t) 1 1 100 ∧
    config (.outputScalars t) 2 2 96 ∧ config (.outputClip t) 2 3 96 ∧ config (.outputVectors t) 2 4 100

/-- R143 with R140, R145 and R366. At the head of the queue of the array (engine 0) or the matrix-vector unit (1): a
reserved OP is rejected with WORD_FIELD; a word that fails a check is rejected with the check's event; one whose counter
is short stays; one whose counter is reached dispatches and requests its cue. A word that holds its cue runs to its
end (`arrayRun`, `mvRun`) and has done its work, or waits while an earlier word has yet to touch its rows (R63). -/
def Obligations.ComputeWords : Prop :=
  ∀ (s : State) (d : Dev) (t : Nat) (q : QWord), s.dev = d →
    let compute (c : Instr) (e reserved : Nat) (check : Option Nat) (run : Dev → Dev) : Prop :=
      (AtHead t e q d → reserved ≤ wOp q.word → wOp q.word ≠ 0 → Answers c s (asTile t (rejectHead t e 1 evWordField) d)) ∧
      (AtHead t e q d → wOp q.word = 0 →
        (∀ num, check = some num → Answers c s (asTile t (rejectHead t e 1 num) d)) ∧
        (check = none → CounterShort t q d → Answers c s (untagged d)) ∧
        (check = none → CounterMet t q d →
          Answers c s (asTile t (fun x => requestCue t e q (dispatchHead t e .waitCue x)) d))) ∧
      (t < 128 → enginesRun t d = true → q.ctx ≠ 1 → (execOf t e d).find? (fun x => x.phase == .granted) = some q →
        (rowsHeld t [1 - e, 2] q d = true → Answers c s (untagged d)) ∧
        (rowsHeld t [1 - e, 2] q d = false →
          Answers c s (asTile t (fun x => finishWord t e q.number true 0 (run x)) d)))
    compute (.matrixCompute t) 0 3 (arrayCheck t q d) (arrayRun t q) ∧
    compute (.mvCompute t) 1 2 (mvCheck t q d) (mvRun t q)

/-- R143 with R104, R95 and R146 for the output stage and R130, R147 for the vector engine: at the head of its queue, a
word with a reserved field is rejected with WORD_FIELD, one that fails its engine's conditions with OUTPUT_CONFIG or
VECTOR_CONFIG, one that touches what a sequencer word has reserved with RNN_CONFLICT; one whose counter is short stays;
otherwise it runs to its end. A fused word begins where its collective takes it, and OUTPUT_TO_SCRATCH waits for the
commits issued before it. -/
def Obligations.OutputAndVectorWords : Prop :=
  ∀ (s : State) (d : Dev) (t : Nat) (q : QWord), s.dev = d →
    let w := q.word
    let output (c : Instr) (op : Nat) : Prop :=
      AtHead t 2 q d → wOp w = op → (execOf t 2 d).find? (fun x => x.phase == .running) = none →
      let good := wField w 114 14 = 0 ∧ (op = 1 → wField w 92 5 = 0) ∧ cueBad w = false
      (¬ good → Answers c s (asTile t (rejectHead t 2 1 evWordField) d)) ∧
      (good → outputBad t q d = true → Answers c s (asTile t (rejectHead t 2 1 evOutputConfig) d)) ∧
      (good → outputBad t q d = false → conflict t (outRanges t q d).flatten [(oFirst w, oM w)] d = true →
        Answers c s (asTile t (rejectHead t 2 1 evRnnConflict) d)) ∧
      (good → outputBad t q d = false → conflict t (outRanges t q d).flatten [(oFirst w, oM w)] d = false →
        (CounterShort t q d ∨ CounterMet t q d ∧ rowsHeld t [0, 1] q d = true → Answers c s (untagged d)) ∧
        (CounterMet t q d → rowsHeld t [0, 1] q d = false →
          (op = 0 → Answers c s (asTile t (fun x => finishWord t 2 q.number true 0 (outputRun t q (dispatchHead t 2 .running x))) d)) ∧
          (op = 1 → handInCheck q.tenant q.ctx (oCctx w) (oCseg w) (oM w * oRowBytes w) (oDfmt w) (oIndex w) false d = .ok →
            Answers c s (asTile t (fun x => fusedRun t q (dispatchHead t 2 .running x)) d))))
    let vector (c : Instr) (op : Nat) (run : Dev → Dev) : Prop :=
      AtHead t 3 q d → wOp w = op →
      (wField w 121 7 ≠ 0 ∨ cueBad w = true → Answers c s (asTile t (rejectHead t 3 1 evWordField) d)) ∧
      (wField w 121 7 = 0 → cueBad w = false →
        (vectorBad w = true → Answers c s (asTile t (rejectHead t 3 1 evVectorConfig) d)) ∧
        (vectorBad w = false → conflict t (vecRanges w) [] d = true → Answers c s (asTile t (rejectHead t 3 1 evRnnConflict) d)) ∧
        (vectorBad w = false → conflict t (vecRanges w) [] d = false →
          (CounterShort t q d → Answers c s (untagged d)) ∧
          (CounterMet t q d →
            Answers c s (asTile t (fun x => finishWord t 3 q.number true 0 (run (dispatchHead t 3 .running x))) d))))
    output (.outputToScratch t) 0 ∧ output (.outputFused t) 1 ∧
    vector (.vectorLoad t) 0 (tableLoadRun t q) ∧ vector (.vectorStore t) 1 (storeRun t q) ∧
    vector (.vectorFp32 t) 2 (fp32Run t q) ∧ vector (.vectorPacked16 t) 3 (packedRun t q) ∧
    vector (.vectorInteger t) 4 (integerRun t q) ∧ vector (.vectorPermute t) 5 (permuteRun t q) ∧
    vector (.vectorReduction t) 6 (reductionRun t q) ∧ vector (.vectorFunction t) 7 (functionRun t q) ∧
    vector (.vectorConvert t) 8 (convertRun t q)

/-- Tables 5.3 and 6.10: where every word of the vector registers of the tile is sound, an FP32, packed, integer or
function word writes each lane of vd from the same lanes of its operands as they were before, a permute word as its
sub-operation places them, a reduction its value in lane 0, the index in lane 1 and 0 in the others. Every other byte of
the vector registers, every other part of the tile and the rest of the device stay. -/
def Obligations.VectorRegisters : Prop :=
  ∀ (t : Nat) (q : QWord) (d : Dev), (getTile t d).vrErr = [] →
    let w := q.word
    let lane (z r i : Nat) : Nat := leNat (Mem.readN (getTile t d).vr (r * 512 + z * i) z)
    let writes (d' : Dev) (z : Nat) (f : Nat → Nat) : Prop :=
      (∀ i, i < 512 / z → leNat (Mem.readN (getTile t d').vr (xVd w * 512 + z * i) z) = f i % 2 ^ (8 * z)) ∧
      (∀ a, a < xVd w * 512 ∨ xVd w * 512 + 512 ≤ a → Mem.get (getTile t d').vr a = Mem.get (getTile t d).vr a) ∧
      getTile t d' = { getTile t d with vr := (getTile t d').vr } ∧
      (∀ u, u ≠ t → getTile u d' = getTile u d) ∧ d' = { d with tiles := d'.tiles }
    writes (fp32Run t q d) 4 (fun i => fp32Lane (xSub w) (lane 4 (xVa w) i) (lane 4 (xVb w) i)
      (lane 4 (xVc w) i) (lane 4 (xVd w) i)) ∧
    writes (packedRun t q d) 2 (fun i => packedLane (xSub w) (xFmt w) (lane 2 (xVa w) i) (lane 2 (xVb w) i)
      (lane 2 (xVc w) i)) ∧
    writes (integerRun t q d) 4 (fun i => intLane (xSub w) (lane 4 (xVa w) i) (lane 4 (xVb w) i)
      (lane 4 (xVc w) i) (lane 4 (xVd w) i)) ∧
    writes (functionRun t q d) 4 (fun i => bits32 (flush (elemFn (xFunc w) (xCoarse w) (num32 (lane 4 (xVa w) i))))) ∧
    writes (permuteRun t q d) 4 (fun i =>
      if xSub w = 0 then lane 4 (xVa w) (lane 4 (xVb w) i % 128)
      else if xSub w = 1 then (if i < xVc w then 0 else lane 4 (xVa w) (i - xVc w))
      else if xSub w = 2 then lane 4 (if i % 2 = 0 then xVa w else xVb w) (i / 2)
      else if i < 64 then lane 4 (xVa w) (2 * i) else lane 4 (xVb w) (2 * (i - 64))) ∧
    writes (reductionRun t q d) 4 (fun i =>
      let xs := (List.range 128).map fun j => vIn (lane 4 (xVa w) j)
      let r : Machine.Num × Nat := if xSub w = 0 then (treeSum xs, 0) else reduceLanes (xSub w == 2) xs
      if i = 0 then bits32 r.1 else if i = 1 then r.2 else 0)

/-- R143 step 6: the first word of an engine that has done its work leaves execution. Where its SCTR names a local
counter, SADD + 1 is added to it (storage sound, not poisoned, no wrap); where SCTR is 63, or the word failed, no counter
changes. Every other counter and register of the tile and every other tile stay. A reel's word on the network interface
(tile 128) reports to its descriptor. With nothing finished, nothing happens. -/
def Obligations.WordRetirement : Prop :=
  ∀ (s : State) (d : Dev) (t e : Nat), s.dev = d → t ≤ 128 → e < 7 →
    let first := (execOf t e d).find? fun q => q.phase == .done || q.phase == .failed
    let out (q : QWord) (d' : Dev) : Prop :=
      (e ≠ 4 → execOf t e d' = (execOf t e d).filter fun x => x.number != q.number) ∧
      (∀ k, k ≠ e → execOf t k d' = execOf t k d) ∧ (∀ k, queueOf t k d' = queueOf t k d) ∧
      (∀ x, x ≠ t → getTile x d' = getTile x d) ∧
      d' = settle { d with tiles := d'.tiles }
    (first = none → Answers (.wordRetire t e) s d) ∧
    (∀ q, first = some q → q.reel = none → q.ctx ≠ 1 →
      (q.phase = .failed ∨ wSctr q.word = 63 → Completes (.wordRetire t e) s (fun d' =>
        out q d' ∧ (∀ i, localValue t i d' = localValue t i d))) ∧
      (q.phase = .done → t < 128 → wSctr q.word ≠ 63 → Sparse.get 0 d.ctr.err (t * 64 + wSctr q.word) = 0 →
        localPoisoned t (wSctr q.word) d = false → localValue t (wSctr q.word) d + wSadd q.word + 1 < 2 ^ 64 →
        Completes (.wordRetire t e) s (fun d' =>
          out q d' ∧
          ∀ i, localValue t i d' = localValue t i d + if i = wSctr q.word then wSadd q.word + 1 else 0))) ∧
    (∀ q r n, first = some q → q.reel = some (r, n) → t = 128 → e ≠ 4 →
      Answers (.wordRetire t e) s (setDescStatus r n q.status q.code
        (setExec t e ((execOf t e d).filter fun x => x.number != q.number) d)))

/-- R124, R125 and R143: at the head of engine 4's queue, with its context free and its counter reached, a word whose
cell record is good and touches no reservation dispatches, reserves what the record names and requests its one cue; a bad
record or one that does not lie in scratch is RNN_CONFIG; a word whose context still runs one waits. SEQUENCER_STEP runs
one step of a granted word whose wait is satisfied, context 1 first where 0 went last (R128), and does nothing where no
context holds a granted word. -/
def Obligations.SequencerWords : Prop :=
  ∀ (s : State) (d : Dev) (t : Nat), s.dev = d → t < 128 → enginesRun t d = true →
    (∀ q, headOf t 4 d = some q → q.ctx ≠ 1 →
      let w := q.word
      let good := wOp w = 0 ∧ wField w 94 34 = 0
      let free := (seqRuns t d).any (fun p => p.1 == sCtx w) = false
      let record := Mem.readN d.mem.phys (scratchAddr t (sBase w)) 128
      let bad := recordBad q.tenant (sBase w) record d || conflict t (rRanges (sBase w) record) [rRows record] d
      (¬ good → Answers (.sequencerRun t) s (asTile t (rejectHead t 4 1 evWordField) d)) ∧
      (good → chargeBad w = true → Answers (.sequencerRun t) s (asTile t (rejectHead t 4 1 evCueCharge) d)) ∧
      (good → chargeBad w = false → ¬ free ∨ free ∧ CounterShort t q d → Answers (.sequencerRun t) s (untagged d)) ∧
      (good → chargeBad w = false → free → CounterMet t q d → scratchSize < sBase w + 128 →
        Answers (.sequencerRun t) s (asTile t (rejectHead t 4 1 evRnnConfig) d)) ∧
      (good → chargeBad w = false → free → CounterMet t q d → sBase w + 128 ≤ scratchSize →
        errsIn d.mem.err (scratchAddr t (sBase w)) 128 = [] →
        (bad = true → Answers (.sequencerRun t) s (asTile t (rejectHead t 4 1 evRnnConfig) d)) ∧
        (bad = false → Answers (.sequencerRun t) s (asTile t (fun x =>
          requestCue t 4 q (modTile t (fun y => { y with seqs := Sparse.set none y.seqs (sCtx w) (some
              { number := q.number, record := record, base := sBase w, step := sT0 w, left := sN w, signalDue := false }) })
            (dispatchHead t 4 .waitCue x))) d)))) ∧
    (∀ k r q, k = (if (getTile t d).seqLast = some 0 then 1 else 0) →
      (seqRuns t d).find? (fun p => p.1 == k) = some (k, r) → wordOf t 4 r.number d = some q → q.phase = .granted →
      q.ctx ≠ 1 → r.signalDue = false → rWaits r.record = false →
      Answers (.sequencerStep t) s (asTile t (seqStep t k q r) d)) ∧
    (seqRuns t d = [] → Answers (.sequencerStep t) s (untagged d))

/-- R143 and R168. DMA_CHAIN puts the chain word at the head of engine 5's queue into execution with its chain, where
the engine has none. Each of the four descriptor rows goes on with an unfinished descriptor of its KIND of the engine's
chain, or takes the next one in line where it is of that KIND; a descriptor that breaks Table 7.12 raises DMA_CONFIG and
ends the chain, and any other is run (`runDesc`). A descriptor whose writes meet their condition completes, with AMOUNT
added to the local counter it names. With no chain, the rows do nothing. -/
def Obligations.DmaRows : Prop :=
  ∀ (s : State) (d : Dev) (e : Nat), s.dev = d →
    (∀ q, AtHead e 5 q d →
      let w := q.word
      let good := wOp w = 0 ∧ wField w 57 71 = 0 ∧ cueBad w = false
      (¬ good → Answers (.dmaChain e) s (asTile e (rejectHead e 5 1 evWordField) d)) ∧
      (good → d.chains.any (fun x => x.tile == e) = true → Answers (.dmaChain e) s (untagged d)) ∧
      (good → d.chains.any (fun x => x.tile == e) = false →
        chainConflict e (wField w 32 17 * 64) (wField w 49 8 + 1) d = false → CounterMet e q d →
        Completes (.dmaChain e) s (fun d' =>
          d'.chains = d.chains ++ [{ tile := e, tenant := q.tenant, ctx := q.ctx, base := wField w 32 17 * 64
                                     count := wField w 49 8 + 1, nextIndex := 0, flight := [], reel := none
                                     number := q.number, failed := 0 }] ∧
          queueOf e 5 d' = (queueOf e 5 d).drop 1 ∧ execOf e 5 d' = execOf e 5 d ++ [{ q with phase := .running }] ∧
          (∀ x, x ≠ e → getTile x d' = getTile x d) ∧
          d' = settle { d with tiles := d'.tiles, chains := d'.chains, twin.tag := [] }))) ∧
    (∀ k c, e < 130 → (k = 0 ∧ c = .dmaCopy e) ∨ (k = 1 ∧ c = .dmaFill e) ∨ (k = 2 ∧ c = .dmaGuardedCopy e) ∨ (k = 3 ∧ c = .dmaGather e) →
      ((d.chains.find? fun x => x.tile == e) = none → Answers c s (untagged d)) ∧
      (∀ x, (d.chains.find? fun y => y.tile == e) = some x → x.ctx ≠ 1 →
        let going := x.flight.find? fun f => !f.written && dKind f.desc == k
        let off := x.base + 64 * x.nextIndex
        let b := Mem.readN d.mem.phys (scratchAddr e off) 64
        (∀ f, going = some f → Answers c s (asTile e (runDesc x f) d)) ∧
        (going = none → x.nextIndex < x.count → x.flight.length < 4 → x.reel = none → off + 64 ≤ scratchSize →
          errsIn d.mem.err (scratchAddr e off) 64 = [] → bitOf (dFlags b) 1 = false ∨ x.flight = [] → dKind b = k →
          (configBad x.tile x.tenant b d = true → x.flight = [] →
            Answers c s (asTile e (fun y =>
              let z := { x with nextIndex := x.count, failed := if x.failed = 0 then failWith 2 (0x1000 + evDmaConfig) else x.failed }
              closeChain z (putChain z (faultRun 1 evDmaConfig x.requester.src x.tenant y))) d)) ∧
          (configBad x.tile x.tenant b d = false → dDstSp b ≠ 6 →
            let f : DmaRun := { index := x.nextIndex, desc := b, started := true, written := false, failed := false, waitMseq := 0
                                chain := x.number, row := 0, held := none }
            let y := { x with nextIndex := x.nextIndex + 1, flight := x.flight ++ [f] }
            Answers c s (asTile e (fun z => runDesc y f (putChain y z)) d))))) ∧
    (∀ x f, e < 130 → (d.chains.find? fun y => y.tile == e && y.flight.any (fun g => writesMet y g d)) = some x →
      (x.flight.find? fun g => writesMet x g d) = some f → x.ctx ≠ 1 →
      let y := { x with flight := x.flight.filter fun g => g.index != f.index }
      let c := bitsOf (dCounter f.desc) 0 14
      (bitOf (dFlags f.desc) 0 = false → Answers (.dmaDescriptorComplete e) s (asTile e (fun z => closeChain y (putChain y z)) d)) ∧
      (bitOf (dFlags f.desc) 0 = true → bitOf (dCounter f.desc) 15 = false → Sparse.get 0 d.ctr.err (e * 64 + c) = 0 →
        localPoisoned e c d = false → localValue e c d + dAmount f.desc < 2 ^ 64 →
        Answers (.dmaDescriptorComplete e) s (asTile e (fun z => closeChain y (putChain y
          (modTile e (fun v => { v with lc := Sparse.set 0 v.lc c (BitVec.ofNat 64 (localValue e c d + dAmount f.desc)) }) z))) d)))

/-- R159, R174 and R176: a write puts its bytes at its addresses and leaves every other byte; a read returns the bytes
and changes none; a read says exactly where one of the words it touches is uncorrectable, and a write where one it covers
in part is; memory keeps its canonical form. After a write a word that it covers whole is sound, and words it does not
touch keep their state; after a read no touched word has a single-bit error. R166 with Table 7.5: where every word of
physical memory is sound and the tile is the tenant's, a row of a copy between its scratch, accumulator or index plane
puts the bytes of the source row at the destination row, and every other byte of physical memory stays; a fill puts its
pattern there. -/
def Obligations.PhysicalMemory : Prop :=
  (∀ (a n : Nat) (bs : Bytes) (d : Dev), Sparse.wf 0 d.mem.err = true →
     let w := physWrite a bs d
     let r := physRead a n d
     let touched (a n k : Nat) : Prop := a / 8 ≤ k ∧ k < (a + n + 7) / 8 ∧ 0 < n
     let whole (k : Nat) : Prop := a ≤ k * 8 ∧ k * 8 + 8 ≤ a + bs.length
     (∀ x, Mem.get w.2.mem.phys x = if a ≤ x ∧ x < a + bs.length then bs.getD (x - a) 0 else Mem.get d.mem.phys x) ∧
     (Memory.wf d.mem.phys = true → Memory.wf w.2.mem.phys = true) ∧
     (w.1 = true ↔ ∃ k, touched a bs.length k ∧ ¬ whole k ∧ Sparse.get 0 d.mem.err k = 2) ∧
     (∀ k, whole k → 0 < bs.length → Sparse.get 0 w.2.mem.err k = 0) ∧
     (∀ k, ¬ touched a bs.length k → Sparse.get 0 w.2.mem.err k = Sparse.get 0 d.mem.err k) ∧
     r.1.length = n ∧ (∀ i, i < n → r.1.getD i 0 = Mem.get d.mem.phys (a + i)) ∧ r.2.2.mem.phys = d.mem.phys ∧
     (r.2.1 = true ↔ ∃ k, touched a n k ∧ Sparse.get 0 d.mem.err k = 2) ∧
     (∀ k, Sparse.get 0 r.2.2.mem.err k =
       if Sparse.get 0 d.mem.err k = 1 ∧ a / 8 ≤ k ∧ k < (a + n + 7) / 8 ∧ 0 < n then 0 else Sparse.get 0 d.mem.err k)) ∧
  (∀ (q : Requester) (k : Nat) (b : Bytes) (d : Dev), d.mem.err = [] → q.e < 128 → ownedBy q.e q.t d = true →
     dKind b = 0 ∨ dKind b = 1 → (dKind b = 0 → dSrcSp b = 1 ∨ dSrcSp b = 2 ∨ dSrcSp b = 3) →
     (dDstSp b = 1 ∨ dDstSp b = 2 ∨ dDstSp b = 3) → dLen b % 4 = 0 →
     let i := k % dCount1 b
     let j := k / dCount1 b
     let src := spaceAddr q.e (dSrcSp b) (rowAddr (dSrc b) (dSrcS1 b) (dSrcS2 b) i j)
     let dst := spaceAddr q.e (dDstSp b) (rowAddr (dDst b) (dDstS1 b) (dDstS2 b) i j)
     let r := oneRow q k b none d
     r.1 = .ok ∧ r.2.1 = none ∧
     (∀ a, a < dst ∨ dst + dLen b ≤ a → Mem.get r.2.2.mem.phys a = Mem.get d.mem.phys a) ∧
     (∀ n, n < dLen b → Mem.get r.2.2.mem.phys (dst + n) =
       if dKind b = 0 then Mem.get d.mem.phys (src + n) else BitVec.ofNat 8 (dAux b / 256 ^ (n % 4))) ∧
     (∀ u, u ≠ q.e → getTile u r.2.2 = getTile u d) ∧
     r.2.2 = { d with mem.phys := r.2.2.mem.phys, tiles := r.2.2.tiles })

/-- R143 and R148 for engine 6: a put, get or counter-add word at the head of the queue whose fields are good, that
touches no reservation and whose counter is reached dispatches as a tracked operation (R251 to R254): sent, it runs; held
back, it stays; one that cannot be sent has its status reported. A start-chain word starts the chain it names, of the
program of the present run frame, and one that names no chain of it is CHAIN_CONFIG. A bad field is WORD_FIELD. R251 to
R254 and R194: an operation whose rank is invalid is not sent (status 7); an add waits while an earlier put of its source
to the same rank is open, and is not sent (status 9) after one that failed; an operation waits with every entry taken, or
with its tenant's limit reached. One that is sent takes the lowest free entry, in state SEND with ATTEMPT 0, and leaves
every other entry as it was. -/
def Obligations.NetworkWords : Prop :=
  (∀ (s : State) (d : Dev) (t : Nat) (q : QWord), s.dev = d →
     t ≤ 128 → enginesRun t d = true → headOf t 6 d = some q → q.ctx ≠ 1 →
     let w := q.word
     let quiet := wOp w = 2 ∨ q.reel.isSome = true ∨ conflict t [(wField w 52 17 * 64, (wField w 117 11 + 1) * 64)] [] d = false
     (∀ op c, (op = 0 ∧ c = .niPut t) ∨ (op = 1 ∧ c = .niGet t) ∨ (op = 2 ∧ c = .niCounterAdd t) → wOp w = op →
       let x := withReelLocal q (wordOp t q d)
       let tagged := tagWork (segFrames t d) d
       (niFieldBad w = true → Answers c s (asTile t (rejectHead t 6 1 evWordField) d)) ∧
       (niFieldBad w = false → ¬ quiet → Answers c s (asTile t (rejectHead t 6 1 evRnnConflict) d)) ∧
       (niFieldBad w = false → quiet → CounterShort t q d → Answers c s (untagged d)) ∧
       (niFieldBad w = false → quiet → CounterMet t q d →
         (∀ d2, dispatchOp x q.ctx tagged = (.sent, d2) → Answers c s (untagged (dispatchHead t 6 .running d2))) ∧
         (∀ d2, dispatchOp x q.ctx tagged = (.wait, d2) → Answers c s (untagged d2)) ∧
         (∀ d2 n, dispatchOp x q.ctx tagged = (.notSent n, d2) →
           Answers c s (untagged (reportOp x.origin x.tenant x.rank n 0 (dispatchHead t 6 .running d2)))))) ∧
     (t < 128 → q.ctx = 0 → wOp w = 3 → niFieldBad w = false → CounterMet t q d →
       let program := programAt q.tenant 0 (getRun q.tenant d).index d
       let i := wField w 44 16
       (program = none → Answers (.niStartChain t) s (asTile t (rejectHead t 6 1 evChainConfig) d)) ∧
       (∀ body bs, program = some (body, bs) → bodyChains bs body.slots ≤ i →
         Answers (.niStartChain t) s (asTile t (rejectHead t 6 1 evChainConfig) d)) ∧
       (∀ body bs, program = some (body, bs) → i < bodyChains bs body.slots → d.coll.chains.length < 256 →
         Answers (.niStartChain t) s (asTile t (fun y =>
           startChain q.tenant (ctxRank q.tenant 0 d) body (chainAt bs body.slots i) (wField w 32 12)
             (getRun q.tenant d).index false (some (t, q.number)) (dispatchHead t 6 .running y)) d)))) ∧
  (∀ (x : Track) (ctx : Nat) (d : Dev),
     (∀ d1, rankLookup x.tenant x.rank d = (.invalid, d1) → (dispatchOp x ctx d).1 = .notSent 7) ∧
     (∀ d1, rankLookup x.tenant x.rank d = (.miss, d1) → (dispatchOp x ctx d).1 = .wait) ∧
     (∀ c d1, rankLookup x.tenant x.rank d = (.coord c, d1) →
       (x.kind = 2 → putsOpen x.origin x.tenant x.rank d1 = true → dispatchOp x ctx d = (.wait, d1)) ∧
       (x.kind = 2 → putsOpen x.origin x.tenant x.rank d1 = false → putFailed x.origin x.tenant x.rank d1 = true →
         dispatchOp x ctx d = (.notSent 9, d1)) ∧
       (x.kind ≠ 2 → 16384 ≤ entriesUsed d1 ∨ tenantGet x.tenant 0x33 d1 ≤ tenantEntries x.tenant d1 →
         dispatchOp x ctx d = (.wait, d1))) ∧
     (∀ d', dispatchOp x ctx d = (.sent, d') →
       ∃ tag, freeTag d = some tag ∧ (getTrack tag d').state = .send ∧ (getTrack tag d').attempt = 0 ∧
         (getTrack tag d').tenant = x.tenant ∧ (getTrack tag d').rank = x.rank ∧ (getTrack tag d').kind = x.kind ∧
         (∀ u, u ≠ tag → getTrack u d' = getTrack u d) ∧ (getTrack tag d).state = .free ∧ tag < 16384))

/-- R135 and R331. Where the running context's segment has ended and its engines have retired its words, and nothing
observes it, mirrors it or waits behind it, SEGMENT_FINISHED leaves the tile without a segment, free of any wait; with no
ended segment it does nothing. While the device stands in for its lost partner (states 5 and 6), CONTEXT_SWITCH takes a
stalled core to the other context where that can go on: segments, pc, wait and registers change places; otherwise it does
nothing. -/
def Obligations.SegmentsFinish : Prop :=
  ∀ (s : State) (d : Dev) (t : Nat), s.dev = d → t < 128 →
    let x := getTile t d
    (∀ g, x.seg = some g → g.ended = true → g.ctx = x.runCtx → ctxDone t x.runCtx 127 d = true → g.observed = false →
      mirroring d = false → x.nextSegs = [] → Completes (.segmentFinished t) s (fun d' =>
        getTile t d' = { x with seg := none, wait := .free } ∧ (∀ u, u ≠ t → getTile u d' = getTile u d) ∧
        d' = settle { d with tiles := d'.tiles, twin.tag := [] })) ∧
    ((∀ g, x.seg = some g → g.ended = false) → (∀ g, x.other.seg = some g → g.ended = false) →
      Answers (.segmentFinished t) s (untagged d)) ∧
    (d.twin.state = 5 ∨ d.twin.state = 6 → ctxStalled t d = true → ctxReady t d = true → d.fatal = false →
      Completes (.contextSwitch t) s (fun d' =>
        getTile t d' = { x with
          runCtx := 1 - x.runCtx, seg := x.other.seg, nextSegs := x.other.nextSegs, pc := x.other.pc
          wait := x.other.wait, g := x.other.g
          other := { seg := x.seg, nextSegs := x.nextSegs, pc := x.pc, wait := x.wait, g := x.g } } ∧
        (∀ u, u ≠ t → getTile u d' = getTile u d) ∧ d'.mem = d.mem ∧ d'.runs = d.runs ∧ d'.twin.state = d.twin.state)) ∧
    (d.twin.state ≠ 5 → d.twin.state ≠ 6 → Answers (.contextSwitch t) s (untagged d))

/-- R344 and R345. WINDOW_START begins the first waiting segment whose tenant's window is open: on a tile that the tenant
owns and whose context is free it is at its entry with nothing held; with no window open it does nothing. At a window's end
an unfinished segment is cut: WINDOW_OVERRUN is raised for its tenant with class 0x2, a Running run halts at the next
tick, the tile holds no segment of it, and nothing of it is queued or executes there; before the end nothing happens. -/
def Obligations.TileWindows : Prop :=
  ∀ (s : State) (d : Dev) (t : Nat), s.dev = d → t < 128 →
    let x := getTile t d
    let open_ (g : Segment) : Bool :=
      decide (windowAt (windowOf g.tenant d).1 d ≤ d.now) && decide (d.now < windowAt (windowOf g.tenant d).2 d)
    ((∀ g ∈ x.windowSegs, open_ g = false) → Answers (.windowStart t) s (untagged d)) ∧
    (∀ g, x.windowSegs.find? open_ = some g → g.ctx = 0 → x.runCtx = 0 → x.seg = none → x.switchTo = none →
      x.owner = g.tenant → captureHolds t d = false → obsEnabled g.tenant 2 d = false →
      Completes (.windowStart t) s (fun d' =>
        getTile t d' = { x with
          windowSegs := x.windowSegs.filter (· != g), stopped := false, seg := some { g with startedAt := ccNow d }
          pc := g.entry, wait := .free } ∧
        (∀ u, u ≠ t → getTile u d' = getTile u d) ∧ d'.mem = d.mem)) ∧
    (windowTenant t d = none → Answers (.windowEnd t) s (untagged d)) ∧
    (∀ u, windowTenant t d = some u → d.now < windowAt (windowOf u d).2 d → Answers (.windowEnd t) s (untagged d)) ∧
    (∀ u g, windowTenant t d = some u → windowAt (windowOf u d).2 d ≤ d.now → x.seg = some g → g.tenant = u →
      g.ended = false → (getRun u d).running = true →
      Completes (.windowEnd t) s (fun d' =>
        (getTile t d').seg = none ∧ (getTile t d').wait = .free ∧
        (∀ e, e < 7 → (∀ q ∈ queueOf t e d', q.tenant ≠ u) ∧ ∀ q ∈ execOf t e d', q.tenant ≠ u) ∧
        (getRun u d').haltPending = true ∧ (∀ v, v ≠ u → getRun v d' = getRun v d) ∧
        (∀ v, v ≠ t → getTile v d' = getTile v d) ∧
        Sparse.get 0 d'.ev.counts 2 = satAdd 64 (Sparse.get 0 d.ev.counts 2) 1))

/-- R347 and R163. A waiting switch begins once nothing of the outgoing tenant holds the tile and is complete 3,344 core
cycles later; before either it does nothing, and with no switch asked for it does nothing. Where the save and the restore
succeed, a completed switch leaves the tile owned by the new tenant, with its generator lanes, local counters and
configuration as the tenant's area has them, its vector registers, weight sets, x buffer and poison flags cleared, and
scratch, accumulator and index plane reading 0. -/
def Obligations.TenantSwitches : Prop :=
  ∀ (s : State) (d : Dev) (t : Nat), s.dev = d → t < 128 →
    let x := getTile t d
    (x.switchTo = none → Answers (.tenantSwitch t) s (untagged d)) ∧
    (∀ g, x.switchTo = some g → x.switchAt = none → x.owner ≠ 0xFFFF →
      (switchReady t d = false → Answers (.tenantSwitch t) s (untagged d)) ∧
      (switchReady t d = true →
        Answers (.tenantSwitch t) s (untagged (setTile t { x with switchAt := some (ccNow d) } d)))) ∧
    (∀ g n, x.switchTo = some g → x.switchAt = some n →
      (ccNow d < n + 3344 → Answers (.tenantSwitch t) s (untagged d)) ∧
      (n + 3344 ≤ ccNow d → Answers (.tenantSwitch t) s (asTile t (doSwitch t g) d))) ∧
    (∀ g e b f, x.owner ≠ 0xFFFF → g.ctx = 0 → x.runCtx = 0 →
      vaWrite t x.owner 0 (contextVa x.owner t d) false (savedContext t d) d = (.ok, e) →
      vaFetch t g.tenant 0 (contextVa g.tenant t e) 4096 e = (.ok, b, f) →
      let y := getTile t (doSwitch t g d)
      y.owner = g.tenant ∧ y.switchTo = none ∧ y.switchAt = none ∧ y.pc = g.entry ∧ y.vr = [] ∧ y.poison = [] ∧
      y.xbuf = [] ∧ y.wActive = [] ∧ y.wShadow = [] ∧ y.wLoaded = false ∧ y.xLoaded = false ∧
      (∀ n, n < 512 → Sparse.get 0 y.gen (genKey 0 n) = BitVec.ofNat 32 (fieldAt b (4 * n) 4)) ∧
      (∀ n, n < 31 → Sparse.get 0 y.g (n + 1) = BitVec.ofNat 64 (fieldAt b (0x800 + 8 * n) 8)) ∧
      (∀ n, n < 48 → Sparse.get 0 y.lc n = BitVec.ofNat 64 (fieldAt b (0x900 + 8 * n) 8)) ∧
      (∀ n, n < 0x600000 → Mem.get (doSwitch t g d).mem.phys (scratchAddr t n) = 0) ∧
      (∀ n, n < 0x100000 → Mem.get (doSwitch t g d).mem.phys (accAddr t n) = 0) ∧
      (∀ n, n < 0x80000 → Mem.get (doSwitch t g d).mem.phys (idxAddr t n) = 0))

/-- R450, R451 and R455 to R457. PC_SAMPLE on a tile that is sampled, in a cycle whose number is a multiple of 2^n and
that has no sample yet, counts a sample, and drops and counts the record where the tenant's observation of samples is
off; elsewhere it does nothing. OBS_DRAIN and CAPTURE_COMPLETE drop and count the first record of a tenant whose
observation is off; a record whose bytes are in its ring and settled leaves its place, with PROD moved by its length; with
nothing staged or captured they do nothing. -/
def Obligations.Observation : Prop :=
  ∀ (s : State) (d : Dev) (t : Nat), s.dev = d → t < 128 →
    let n := ccNow d
    let sampled := bitOf (dictGet 0x7800 2 d) t ∧ n % 2 ^ dictGet 0x7800 1 d = 0 ∧ (getTObs t d).sampledAt ≠ n + 1
    let x := getTObs t d
    let tagged := tagWork (segFrames t d) d
    let prod (k r : Nat) (e : Dev) : Nat := (Sparse.get {} (getObs k e).rings r).prod
    (¬ sampled → Answers (.pcSample t) s (untagged d)) ∧
    (sampled → obsEnabled (getTile t d).owner 1 d = false → Answers (.pcSample t) s
      (untagged (obsCount 3 1 (obsCount 0 1 (modTObs t (fun y => { y with sampledAt := n + 1 }) d))))) ∧
    (x.staged = [] → Answers (.obsDrain t) s (untagged d)) ∧
    (∀ r rest, x.staged = r :: rest → (getObs r.tenant d).on = false →
      Answers (.obsDrain t) s (untagged (modTObs t (fun y => { y with staged := rest }) (obsCount 3 1 d)))) ∧
    (∀ r rest, x.staged = r :: rest → (getObs r.tenant d).on = true → r.written = true →
      ringSettled r.tenant r.ring r.len d = true → (ringAdvance r.tenant r.ring r.len tagged).1 = .written →
      Completes (.obsDrain t) s (fun d' => (getTObs t d').staged = rest ∧
        prod r.tenant r.ring d' = prod r.tenant r.ring d + r.len ∧
        ∀ k j, k ≠ r.tenant ∨ j ≠ r.ring → prod k j d' = prod k j d)) ∧
    (∀ r rest, x.staged = r :: rest → (getObs r.tenant d).on = true → r.written = true →
      ringSettled r.tenant r.ring r.len d = false → Answers (.obsDrain t) s (untagged d)) ∧
    (x.captures = [] → (getTile t d).runCtx = 0 → (getTile t d).nextSegs = [] → Answers (.captureComplete t) s (untagged d)) ∧
    (∀ c rest, x.captures = c :: rest → (getObs c.tenant d).on = false → (getTile t d).runCtx = 0 → (getTile t d).nextSegs = [] →
      Answers (.captureComplete t) s (untagged (modTObs t (fun y => { y with captures := rest }) (obsCount 3 1 d)))) ∧
    (∀ c rest, x.captures = c :: rest → (getObs c.tenant d).on = true → c.written = true → (getTile t d).runCtx = 0 →
      (getTile t d).nextSegs = [] → ringSettled c.tenant 0 (captureLen c.entry) d = true →
      (ringAdvance c.tenant 0 (captureLen c.entry) tagged).1 = .written →
      Completes (.captureComplete t) s (fun d' => (getTObs t d').captures = rest ∧
        prod c.tenant 0 d' = prod c.tenant 0 d + captureLen c.entry ∧
        Sparse.get 0 d'.obsCounts 2 = satAdd 64 (Sparse.get 0 d.obsCounts 2) 1))

/-- R366, R367, R62 and R67. CUE_GRANT serves the first planned request that waits for its account; with none, one
headroom request, urgent before planned before bulk, where the headroom covers it, no hold stands and 8 fc have passed
since the last; else nothing changes. A planned request that the run's account covers takes its lots from it and leaves
the rest of them in the tile's float. A headroom grant takes its charge from the headroom and marks the word. A deferred
ramp of the lowest tile whose die may begin one is released. An engine that no row has entered for 1,024 cycles is idle. -/
def Obligations.PowerCues : Prop :=
  ∀ (s : State) (d : Dev), s.dev = d →
    (∀ r rs, d.pow.holdAll = false → d.pow.fromAccount = r :: rs →
      Answers .cueGrant s (servePlanned r { d with pow.fromAccount := rs })) ∧
    (d.pow.holdAll = true ∨ d.pow.fromAccount = [] ∧ d.pow.holdHeadroom = true → Answers .cueGrant s d) ∧
    (d.pow.holdAll = false → d.pow.fromAccount = [] → d.pow.holdHeadroom = false →
      (∀ n, d.pow.lastGrant = some n → n + 8 * tFc ≤ d.now) →
      (headroomHead d.pow = none → Answers .cueGrant s d) ∧
      (∀ r p, headroomHead d.pow = some (r, p) →
        (d.pow.headroom < r.charge → Answers .cueGrant s d) ∧
        ((r.charge : Int) ≤ d.pow.headroom → engineIdle r.tile r.eng d = false →
          Answers .cueGrant s (markGranted r.tile r.eng r.number
            { d with pow := { p with headroom := d.pow.headroom - r.charge, lastGrant := some d.now
                                     counts := bumpTable d.pow.counts 1 1 } })))) ∧
    (∀ r, let have_ := Sparse.get 0 d.pow.floats (floatKey r.tile r.tenant)
      let lots := lotsFor have_ r.charge
      lots ≤ (getRun r.tenant d).account → (getRun r.tenant d).running = true → engineIdle r.tile r.eng d = false →
      let e := servePlanned r d
      r.charge ≤ have_ + lots ∧ (r.charge ≤ have_ → lots = 0) ∧ (have_ < r.charge → have_ + lots < r.charge + credit) ∧
      (getRun r.tenant e).account + lots = (getRun r.tenant d).account ∧
      Sparse.get 0 e.pow.floats (floatKey r.tile r.tenant) + r.charge = have_ + lots ∧
      (∀ k, k ≠ floatKey r.tile r.tenant → Sparse.get 0 e.pow.floats k = Sparse.get 0 d.pow.floats k) ∧
      e.pow.headroom = d.pow.headroom ∧ (∀ u, u ≠ r.tenant → getRun u e = getRun u d)) ∧
    ((∀ r ∈ d.pow.deferred, 4 ≤ recentRamps (r.tile / 64) d) → Answers .deferredRampRelease s d) ∧
    (∀ r ∈ d.pow.deferred, recentRamps (r.tile / 64) d < 4 →
      (∀ q ∈ d.pow.deferred, q ≠ r → recentRamps (q.tile / 64) d < 4 → r.tile < q.tile) →
      Answers .deferredRampRelease s (markGranted r.tile r.eng r.number
        (beginRamp r.tile r.eng { d with pow.deferred := d.pow.deferred.filter (· != r) }))) ∧
    (∀ t, t < 128 →
      let x := getTile t d
      Answers (.arrayIdle t) s (untagged (setTile t { x with
        arrayBusy := x.arrayBusy && decide (ccNow d < x.arrayAt + 1024)
        mvBusy := x.mvBusy && decide (ccNow d < x.mvAt + 1024) } d)))

/-- R368: a sample above 1.05 PL holds headroom grants and one above 1.10 PL all grants; a hold ends once the average has
stayed below PL for 10 us, and stands otherwise; POWER_HOLD is raised in a frame for the first hold that begins in it.
The sample is kept as the average, and nothing of the tiles, runs or memory changes. -/
def Obligations.PowerMonitor : Prop :=
  ∀ (s : State) (d : Dev) (mw : Nat), s.dev = d →
    let pl := dictGet 0x3000 1 d * 1000
    let exceeds (n : Nat) : Bool := decide (pl * n < mw * 100)
    let calm := mw < pl ∧ ∃ b, d.pow.belowSince = some b ∧ b + 10 * tUs ≤ d.now
    Completes (.powerMonitorSample mw) s (fun d' =>
      d'.pow.avgMw = mw ∧
      (exceeds 105 = true → d'.pow.holdHeadroom = true) ∧ (exceeds 110 = true → d'.pow.holdAll = true) ∧
      (exceeds 105 = false → calm → d'.pow.holdHeadroom = false) ∧ (exceeds 110 = false → calm → d'.pow.holdAll = false) ∧
      (exceeds 105 = false → ¬ calm → d'.pow.holdHeadroom = d.pow.holdHeadroom) ∧
      (exceeds 110 = false → ¬ calm → d'.pow.holdAll = d.pow.holdAll) ∧
      (mw < pl → d.pow.belowSince = none → d'.pow.belowSince = some d.now) ∧
      (pl ≤ mw → d'.pow.belowSince = none) ∧
      (let begins := (exceeds 105 = true ∧ d.pow.holdHeadroom = false) ∨ (exceeds 110 = true ∧ d.pow.holdAll = false)
       (begins → d.pow.holdRaised = false →
         Sparse.get 0 d'.ev.counts 4 = satAdd 64 (Sparse.get 0 d.ev.counts 4) 1 ∧ d'.pow.holdRaised = true) ∧
       (¬ begins ∨ d.pow.holdRaised = true → d'.ev = d.ev)) ∧
      d' = { d with pow := d'.pow, ev := d'.ev, pins.alert := d'.pins.alert, clk.frameOut := d'.clk.frameOut })

/-- R370 and R373. With sixteen working sensors whose readings lie within 15 C of their median and below 112 C, the
frame's Tj becomes the largest of them and of what it was, T_HBM likewise from the stacks, and no event is raised; the
readings are kept. A reading of a working sensor outside -40 to 150 C, or more than 15 C off the median, excludes that
sensor. A working sensor that has read 112 C or more for 10 us trips the device: the core clock stops and the trip
stands. -/
def Obligations.SensorReadings : Prop :=
  ∀ (s : State) (d : Dev) (die : Nat) (temps stackTemps : List Int), s.dev = d → die < 2 →
    let read (k : Nat) : Int := temps.getD k 0
    let med := medianTwice ((dieSensors die d).map read)
    let fair (k : Nat) : Prop := -400 ≤ read k ∧ read k ≤ 1500 ∧ (2 * read k - med).natAbs ≤ 300
    ((∀ k, k < 16 → k ∈ dieSensors die d ∧ fair k ∧ read k < 1120) →
      Completes (.sensorRead die temps stackTemps) s (fun d' =>
        (∃ k, k < 16 ∧ (d'.pow.tj = some (read k) ∨ d'.pow.tj = d.pow.tj)) ∧
        (∀ k, k < 16 → ∃ v, d'.pow.tj = some v ∧ read k ≤ v) ∧ (∀ v, d.pow.tj = some v → ∃ w, d'.pow.tj = some w ∧ v ≤ w) ∧
        (∀ x ∈ stackTemps, ∃ v, d'.pow.thbm = some v ∧ x ≤ v) ∧
        (∀ k, k < 16 → Sparse.get 0 d'.pow.sensors (die * 16 + k) = read k) ∧
        d'.pow.excluded = d.pow.excluded ∧ d'.pow.tripped = d.pow.tripped ∧
        d' = settle { d with pow := d'.pow })) ∧
    (∀ k, k ∈ dieSensors die d → ¬ fair k → Completes (.sensorRead die temps stackTemps) s (fun d' =>
      Sparse.get false d'.pow.excluded (die * 16 + k) = true)) ∧
    (∀ k, k ∈ dieSensors die d → fair k → 1120 ≤ read k → d.pow.tripped = false →
      Sparse.get 0 d.pow.hotSince (die * 16 + k) ≠ 0 → Sparse.get 0 d.pow.hotSince (die * 16 + k) + 10 * tUs ≤ d.now + 1 →
      Completes (.sensorRead die temps stackTemps) s (fun d' =>
        d'.pow.tripped = true ∧ d'.clk.stopped = true ∧ d'.fatal = true ∧
        Sparse.get 0 d'.ev.counts 3 = satAdd 64 (Sparse.get 0 d.ev.counts 3) 1))

/-- R70 to R73. A request for a stream that is disabled, of another die or of another tenant is refused and counted with
COLLECTOR_REJECT; one for a stream with room joins its pending requests with its row, tag and arrival time. A stream that
is due with a free slot releases: the batch's header and entries stand in the slot's scratch, nothing else of memory
changes, its pending list is empty and its batch number one higher, and the release counter is 1 higher; with no slot it
is blocked, and COLLECTOR_BLOCKED is raised once. -/
def Obligations.BatchCollectors : Prop :=
  ∀ (s : State) (d : Dev) (die t : Nat) (record : Bytes), s.dev = d → die < 2 → t < 1024 →
    let r := leNat (record.take 16)
    let k := die * 64 + bitsOf r 48 6
    let v := streamRec k d
    (bitsOf r 54 1 ≠ die ∨ stEnable v = false ∨ stTenant v ≠ t → Answers (.collectorRequest die t record) s
      (raiseT 1 evCollectorReject (srcDie die) t (modStream k (fun x => { x with rejected := satAdd 64 x.rejected 1 }) d))) ∧
    (bitsOf r 54 1 = die → stEnable v = true → stTenant v = t → (getStream k d).pending.length < stMax v →
      Answers (.collectorRequest die t record) s (modStream k (fun x => { x with pending := x.pending ++
        [{ row := bitsOf r 0 48, tag := bitsOf r 64 16, at_ := d.now, frame := (eventStamp d).1, offset := (eventStamp d).2 }] }) d)) ∧
    ((∀ j, j < 64 → stEnable (streamRec (die * 64 + j) d) = false) → Answers (.collectorEvaluation die) s d) ∧
    (∀ j, j < 64 → stClass (streamRec (die * 64 + j) d) ≤ 2 → (∀ i, i < 64 → i ≠ j → stEnable (streamRec (die * 64 + i) d) = false) →
      stEnable (streamRec (die * 64 + j) d) = true → Answers (.collectorEvaluation die) s (streamTry (die * 64 + j) d)) ∧
    (∀ j, let w := streamRec j d
      let x := getStream j d
      stEnable w = true → Sparse.get 0 d.ctr.err (65536 + stConsumed w) = 0 →
      (releaseReason j d = 0 → streamTry j d = d) ∧
      (releaseReason j d ≠ 0 → slotFree j d = false → x.blocked = true → streamTry j d = d) ∧
      (releaseReason j d ≠ 0 → slotFree j d = false → x.blocked = false → streamTry j d =
        raiseT 4 evCollectorBlocked (srcDie (j / 64)) (stTenant w) (modStream j (fun y => { y with blocked := true }) d)) ∧
      (releaseReason j d ≠ 0 → slotFree j d = true → d.mem.err = [] →
        Sparse.get 0 d.ctr.err (stTile w * 64 + stRelease w) = 0 → localPoisoned (stTile w) (stRelease w) d = false →
        localValue (stTile w) (stRelease w) d + 1 < 2 ^ 64 →
        let d' := streamTry j d
        let at_ := scratchAddr (stTile w) (stRing w + x.batch % stSlots w * 2112)
        let bytes := batchBytes j (releaseReason j d) x (stTenant w)
        Mem.readN d'.mem.phys at_ bytes.length = bytes ∧
        (∀ a, a < at_ ∨ at_ + bytes.length ≤ a → Mem.get d'.mem.phys a = Mem.get d.mem.phys a) ∧
        (getStream j d').pending = [] ∧ (getStream j d').batch = x.batch + 1 ∧ (getStream j d').blocked = false ∧
        localValue (stTile w) (stRelease w) d' = localValue (stTile w) (stRelease w) d + 1))

/-- R413, R422, R424 and R426. A BAR read inside one register returns its bytes and one that crosses a boundary all ones
with ACCESS_ALIGN; a full-width write inside one register writes it, a narrow one is discarded with ACCESS_WIDTH, one that
crosses a boundary with ACCESS_ALIGN. Reserved bytes read 0. With Memory Space Enable 0 an access is an uncorrectable
error, and without a link or a function nothing happens. A configuration write of a function whose FLR completes changes
nothing. A good completion of an outstanding host read delivers its bytes; one that answers no read is an uncorrectable
error. -/
def Obligations.RegisterAccesses : Prop :=
  ∀ (s : State) (d : Dev) (fn off : Nat), s.dev = d → fn ≤ 1024 →
    (∀ n r, Reaches fn d → 0 < n → n ≤ 8 → off + n ≤ barSize fn → meets fn off n = .one r →
      Answers (.registerRead fn off n) s (emit (.regValue fn off (leNat (readReg fn r off n d))) d)) ∧
    (∀ n, Reaches fn d → 0 < n → n ≤ 8 → off + n ≤ barSize fn → meets fn off n = .reserved →
      Answers (.registerRead fn off n) s (emit (.regValue fn off 0) d)) ∧
    (∀ n, Reaches fn d → 0 < n → n ≤ 8 → off + n ≤ barSize fn → meets fn off n = .crosses →
      Answers (.registerRead fn off n) s (emit (.regValue fn off (2 ^ (8 * n) - 1)) (accessEvent evAccessAlign fn off n false d))) ∧
    (∀ bs flash r, Reaches fn d → 0 < bs.length → bs.length ≤ 8 → off + bs.length ≤ barSize fn →
      meets fn off bs.length = .one r → (∀ j, r.reg ≠ .buffer j) →
      (r.width ≤ bs.length → Answers (.registerWrite fn off bs 0 flash) s (writeReg fn r.reg (leNat bs) flash d)) ∧
      (bs.length < r.width →
        Answers (.registerWrite fn off bs 0 flash) s (accessEvent evAccessWidth fn off bs.length true d))) ∧
    (∀ bs flash, Reaches fn d → 0 < bs.length → bs.length ≤ 8 → off + bs.length ≤ barSize fn →
      meets fn off bs.length = .crosses →
      Answers (.registerWrite fn off bs 0 flash) s (accessEvent evAccessAlign fn off bs.length true d)) ∧
    (∀ bs err flash n, d.pcie.linkUp = true → fnExists fn d = true → Sparse.get false d.pcie.memEnable fn = false →
      off + bs.length ≤ barSize fn → off + n ≤ barSize fn →
      Answers (.registerWrite fn off bs err flash) s (pcieUe fn d) ∧ Answers (.registerRead fn off n) s (pcieUe fn d)) ∧
    (∀ bs err flash n, d.pcie.linkUp = false ∨ fnExists fn d = false →
      Answers (.registerWrite fn off bs err flash) s d ∧ Answers (.registerRead fn off n) s d) ∧
    (∀ field v, d.pcie.linkUp = true → fnExists fn d = true →
      (d.now < Sparse.get 0 d.pcie.flrUntil fn → Answers (.configurationWrite fn field v) s d) ∧
      (Sparse.get 0 d.pcie.flrUntil fn ≤ d.now →
        (field = 1 → Answers (.configurationWrite fn field v) s
          { d with pcie.memEnable := Sparse.set false d.pcie.memEnable fn (bitOf v 0) }) ∧
        (field = 0 → bitOf v 0 = true → Answers (.configurationWrite fn field v) s
          { d with pcie.busMaster := Sparse.set false d.pcie.busMaster fn true }))) ∧
    (∀ data, d.pcie.linkUp = true → (∀ t, (getRun t d).framesDue = []) →
      (d.pcie.reads.any (readFor fn off data.length) = false →
        Answers (.hostReadCompletion fn off data 0 0) s (pcieUe fn d)) ∧
      (d.pcie.reads.any (readFor fn off data.length) = true →
        Answers (.hostReadCompletion fn off data 0 0) s (answerRead fn off data.length true
          { d with mem.host := Mem.writeN d.mem.host (hostKey fn off) data })))

/-- R172, R415, R416, R418 and R419. A write of INV_CTL queues a good request for its tenant, with INV_SEQ one higher, and
with 64 outstanding raises INV_OVERFLOW; a range of no pages or beyond 2^48 is refused. The oldest request completes with
INV_DONE one higher and a vector where it asked for one, and no TLB or walk cache then holds an entry of its tenant that
touches its range. ENABLE going to 1 takes the ring's base and size and sets its tail to 0; a size outside 6 to 16 is
refused. OVERFLOW is cleared by a 1. COUNT of a VF changes only while VF Enable is 0, from 1 to 64 and at most 1,984 in
all. Clearing the mask of an entry writes its control word and sends what is pending. -/
def Obligations.FunctionBlocks : Prop :=
  ∀ (s : State) (d : Dev) (fn v : Nat), s.dev = d → fn ≤ 1024 → Reaches fn d →
    let x := getBlock' fn d
    let queued (all : Bool) : Dev := modBlock fn (fun y => { y with invSeq := (y.invSeq + 1) % 2 ^ 64 })
      { d with mem.invalidations := d.mem.invalidations ++ [{
          fn := fn, tenant := if fn = 0 then bitsOf v 0 10 else fn - 1, va := x.invAddr, pages := bitsOf v 16 32
          all := all, intr := bitOf v 48 }] }
    (bitOf v 10 = false →
      (0 < bitsOf v 16 32 → x.invAddr + bitsOf v 16 32 * 65536 ≤ 2 ^ 48 → d.mem.invalidations.length < 64 →
        Answers (.invalidateRange fn v) s (queued false)) ∧
      (bitsOf v 16 32 = 0 ∨ 2 ^ 48 < x.invAddr + bitsOf v 16 32 * 65536 →
        Answers (.invalidateRange fn v) s (refuseReg fn (blockOff fn 8) 8 d)) ∧
      (0 < bitsOf v 16 32 → x.invAddr + bitsOf v 16 32 * 65536 ≤ 2 ^ 48 → 64 ≤ d.mem.invalidations.length →
        Answers (.invalidateRange fn v) s (fnRaise 4 evInvOverflow fn d))) ∧
    (bitOf v 10 = true →
      (d.mem.invalidations.length < 64 → Answers (.invalidateAll fn v) s (queued true)) ∧
      (64 ≤ d.mem.invalidations.length → Answers (.invalidateAll fn v) s (fnRaise 4 evInvOverflow fn d))) ∧
    (d.mem.invalidations = [] → Answers .invalidationComplete s d) ∧
    (∀ r rest, d.mem.invalidations = r :: rest →
      let lo := if r.all then 0 else r.va
      let hi := if r.all then 2 ^ 48 else r.va + r.pages * 65536
      let e := modBlock r.fn (fun b => { b with invDone := (b.invDone + 1) % 2 ^ 64 })
        { dropCached r.tenant lo hi d with mem.invalidations := rest }
      (∀ n c, c ∈ Sparse.get [] e.mem.tlbs n ∨ c ∈ Sparse.get [] e.mem.walks n → c.tenant = r.tenant →
        hi ≤ c.page * 2 ^ c.bits ∨ (c.page + 1) * 2 ^ c.bits ≤ lo) ∧
      (r.intr = false → Answers .invalidationComplete s e) ∧
      (r.intr = true → Answers .invalidationComplete s (sendVector (vectorOf r.fn 0 e) e))) ∧
    (bitOf v 8 = true → bitOf x.evrCtl 8 = false →
      (6 ≤ bitsOf v 0 5 → bitsOf v 0 5 ≤ 16 → Completes (.eventRingEnable fn v) s (fun d' =>
        getBlock' fn d' = { x with
          evrCtl := bitsOf v 0 5 + bitsOf v 8 2 * 2 ^ 8, ringBase := x.evrBase, ringLog2 := bitsOf v 0 5, tail := 0 } ∧
        (∀ g, g ≠ fn → getBlock' g d' = getBlock' g d) ∧ d' = settle { d with pcie.blocks := d'.pcie.blocks })) ∧
      (bitsOf v 0 5 < 6 ∨ 16 < bitsOf v 0 5 →
        Answers (.eventRingEnable fn v) s (refuseReg fn (blockOff fn 0x28) 4 d))) ∧
    (bitOf v 0 = true → Answers (.overflowClear fn v) s (modBlock fn (fun y => { y with overflow := false }) d)) ∧
    (bitOf v 0 = false → Answers (.overflowClear fn v) s d) ∧
    (∀ t, fn = 0 → t < 1024 →
      let c := bitsOf v 16 7
      let sum := (List.range 1024).foldl (fun n u => n + if u = t then c else vfCount u d) 0
      (d.pcie.vfEnable = false → 1 ≤ c → c ≤ 64 → sum ≤ 1984 → Completes (.vfvecWrite t v) s (fun d' =>
        vfCount t d' = c ∧ (∀ u, u ≠ t → vfCount u d' = vfCount u d) ∧ d' = settle { d with pcie.vfvec := d'.pcie.vfvec })) ∧
      (d.pcie.vfEnable = true ∨ c = 0 ∨ 64 < c ∨ 1984 < sum →
        Answers (.vfvecWrite t v) s (refuseReg 0 (0x4000 + 4 * t) 4 d))) ∧
    (∀ e, e < 64 → msixEntryOk fn e d = true → Answers (.msixUnmask fn e) s (releasePending fn
      { d with pcie.msix := Sparse.modify {} d.pcie.msix (vectorOf fn e d) fun y => { y with control := 0 } }))

/-- R423: SUBMIT while REQ_BUSY is 1 raises MBX_BUSY and changes no more; a submit that finds the response buffer free is
taken by the endpoint with REQ_BUSY set, and one that does not waits. The release of the response makes RSP_VALID 0 and
takes a request that waits; the release of the notification makes NTF_VALID 0. -/
def Obligations.HostMailbox : Prop :=
  ∀ (s : State) (d : Dev) (v : Nat) (flash : Bool), s.dev = d → Reaches 0 d →
    let taken := { d with pcie.reqBusy := true, pcie.reqLen := v % 2048 }
    (d.pcie.reqBusy = true → Answers (.mailboxSubmit v flash) s (raise 4 evMbxBusy (srcFn 0) d)) ∧
    (d.pcie.reqBusy = false → transportOpen 0 d = false → Answers (.mailboxSubmit v flash) s taken) ∧
    (d.pcie.reqBusy = false → transportOpen 0 d = true → Answers (.mailboxSubmit v flash) s
      (takeMessage 0 0 false flash (Mem.readN d.pcie.reqBuf 0 (v % 2048)) taken)) ∧
    (d.pcie.reqBusy = false → Answers (.mailboxResponseRelease flash) s { d with pcie.rspValid := false }) ∧
    (d.pcie.reqBusy = true → d.boot.started = true → Answers (.mailboxResponseRelease flash) s
      (takeMessage 0 0 false flash (Mem.readN d.pcie.reqBuf 0 d.pcie.reqLen) { d with pcie.rspValid := false })) ∧
    (d.mgmt.lease.role = 0 ∨ d.mgmt.lease.transport ≠ 0 ∨ (∀ n ∈ d.mgmt.notices, n.sentAt ≠ none) →
      Answers .mailboxNotificationRelease s { d with pcie.ntfValid := false })

/-- R424, R425 and Table 20.7. An FLR of a VF that exists makes its enables 0 and drops its block, vectors, slots, host
reads and invalidations, asks for the teardown of its tenant's run, and answers configuration requests with retry for 2 P
+ 1 ms; without the link or the VF it does nothing. The PF reset does so for every function, with the mailbox, every reel
and every register of the PF's BAR, and asks for the teardown of every run; boot state, clock, physical memory's errors
and the persistent ring stay. PERST_L asserted is the PF reset with the link down; released, the link comes up once the
device has started. -/
def Obligations.FunctionResets : Prop :=
  ∀ (s : State) (d : Dev), s.dev = d →
    let cleared (fn : Nat) (e : Dev) : Prop :=
      Sparse.get false e.pcie.busMaster fn = false ∧ Sparse.get false e.pcie.memEnable fn = false ∧
      Sparse.get false e.pcie.msixEnable fn = false ∧ Sparse.get false e.pcie.fnMask fn = false ∧
      Sparse.get {} e.pcie.blocks fn = {} ∧ (∀ r ∈ e.pcie.reads, r.fn ≠ fn) ∧ ∀ x ∈ e.mem.invalidations, x.fn ≠ fn
    let pf (e : Dev) : Prop :=
      (∀ fn ∈ allFns d, cleared fn e) ∧ e.pcie.vfEnable = false ∧ e.pcie.numVfs = 0 ∧ e.pcie.vfvec = [] ∧ e.pcie.vfmap = [] ∧
      e.pcie.msix = [] ∧ e.pcie.pending = [] ∧ e.reels = [] ∧ e.pcie.reqBusy = false ∧ e.pcie.rspValid = false ∧
      e.pcie.ntfValid = false ∧ e.boot = d.boot ∧ e.fatal = d.fatal ∧ e.clk.frame = d.clk.frame ∧
      e.ev.persistent = d.ev.persistent ∧
      ∀ t, (getRun t d).present = true → (getRun t e).teardownPending = true
    (∀ vf, vf < 1024 → fnExists (vf + 1) d = true → d.pcie.linkUp = true → Completes (.flrVf vf) s (fun d' =>
      cleared (vf + 1) d' ∧ Sparse.get 0 d'.pcie.flrUntil (vf + 1) = d.now + 2 * framePeriod d + tMs ∧
      (∀ k, Sparse.get 0 d'.pcie.vfmap (64 * vf + k % 64) = 0) ∧
      ((getRun vf d).present = true → (getRun vf d').teardownPending = true) ∧ d'.boot = d.boot ∧ d'.fatal = d.fatal)) ∧
    (∀ vf, vf < 1024 → fnExists (vf + 1) d = false ∨ d.pcie.linkUp = false → Answers (.flrVf vf) s d) ∧
    Completes .pfReset s (fun d' => pf d' ∧ d'.pcie.linkUp = d.pcie.linkUp ∧
      Sparse.get 0 d'.pcie.flrUntil 0 = d.now + 2 * framePeriod d + tMs) ∧
    Completes .perstAssert s (fun d' => pf d' ∧ d'.pins.perstLow = true ∧ d'.pcie.linkUp = false ∧ d'.pcie.flrUntil = []) ∧
    (d.boot.started = true → Answers .perstRelease s { d with pins.perstLow := false, pcie.linkUp := true }) ∧
    (d.boot.started = false → Answers .perstRelease s { d with pins.perstLow := false })

/-- Table 20.7, R384 and R474. A cold reset keeps the flash with the persistent values and the persistent ring, the host's
memory, and the levels of the pins; every entry of the dictionary takes its stored persistent value or its default, and runs,
tiles, reels, counters, links, power, twin and every memory of the device are as after reset. A warm reset keeps besides
the pending reason, the thermal-trip latch with its ALERT_L, the fenced adder units and the excluded sensors. (That a
reset in the model also passes on the time, the free values used and what has left the device is the model's own, log
entry 2.) -/
def Obligations.ResetKeeps : Prop :=
  ∀ (d : Dev),
    let reset (e : Dev) : Prop :=
      e.boot.flash = d.boot.flash ∧ e.mgmt.flash = d.mgmt.flash ∧ e.mgmt.dict = d.mgmt.flash ∧
      e.ev.persistent = d.ev.persistent ∧ e.mem.host = d.mem.host ∧ e.pins.porLow = d.pins.porLow ∧
      e.pins.perstLow = d.pins.perstLow ∧ e.pins.vaonLow = d.pins.vaonLow ∧ e.runs = [] ∧ e.tiles = [] ∧ e.reels = [] ∧
      e.ctr = {} ∧ e.chains = [] ∧ e.streams = [] ∧ e.ports = [] ∧ e.net = {} ∧ e.rem = {} ∧ e.twin = {} ∧ e.pcie = {} ∧
      e.mem.phys = [] ∧ e.mem.imem = [] ∧ e.mem.err = [] ∧ e.ev.queue = [] ∧ e.ev.log = [] ∧ e.mgmt.shadow = [] ∧
      e.mgmt.lease = {} ∧ e.mgmt.notices = [] ∧ e.boot.state = 0 ∧ e.boot.started = false ∧ e.fatal = false ∧
      e.clk.placed = false ∧ e.clk.frame = 0 ∧ e.obs = [] ∧ e.tobs = []
    reset (coldReset d) ∧ (coldReset d).boot.tripLatch = false ∧ (coldReset d).coll = {} ∧ (coldReset d).pow = {} ∧
    (coldReset d).pins.trip = false ∧ (coldReset d).boot.pendingReason = 0 ∧
    reset (warmState d) ∧ (warmState d).boot.tripLatch = d.boot.tripLatch ∧ (warmState d).coll.fence = d.coll.fence ∧
    (warmState d).pow.excluded = d.pow.excluded ∧ (warmState d).boot.pendingReason = d.boot.pendingReason ∧
    (warmState d).pins.trip = d.pins.trip ∧ (warmState d).pow.tripped = false

/-- R473: POR_L low for 1 us resets the device, a shorter pulse does nothing; its release starts the boot ROM unless
something else holds the device. R477: a board rail out of tolerance for 5 us holds the device in cold reset until every
rail has been good for 1 ms. R476: losing the always-on clock holds the device in cold reset until it is back; losing the
fabric clock takes every port down. A requested warm reset is performed once; the watchdog resets a device that has not
become ready in 10,000 ms; a failure before ready that Table 20.10 lists resets the device with its reason, and nothing
else does. -/
def Obligations.ResetSources : Prop :=
  ∀ (s : State) (d : Dev) (flash : Bool), s.dev = d →
    (∀ ns, 1000 ≤ ns → Answers (.porAssert ns) s (coldReset { d with pins.porLow := true })) ∧
    (∀ ns, ns < 1000 → Answers (.porAssert ns) s d) ∧
    (d.pins.porLow = false → Answers (.porRelease flash) s d) ∧
    (d.pins.porLow = true →
      let e := { d with pins.porLow := false, pins.driven := none, boot.fabLost := false, boot.resetAt := d.now, clk.resetAt := d.now }
      (d.boot.holdAon = false → d.boot.holdRail = false → Answers (.porRelease flash) s (bootRom flash e)) ∧
      (d.boot.holdAon = true ∨ d.boot.holdRail = true → Answers (.porRelease flash) s e)) ∧
    (∀ rail us, rail < 5 →
      let e := { d with pins.vaonLow := d.pins.vaonLow || rail == 2 }
      (5 ≤ us → d.pins.porLow = false → Answers (.railFault rail us) s { (coldReset e) with boot.holdRail := true }) ∧
      (us < 5 ∨ d.pins.porLow = true → Answers (.railFault rail us) s e)) ∧
    (d.boot.holdRail = false → Answers (.railsInTolerance flash) s { d with pins.vaonLow := false }) ∧
    (d.boot.holdRail = true → d.pins.porLow = false → d.boot.holdAon = false → Answers (.railsInTolerance flash) s
      (bootRom flash { d with pins.vaonLow := false, boot.holdRail := false })) ∧
    (d.boot.holdRail = true → d.pins.porLow = true ∨ d.boot.holdAon = true → Answers (.railsInTolerance flash) s
      { d with pins.vaonLow := false, boot.holdRail := false }) ∧
    Answers .refclkAonLoss s { (coldReset d) with boot.holdAon := true } ∧
    (d.boot.holdAon = false → Answers (.refclkAonReturn flash) s d) ∧
    (d.boot.holdAon = true → d.pins.porLow = false → d.boot.holdRail = false →
      Answers (.refclkAonReturn flash) s (bootRom flash { d with boot.holdAon := false })) ∧
    (d.boot.holdAon = true → d.pins.porLow = true ∨ d.boot.holdRail = true →
      Answers (.refclkAonReturn flash) s { d with boot.holdAon := false }) ∧
    Completes .refclkFabLoss s (fun d' => d'.boot.fabLost = true ∧ d'.now = d.now ∧ ∀ p, p < 9 →
      (getPort p d').state = if (getPort p d).state = 1 ∨ (getPort p d).state = 2 ∨ (getPort p d).state = 3 then 4
        else (getPort p d).state) ∧
    (d.boot.resetDue = none → Answers (.warmReset flash) s d) ∧
    (d.boot.resetDue ≠ none → Answers (.warmReset flash) s (startBoot flash (warmState (beforeReset d)))) ∧
    (d.boot.state = 0 → d.boot.started = true → d.boot.romAt + 10000 * tMs ≤ d.now →
      Answers (.bootWatchdog flash) s (startBoot flash (warmState (beforeReset { d with boot.pendingReason := 0x0501 })))) ∧
    (d.boot.state ≠ 0 ∨ d.boot.started = false ∨ d.now < d.boot.romAt + 10000 * tMs → Answers (.bootWatchdog flash) s d) ∧
    (∀ reason, d.boot.state = 0 → d.boot.started = true → failureReason reason d = true → Answers (.bootFailure reason flash) s
      (startBoot flash (warmState (beforeReset { d with boot.pendingReason := reason })))) ∧
    (∀ reason, d.boot.state ≠ 0 ∨ d.boot.started = false ∨ failureReason reason d = false →
      Answers (.bootFailure reason flash) s d)

/-- R433, R434 and R438, where the flash answers, a copy of the record is valid and no latch stands. With an attempt left
that was not in progress, the slot of NEXT (the other one at the third attempt) starts if it verifies; where it does not,
the other slot starts if that verifies; where neither does the device is in minimal mode with reason 0x0103, and with no
attempt left or MINLATCH set with the record's reason. A device whose thermal-trip latch is set, or all of whose adder units are
fenced, or whose flash does not answer, is in minimal mode at once. -/
def Obligations.BootRom : Prop :=
  ∀ (d : Dev),
    (bootRom false d).boot.state = 2 ∧ (bootRom false d).boot.reason = 0x0601 ∧
    (d.boot.tripLatch = true → (bootRom true d).boot.state = 2 ∧ (bootRom true d).boot.reason = 0x0901) ∧
    (d.boot.tripLatch = false → d.coll.fence = 15 →
      (bootRom true d).boot.state = 2 ∧ (bootRom true d).boot.reason = 0x0902) ∧
    ((copyInUse d).isSome = true → d.boot.tripLatch = false → d.coll.fence ≠ 15 → (bootRec d).inprog = false →
      let r := bootRec d
      let e := bootRom true d
      let slot := if r.count + 1 = 3 then 1 - r.next % 2 else r.next % 2
      (r.minlatch = true ∨ r.count = 3 → e.boot.state = 2 ∧ e.boot.reason = r.reason) ∧
      (r.minlatch = false → r.count ≠ 3 →
        (verifySlot slot d = 0 → e.boot.state = 0 ∧ e.boot.started = true ∧ e.boot.slot = slot) ∧
        (verifySlot slot d ≠ 0 → verifySlot (1 - slot) d = 0 →
          e.boot.state = 0 ∧ e.boot.started = true ∧ e.boot.slot = 1 - slot ∧ e.boot.failCheck = verifySlot slot d) ∧
        (verifySlot slot d ≠ 0 → verifySlot (1 - slot) d ≠ 0 → e.boot.state = 2 ∧ e.boot.reason = 0x0103)))

/-- R436, R441 and R177. A device that has started and whose runtime image matches its digest becomes ready at a rate of
8.0, 6.4 or 4.8 Gb/s: HBM reads 0, the rate is kept, BOOT_READY is raised; otherwise nothing happens. An erase that
completes leaves the target slot erased, with the update waiting for data; a verification that completes leaves the slot
valid where R432 and the runtime digest pass, and failed, with FW_VERIFY_FAIL, where they do not. -/
def Obligations.ReadyAndUpdate : Prop :=
  ∀ (s : State) (d : Dev), s.dev = d →
    (∀ rate, d.boot.state = 0 → d.boot.started = true → d.boot.romAt ≤ d.now → runtimeGood d.boot.slot d = true →
      rate = 80 ∨ rate = 64 ∨ rate = 48 → Completes (.ready rate) s (fun d' =>
        d'.boot.state = 1 ∧ d'.boot.hbmRate = rate ∧ (∀ a, a < hbmEnd → Mem.get d'.mem.phys a = 0) ∧
        (∀ a, hbmEnd ≤ a → Mem.get d'.mem.phys a = Mem.get d.mem.phys a) ∧ d'.runs = d.runs ∧ d'.tiles = d.tiles)) ∧
    (∀ rate, d.boot.state ≠ 0 ∨ d.boot.started = false ∨ runtimeGood d.boot.slot d = false ∨
      (rate ≠ 80 ∧ rate ≠ 64 ∧ rate ≠ 48) → Answers (.ready rate) s d) ∧
    (d.boot.update ≠ 1 → Answers .eraseComplete s d) ∧
    (d.boot.update = 1 → Completes .eraseComplete s (fun d' =>
      (∀ a, slotBase (targetSlot d) ≤ a → a < slotBase (targetSlot d) + slotSize → flashByte a d' = 0xFF) ∧
      (∀ a, a < slotBase (targetSlot d) ∨ slotBase (targetSlot d) + slotSize ≤ a → flashByte a d' = flashByte a d) ∧
      d'.boot.update = 2 ∧ d'.boot.received = 0 ∧ Sparse.get 0 d'.boot.slotState (targetSlot d) = 0 ∧
      d' = settle { d with boot := d'.boot })) ∧
    (d.boot.update ≠ 3 → Answers .verifyComplete s d) ∧
    (d.boot.update = 3 →
      let k := targetSlot d
      let good := verifySlot k d = 0 ∧ runtimeGood k d = true
      (good → Answers .verifyComplete s { d with boot.update := 4, boot.slotState := Sparse.set 0 d.boot.slotState k 1 }) ∧
      (¬ good → Answers .verifyComplete s
        (raise 4 evFwVerifyFail 0 { d with boot.update := 5, boot.slotState := Sparse.set 0 d.boot.slotState k 2 })))

/-- R480. While TRST_L is low the port is reset and its instructions have no effect. Otherwise BYPASS shifts one bit and
captures 0, IDCODE captures the identification of the stepping, SAMPLE/PRELOAD and EXTEST capture the boundary cells and
load them, EXTEST and CLAMP drive the pins from them only while POR_L is low, and HIGHZ floats them; each releases what an
earlier one drove. -/
def Obligations.TestAccess : Prop :=
  ∀ (s : State) (d : Dev) (x : Nat), s.dev = d →
    let takes (code shift captured : Nat) : Dev :=
      emit (.jtag captured) { d with pins.tapCode := code, pins.shift := shift, pins.driven := none, pins.highz := false }
    Answers (.trst true) s
      { d with pins.trstLow := true, pins.tapCode := 1, pins.shift := 0, pins.driven := none, pins.highz := false } ∧
    Answers (.trst false) s { d with pins.trstLow := false } ∧
    (∀ c, c = .bypass x ∨ c = .idcode x ∨ c = .samplePreload x ∨ c = .extest x ∨ c = .clamp x ∨ c = .highz x →
      d.pins.trstLow = true → Answers c s d) ∧
    (d.pins.trstLow = false →
      Answers (.bypass x) s (takes 0 (x % 2) 0) ∧ Answers (.idcode x) s (takes 1 (x % 2 ^ 32) idcode) ∧
      Answers (.samplePreload x) s { (takes 2 x (capturedCells d)) with pins.boundary := x } ∧
      Answers (.highz x) s { (takes 5 (x % 2) 0) with pins.highz := true } ∧
      (d.pins.porLow = true →
        Answers (.extest x) s { (takes 3 x (capturedCells d)) with pins.boundary := x, pins.driven := some x } ∧
        Answers (.clamp x) s { (takes 4 (x % 2) 0) with pins.driven := some d.pins.boundary }) ∧
      (d.pins.porLow = false →
        Answers (.extest x) s { (takes 3 x (capturedCells d)) with pins.boundary := x } ∧
        Answers (.clamp x) s (takes 4 (x % 2) 0)))

/-- R466 to R469, R400, R419, R384 and R390. The record taken next is one of the queue's, before which none of the others
comes, and the others stay. Where no function has a block and the lease's mask has not the class, collecting numbers it,
puts it into the log at its number mod 4,096, gives it the count of its unrecorded repeats and starts its key anew; class 2
and 3 records wait for the persistent ring; no second record is taken in one cycle of the management clock. With the PF's
ring enabled, not full and with no interrupt asked for, the record stands in the host's memory at the ring's tail, which
is one higher; a full ring sets OVERFLOW. The oldest record that waits for the persistent ring and the oldest value that
waits for the flash reach them. A notification that is due is sent again (the header fields that NOTIFY does not have are
free values). -/
def Obligations.EventCollection : Prop :=
  ∀ (s : State) (d : Dev), s.dev = d →
    (∀ q e rest, pickEvent q = some (e, rest) → List.Perm (e :: rest) q ∧ ∀ x ∈ q, takenBefore x e = false) ∧
    (d.pcie.blocks = [] → d.ev.queue = [] ∨ d.ev.lastMc = some (d.now / tMc) → Answers .eventCollect s d) ∧
    (∀ e0 rest, d.pcie.blocks = [] → d.ev.lastMc ≠ some (d.now / tMc) → pickEvent d.ev.queue = some (e0, rest) →
      bitOf (dictGet 0x1200 3 d) e0.cls = false → e0.num ≠ evCommitDone →
      let e : Event := { e0 with seq := d.ev.nextSeq, repeats := min 255 (Sparse.get {} d.ev.keys (eventKey e0)).unrecorded }
      Answers .eventCollect s { d with ev := { d.ev with
        queue := rest, nextSeq := d.ev.nextSeq + 1, log := Sparse.set {} d.ev.log (d.ev.nextSeq % 4096) e
        keys := Sparse.set {} d.ev.keys (eventKey e0) { lastRecorded := some d.now, unrecorded := 0 }
        lastMc := some (d.now / tMc)
        persistentWaiting := if e0.cls = 2 ∨ e0.cls = 3 then d.ev.persistentWaiting ++ [e] else d.ev.persistentWaiting } }) ∧
    (∀ bs, let b := getBlock 0 d
      bitOf b.evrCtl 8 = true →
      ((b.tail + 2 ^ 32 - b.head) % 2 ^ 32 = 2 ^ b.ringLog2 → ringRecord 0 bs d = setBlock 0 { b with overflow := true } d) ∧
      ((b.tail + 2 ^ 32 - b.head) % 2 ^ 32 ≠ 2 ^ b.ringLog2 → bitOf b.evrCtl 9 = false → b.intDue = false → busMaster 0 d = true →
        ringRecord 0 bs d = setBlock 0 { b with tail := (b.tail + 1) % 2 ^ 32 }
          { d with mem.host := Mem.writeN d.mem.host (hostKey 0 (b.ringBase + 32 * (b.tail % 2 ^ b.ringLog2))) bs })) ∧
    (d.ev.persistentWaiting = [] → Answers .persistentRingWrite s d) ∧
    (∀ e rest, d.ev.persistentWaiting = e :: rest → Answers .persistentRingWrite s { d with
      ev.persistentWaiting := rest, ev.persistent := Sparse.set {} d.ev.persistent (d.ev.persistentCount % 256) e
      ev.persistentCount := d.ev.persistentCount + 1 }) ∧
    (d.mgmt.flashWaiting = [] → Answers .persistentValueWrite s d) ∧
    (∀ k v at_ rest, d.mgmt.flashWaiting = (k, v, at_) :: rest → Answers .persistentValueWrite s
      { d with mgmt.flashWaiting := rest, mgmt.flash := Sparse.set none d.mgmt.flash k (some v) }) ∧
    ((∀ n ∈ d.mgmt.notices, ∀ a, n.sentAt = some a → d.now < a + 100 * tMs) → Answers .notifyResend s d) ∧
    (∀ n a, d.mgmt.notices = [n] → n.sentAt = some a → a + 100 * tMs ≤ d.now → d.mgmt.lease.transport = 2 →
      let m := noticeMessage n (bumpMgmt 5 d)
      Answers .notifyResend s (emit (.tabing 2 d.mgmt.lease.address m.1)
        { m.2 with mgmt.notices := [{ n with sentAt := some d.now }] }))

/-- R192: a pool counter's slice releases the first watch that its value satisfies, and no other. R352 and R353: a reported
add to a counter that no stream publishes is passed over; a linked result whose publication comes within its limit is
judged on time, one that was judged at its expiry is discarded and counted; a pending result past its limit that no
report has published is marked DEADLINE_MISSED at once under policy 0. R175: the scrubber goes on from word to word,
corrects and counts a single-bit error, reports an uncorrectable one of memory that no twin holds, and counts a pass at
the last word of HBM. R239: a window of a context opens and closes at its times, and after its last one packets still
unsent go on VC-Q, with SLOT_OVERRUN once per run frame. -/
def Obligations.WatchesAndResults : Prop :=
  ∀ (s : State) (d : Dev), s.dev = d →
    (∀ i, i < 16384 →
      ((∀ x ∈ d.ctr.watches, x.counter = i → watchReady d x = false) → Answers (.watchRelease i) s d) ∧
      (∀ l x r, d.ctr.watches = l ++ x :: r → (∀ y ∈ l, y.counter = i → watchReady d y = false) → x.counter = i →
        watchReady d x = true → Answers (.watchRelease i) s
          { d with ctr.watches := d.ctr.watches.filter fun y => !(y.waiter == x.waiter) })) ∧
    (d.ctr.reports = [] → Answers .publication s d) ∧
    (∀ i v at_ rest, d.ctr.reports = (i, v, at_) :: rest →
      (publishStreams i d = [] → Answers .publication s { d with ctr.reports := rest }) ∧
      (∀ t k e, k < 16 → publishStreams i d = [16 * t + k] → v = (getDl t k d).base + (getDl t k d).judged + 1 →
        (getDl t k d).off = false → publishOne t k (getDl t k d).judged at_ d = (true, e) →
        Answers .publication s { (modDl t k (fun y => { y with judged := y.judged + 1 }) e) with ctr.reports := rest })) ∧
    (∀ t k j at_, let x := getDl t k d
      let r := dlRec t k d
      (j ∈ x.dropped → publishOne t k j at_ d = (true, discardLate t k j d)) ∧
      (∀ f n, j ∉ x.dropped → dlReady t k d = (true, d) → dlLinked r = true →
        (x.pending.find? fun p => p.1 == j) = some (j, f, n) → f < 2 ^ 48 → n < 2 ^ 32 →
        clockNs at_ d ≤ ((f * periodNs d + n + dlLimit r : Nat) : Int) →
        publishOne t k j at_ d = (true, judgeOnTime t k j (linkedOrigin t r f n) d))) ∧
    (∀ t k, t < 1024 → k < 16 → let x := getDl t k d
      let r := dlRec t k d
      let late (p : Nat × Nat × Nat) : Prop := ((p.2.1 * periodNs d + p.2.2 + dlLimit r : Nat) : Int) < clockNs d.now d
      (dlOn t k d = false ∨ dlLinked r = false ∨ (∀ p ∈ x.pending, ¬ late p) → Answers (.resultExpiry t k) s d) ∧
      (∀ j f n rest, dlOn t k d = true → dlLinked r = true → x.pending = (j, f, n) :: rest → late (j, f, n) → j ∉ x.missed →
        d.ctr.reports = [] → dlPolicy r = 0 → Answers (.resultExpiry t k) s
          (raiseT 4 evDeadlineMissed 0 t (modDl t k (fun y => { y with missed := y.missed ++ [j] }) d) (k + j % 2 ^ 44 * 16)))) ∧
    (∀ a, a < hbmEnd → let pa := a / 8 * 8
      let e := Sparse.get 0 d.mem.err (pa / 8)
      (e = 0 → pa + 8 ≠ hbmEnd → Answers (.patrolScrub a) s { d with mem.scrubAt := pa + 8 }) ∧
      (e = 0 → pa + 8 = hbmEnd → Answers (.patrolScrub a) s
        { d with mem.scrubAt := 0, mem.scrubPasses := d.mem.scrubPasses + 1 }) ∧
      (e = 1 → pa + 8 ≠ hbmEnd → Answers (.patrolScrub a) s
        { (countCorrected pa (setErr (pa / 8) 0 d)) with mem.scrubAt := pa + 8 }) ∧
      (e = 2 → inStore pa d = false → mirroredPlace pa d = none → pa + 8 ≠ hbmEnd → Answers (.patrolScrub a) s
        { (raise 4 evHbmUeLatent (srcChannel (pseudoChannel pa)) (countUncorrectable pa d) (pa / 64)) with
          mem.scrubAt := pa + 8 })) ∧
    (∀ t c, t < 1024 →
      let mine (p : Packet) : Bool := p.tenant == t && p.cls == 1 && p.window == c + 1
      let opened (b : Bool) : Dev := { d with net.slotOpen := Sparse.set false d.net.slotOpen (slotKey t c) b }
      (slotNow t c d = true → Answers (.slotWindowOpen t c) s (opened true) ∧ Answers (.slotWindowClose t c) s d) ∧
      (slotNow t c d = false → Answers (.slotWindowOpen t c) s d) ∧
      (slotNow t c d = false → slotLeft t c d = true ∨ d.net.inject.any mine = false →
        Answers (.slotWindowClose t c) s (opened false)) ∧
      (slotNow t c d = false → slotLeft t c d = false → d.net.inject.any mine = true →
        Sparse.get 0 d.net.overrun (slotKey t c) ≠ (getRun t d).index + 1 →
        Answers (.slotWindowClose t c) s (raiseT 4 evSlotOverrun (srcNi 0) t { d with net := { d.net with
          slotOpen := Sparse.set false d.net.slotOpen (slotKey t c) false
          inject := d.net.inject.map fun p => if mine p then { p with cls := 2 } else p
          overrun := Sparse.set 0 d.net.overrun (slotKey t c) ((getRun t d).index + 1)
          counts := bumpTable d.net.counts 5 1 } })))

/-- Table 2.7. With no planned tick due, or on a device that is not ready, nothing happens. Otherwise the tick placed is
the earliest due: the frame number and the tick's time become its own, FRAME_OUT rises, and the tick is no longer planned.
Where no run, tile, stream or automatic start is present, no commit is fixed, no twin is paired and the tick follows the
last one with the same period, the tick does this besides: a bank that retires becomes idle (R245), and Table 16.3 gives
the thermal level from the frame's Tj and T_HBM: one higher up to 5 in an emergency, at least 1 above the throttle
temperature, one lower once the frames have stayed cool long enough, else as it was; it is the SOURCE 1 level (R372). -/
def Obligations.QuietTick : Prop :=
  ∀ (s : State) (d : Dev) (p : PlannedTick), s.dev = d →
    (dueTick d = none ∨ d.boot.state ≠ 1 → Answers .localTick s d) ∧
    (dueTick d = some p → p ∈ d.clk.planned ∧ p.time ≤ d.now ∧ ∀ q ∈ d.clk.planned, q.time ≤ d.now → p.time ≤ q.time) ∧
    (dueTick d = some p → d.boot.state = 1 → d.runs = [] → d.tiles = [] → d.streams = [] → d.coll.waitingStarts = [] →
      d.mgmt.commit.decided = none → d.twin.state = 0 → d.twin.taken = [] → d.twin.reintegrateAt = none →
      aliasTo (ownCoord d) d = none → p.period = periodK d →
      clapperRole d ≠ 0 ∨ d.clk.placed = false ∨ p.frame = (d.clk.frame + 1) % 2 ^ 48 →
      Completes .localTick s (fun d' =>
        d'.clk = { d.clk with
          frame := p.frame, placed := true, lastTick := p.time, frameOut := true, prepared := false
          ticksPlaced := satAdd 64 d.clk.ticksPlaced 1, planned := d.clk.planned.filter (· != p) } ∧
        d'.net = { d.net with bank0 := if d.net.bank0 = 2 then 0 else d.net.bank0
                              bank1 := if d.net.bank0 ≠ 2 ∧ d.net.bank1 = 2 then 0 else d.net.bank1 } ∧
        (let thr : Int := (dictGet 0x3000 3 d : Int) * 10
         let emg : Int := (dictGet 0x3000 4 d : Int) * 10
         let tj := d.pow.tj.getD (-400)
         let hot := emg ≤ tj ∨ 950 ≤ d.pow.thbm.getD (-400)
         let cool := tj < thr - 30 ∧ dictGet 0x3000 5 d ≤ d.pow.coolFrames + 1
         (hot → d'.pow.thermal = min 5 (d.pow.thermal + 1)) ∧
         (¬ hot → thr ≤ tj → d'.pow.thermal = max d.pow.thermal 1) ∧
         (¬ hot → cool → d'.pow.thermal = d.pow.thermal - 1) ∧
         (¬ hot → tj < thr → ¬ cool → 0 < dictGet 0x3000 5 d → d'.pow.thermal = d.pow.thermal)) ∧
        d'.pow.source1 = d'.pow.thermal ∧ d'.pow.powerLevel = 0 ∧ d'.pow.tj = none ∧ d'.pow.thbm = none ∧
        d' = { d with
          clk := d'.clk, net := d'.net, pow := d'.pow, ev := d'.ev, pins.alert := d'.pins.alert
          twin := { d.twin with
            partnerFatal := false, fullRaised := false, deposed := false, downAtTick := (Sparse.get {} d.ports 8).state == 4 } }))

/-- R204, R420: an open passes exactly where the tenant exists, owns the vector, the fields keep their ranges, the reel is
closed and the class is the tenant's to use; it takes the context, advances KEY and begins at HEAD and TAIL 0; a refused
one leaves the reel but for OPENERR. R205: a close drops what has not started and closes at once, or once nothing is in
flight. R206: a doorbell of another KEY or to a closed reel is discarded and counted; a backward or an overfilling one
besides raises DOORBELL_DROP; another moves TAIL forward. R218: a reel that has not stopped is not resumed. R208, R222 to
R224: a slot that is read whole joins the reel and HEAD moves on; an uncorrectable slot joins with status 0x09; pointer
copies that differ are R222's. No row changes another reel; an access that reaches no reel is counted (R421). -/
def Obligations.ReelAccesses : Prop :=
  ∀ (s : State) (d : Dev), s.dev = d →
    let others (r : Nat) (d' : Dev) : Prop := ∀ j, j ≠ r → getReel j d' = getReel j d
    (∀ r, openCheck (getReel r d) d = 0 ↔
      (getRun (regTenant (getReel r d)) d).present = true ∧
      (vectorOwner (regVector (getReel r d)) d).map (·.1) = some (tenantFn (regTenant (getReel r d)) d) ∧
      openRanges (getReel r d) = true ∧ (getReel r d).state = 0 ∧
      regClass (getReel r d) ≤ tenantGet (regTenant (getReel r d)) 3 d) ∧
    (∀ r, r < 1152 → Reaches 0 d →
      let x := getReel r d
      (openCheck x d = 0 → Completes (.reelOpen r) s (fun d' => others r d' ∧ getReel r d' = { x with
        tenant := regTenant x, cls := regClass x, ring := regRing x, size := regSize x, compl := regCompl x
        vector := regVector x, intmod := regIntmod x, waitto := regWaitto x, baseSeq := regBaseseq x
        key := (x.key + 1) % 256, head := 0, tail := 0, state := 1, openErr := 0, closing := false
        descs := [], intLast := none, intDue := false, stopSaid := false })) ∧
      (openCheck x d ≠ 0 → Answers (.reelOpen r) s (modReel r (fun x => { x with openErr := openCheck x d }) d)) ∧
      (x.state = 0 → Answers (.reelClose r) s d) ∧
      (x.state ≠ 0 → Completes (.reelClose r) s (fun d' => others r d' ∧
        let kept := x.descs.filter fun y => y.started || y.status.isSome
        getReel r d' = if kept = [] then { x with descs := [], state := 0, closing := false }
          else { x with descs := kept, closing := true }))) ∧
    (∀ r, r < 1152 → let x := getReel r d
      (x.closing = true ∧ x.descs = [] → Completes (.reelCloseComplete r) s (fun d' => others r d' ∧
        getReel r d' = { x with state := 0, closing := false })) ∧
      (x.closing = false ∨ x.descs ≠ [] → Answers (.reelCloseComplete r) s d)) ∧
    (∀ fn i v, accessOk fn i = true → Reaches fn d →
      (accessReel fn i d = none →
        (∀ q, Answers (.doorbell fn i v q) s (bumpQueue 0 3 d)) ∧ Answers (.reelResume fn i) s (bumpQueue 0 3 d)) ∧
      (∀ r, accessReel fn i d = some r →
        let x := getReel r d
        let step := (v % 2 ^ 32 + 2 ^ 32 - x.tail % 2 ^ 32) % 2 ^ 32
        let ahead := (v % 2 ^ 32 + 2 ^ 32 - x.head % 2 ^ 32) % 2 ^ 32
        let live := v / 2 ^ 32 % 256 = x.key ∧ x.state ≠ 0
        (¬ live → ∀ q, Answers (.doorbell fn i v q) s (bumpQueue (reelDie r) 3 d)) ∧
        (live → 2 ^ 31 ≤ step ∨ 2 ^ x.size < ahead → ∀ q, Answers (.doorbell fn i v q) s
          (raiseT 4 evDoorbellDrop (srcReel r) x.tenant (bumpQueue (reelDie r) 3 d))) ∧
        (live → step = 0 → ahead ≤ 2 ^ x.size → ∀ q, Answers (.doorbell fn i v q) s d) ∧
        (live → 0 < step → step < 2 ^ 31 → ahead ≤ 2 ^ x.size →
          Completes (.doorbell fn i v false) s (fun d' => others r d' ∧ getReel r d' = { x with tail := x.tail + step }) ∧
          Answers (.doorbell fn i v true) s (reelPointers r (changeReel r (fun y => { y with tail := y.tail + step }) d))) ∧
        (x.state ≠ 2 → Answers (.reelResume fn i) s d) ∧
        (x.state = 2 → x.descs = [] → Completes (.reelResume fn i) s (fun d' => others r d' ∧
          getReel r d' = { x with state := 1, stopSaid := false })))) ∧
    (∀ r, r < 1152 → let x := getReel r d
      let able := x.state = 1 ∧ x.closing = false ∧ x.head < x.tail ∧
        (x.descs.filter fun y => !y.started && y.status.isNone).length < 4 ∧
        ∀ y ∈ x.descs, (y.status = none ∨ y.status = some 0) ∧ rdType y.bytes ≠ 6
      (x.state ≠ 1 → ∀ spoil, Answers (.descriptorFetch r spoil) s d) ∧
      (¬ able → ∀ spoil, spoil ≠ 4 → spoil ≠ 5 → Answers (.descriptorFetch r spoil) s d) ∧
      (x.state = 1 → (∀ y ∈ x.descs, y.started = true ∨ y.status ≠ none) → Answers (.descriptorFetch r 5) s
        (raiseT 4 evQueuePtr (srcReel r) x.tenant (bumpQueue (reelDie r) 0 d))) ∧
      (∀ y rest, x.state = 1 → x.descs = y :: rest → y.started = false → y.status = none →
        Answers (.descriptorFetch r 4) s (setDescStatus r y.seq 0x0A (0x4000 + evQueuePtr)
          (raiseT 4 evQueuePtr (srcReel r) x.tenant (bumpQueue (reelDie r) 0 d)))) ∧
      (able → ∀ bs e,
        vaFetch (reelTlb r) x.tenant 0 (x.ring + 64 * (x.head % 2 ^ x.size)) 64 d = (.ok, bs, e) →
        (∀ spoil, spoil ≤ 1 → Completes (.descriptorFetch r spoil) s (fun d' =>
          (∀ j, j ≠ r → getReel j d' = getReel j e) ∧ getReel r d' = { getReel r e with
            head := (getReel r e).head + 1
            descs := (getReel r e).descs ++ [{ seq := (getReel r e).baseSeq + (getReel r e).head, bytes := bs, atHead := e.now
                                               started := false, status := none, code := 0 }] })) ∧
        Answers (.descriptorFetch r 3) s (joinDesc r (fillBytes 64 0) (some 0x09) (0x2000 + evQueueUe)
          (faultRun 2 evQueueUe (srcReel r) x.tenant (bumpQueue (reelDie r) 2 e)))) ∧
      (able → ∀ bs e,
        vaFetch (reelTlb r) x.tenant 0 (x.ring + 64 * (x.head % 2 ^ x.size)) 64 d = (.ue, bs, e) →
        Completes (.descriptorFetch r 0) s (fun d' => (getReel r d').head = (getReel r e).head + 1 ∧
          ((getReel r d').descs.getLast?).map (·.status) = some (some 0x09))))

/-- R209 to R219. A row of another TYPE does nothing. A descriptor that fails its checks completes with the code of
Table 9.9 and the one that Table 9.5 holds waits; one whose wait is met, with the start free and granted to its reel,
starts: NOP and COLLECT complete at once, COLLECT having handed on its records that are not zero; WORD without IND0 is
placed in its issue queue; TRANSFER without IND flags is executed as its DMA descriptor; LOAD and ARM end with what the
run control answers; TEARDOWN requests the teardown. A wait past WAITTO completes with 0x06. A signal adds SAMT + 1. The
descriptors that completed well are reported by one completion word; a failed one stops the reel. A moderated interrupt
is sent once its interval has passed. -/
def Obligations.ReelDescriptors : Prop :=
  ∀ (s : State) (d : Dev) (r : Nat), s.dev = d → r < 1152 →
    let x := getReel r d
    let row (ty : Nat) (c : Instr) : Prop := (ty, c) = (0, .nop r) ∨ (ty, c) = (1, .word r) ∨ (ty, c) = (2, .transfer r) ∨
      (ty, c) = (3, .collect r) ∨ (ty, c) = (4, .load r) ∨ (ty, c) = (5, .arm r) ∨ (ty, c) = (6, .teardown r)
    (∀ ty c, row ty c →
      (headDesc x = none → Answers c s d) ∧
      (∀ y, headDesc x = some y →
        (d.fatal = true ∨ (rdType y.bytes ≠ ty ∧ rdType y.bytes ≤ 6) → Answers c s d) ∧
        (d.fatal = false → rdType y.bytes = ty ∨ 6 < rdType y.bytes → staticCheck r y.bytes d ≠ 0 →
          Answers c s (failDesc r y.seq (staticCheck r y.bytes d) 0 d)) ∧
        (staticCheck r y.bytes d = 0 → reelGate r y.bytes d = .held → Answers c s d) ∧
        (d.fatal = false → rdType y.bytes = ty → staticCheck r y.bytes d = 0 → reelGate r y.bytes d = .aborted →
          granted (reelOwner r) d = some r → Answers c s (failDesc r y.seq 0x07 0 (noteGrant r d))) ∧
        (∀ e, d.fatal = false → rdType y.bytes = ty → staticCheck r y.bytes d = 0 → reelGate r y.bytes d = .go →
          testWait r y.bytes d = (false, e) → Answers c s e))) ∧
    (∀ y e, d.fatal = false → headDesc x = some y → staticCheck r y.bytes d = 0 → reelGate r y.bytes d = .go →
      testWait r y.bytes d = (true, e) → startFree r x y.bytes e = true → granted (reelOwner r) e = some r →
      let g := noteGrant r e
      let t := (getReel r g).tenant
      let b := y.bytes
      (∀ ty c, row ty c → rdType b = ty → startCheck r b g ≠ 0 → Answers c s (failDesc r y.seq (startCheck r b g) 0 g)) ∧
      (startCheck r b g = 0 →
        (rdType b = 0 → Answers (.nop r) s (startDone r y.seq 0 0 g)) ∧
        (rdType b = 1 → r < 1024 → rdFlag b 4 = false → headerGood (rdWord b) = true → wEng (rdWord b) ≠ 6 →
          Answers (.word r) s (enqueue (r / 8) (rdWord b) 0 t 0 (some (r, y.seq)) (fieldAt b 0x28 8) (markStarted r y.seq g))) ∧
        (rdType b = 1 → r < 1024 → rdFlag b 4 = false → headerGood (rdWord b) = false →
          Answers (.word r) s (startDone r y.seq 0x08 (0x1000 + evWordHeader) (faultRun 1 evWordHeader (srcReel r) t g))) ∧
        (rdType b = 2 → rdInd b = 0 → transferFields b = true →
          let f := dropReads (tenantFn t g) g
          let m := markStarted r y.seq f
          let chain : Chain := { tile := reelOwner r, tenant := t, ctx := 0, base := 0, count := 1, nextIndex := 0, flight := []
                                 reel := some (r, y.seq), number := y.seq, failed := 0 }
          Answers (.transfer r) s (startDesc chain 0
            (transferDesc b (fieldAt b 0x18 6) (fieldAt b 0x1E 6) (fieldAt b 0x24 4) (fieldAt b 0x28 2) (fieldAt b 0x2A 2)
              (signedOf 48 (fieldAt b 0x2C 6))) { m with chains := m.chains ++ [chain] })) ∧
        (rdType b = 3 → Answers (.collect r) s (startDone r y.seq 0 0
          ((([0x10, 0x20, 0x30].map fun o => (b.drop o).take 16).filter fun x => !allZero x).foldl
            (fun d x => collectorRequest (reelDie r) t x d) g))) ∧
        (∀ st code f, rdType b = 4 → loadRun t (fieldAt b 0x10 8) (srcReel r) g = (.ends st code, f) →
          Answers (.load r) s (startDone r y.seq st code f)) ∧
        (∀ st code f, rdType b = 5 → armRun t (fieldAt b 0x10 8) (srcReel r) g = (.ends st code, f) →
          Answers (.arm r) s (startDone r y.seq st code f)) ∧
        (rdType b = 6 → Answers (.teardown r) s (requestTeardown t (markStarted r y.seq g))))) ∧
    (∀ y, headDesc x = some y →
      (rdFlag y.bytes 0 = true → x.waitto ≠ 0 → y.atHead + x.waitto * tUs ≤ d.now → reelGate r y.bytes d = .go →
        waitNamed r y.bytes d = true → waitMetNow r y.bytes d = false → Answers (.descriptorWaitTimeout r) s
          (failDesc r y.seq 0x06 (0x4000 + evReelTimeout) (raiseT 4 evReelTimeout (srcReel r) x.tenant d))) ∧
      (rdFlag y.bytes 0 = false ∨ x.waitto = 0 ∨ d.now < y.atHead + x.waitto * tUs ∨ reelGate r y.bytes d ≠ .go ∨
        waitMetNow r y.bytes d = true → Answers (.descriptorWaitTimeout r) s d)) ∧
    (∀ y, rdFlag y.bytes 1 = true →
      let i := ctrIndex (rdSignal y.bytes)
      let noted (status code : Nat) (e : Dev) : Dev := modReel r (fun x => { x with descs := x.descs.map fun z =>
        if z.seq = y.seq then { z with signalled := true, status := some status, code := code } else z }) e
      (∀ e, ctrPool (rdSignal y.bytes) = true → ownsPool x.tenant i d = true →
        poolAdd i (rdSamt y.bytes + 1) d = (.applied, e) → signalDesc r y d = noted 0 0 e) ∧
      (∀ e, ctrPool (rdSignal y.bytes) = false → localAdd (r / 8) i (rdSamt y.bytes + 1) d = (.applied, e) →
        signalDesc r y d = noted 0 0 e) ∧
      (ctrPool (rdSignal y.bytes) = true → ownsPool x.tenant i d = false →
        signalDesc r y d = noted 0x04 (0x4000 + evCounterStale) (staleAdd i (some x.tenant) d))) ∧
    (x.descs = [] → Answers (.descriptorComplete r) s d) ∧
    (∀ y, x.descs = [y] → x.state ≠ 0 → x.stopSaid = false → y.status = some 0 → y.signalled = false →
      rdFlag y.bytes 1 = false → rdFlag y.bytes 3 = false → busMaster (tenantFn x.tenant d) d = true →
      Completes (.descriptorComplete r) s (fun d' =>
        getReel r d' = { x with descs := [], lastSeq := y.seq } ∧ (∀ j, j ≠ r → getReel j d' = getReel j d) ∧
        d'.mem.host = Mem.writeN d.mem.host (hostKey (tenantFn x.tenant d) x.compl) (leBytes 8 (y.seq % 2 ^ 63)))) ∧
    (∀ y st, x.descs = [y] → x.state ≠ 0 → x.stopSaid = false → y.status = some st → st ≠ 0 →
      Completes (.descriptorComplete r) s (fun d' =>
        (getReel r d').state = 2 ∧ (getReel r d').descs = [] ∧ (getReel r d').lastSeq = y.seq ∧
        (getReel r d').stopSaid = true ∧ ∀ j, j ≠ r → getReel j d' = getReel j d)) ∧
    (x.intLast = none → Answers (.interruptModerationExpiry r) s d) ∧
    (∀ l, x.intLast = some l →
      (x.intDue = false ∨ d.now < l + x.intmod * tUs → Answers (.interruptModerationExpiry r) s d) ∧
      (x.intDue = true → l + x.intmod * tUs ≤ d.now → Answers (.interruptModerationExpiry r) s
        (sendVector x.vector (modReel r (fun x => { x with intDue := false, intLast := some d.now }) d))))

/-- R256: a SEQ that has been applied, or fenced, is a duplicate from then on. R255 to R257: at the target a malformed
request is discarded and counted; a request where no context is held is answered with TSTAT 4; a put in its window is
written, its SEQ marked and the window record written, and its last packet answered; an old one is counted; a get is
answered with its data and a data-less response; a query fences what is missing and answers 5, or 6 with the number
applied; a multicast add adds. R258 to R263: a response of the present attempt completes its entry, asks for a replay, or
ends a resolution; another is counted as late or stale. The timers of an entry replay it, begin its resolution, query
again, give up, complete it as unknown and free it, and do nothing before their times. -/
def Obligations.RemoteTransactions : Prop :=
  (∀ (r : PeerRec) (q : Nat), q < 2 ^ 32 → (r.classify q).1 = .apply → (((r.classify q).2.mark q).classify q).1 = .duplicate) ∧
  (∀ (r : PeerRec) (q : Nat), r.place q < 4096 → ¬ (0 < (q + 2 ^ 32 - r.h) % 2 ^ 32 ∧ (q + 2 ^ 32 - r.h) % 2 ^ 32 < 2 ^ 31) →
    ((r.fence q).classify q).1 = .duplicate) ∧
  ∀ (s : State) (d : Dev), s.dev = d →
    let put (p : Packet) : Bool := p.typ == 0 && (opcOf p == 0 || opcOf p == 3)
    let get (p : Packet) : Bool := p.typ == 0 && opcOf p == 1
    let query (p : Packet) : Bool := p.typ == 0 && opcOf p == 2
    let add (p : Packet) : Bool := p.typ == 2
    (takeLocal put d = none → Answers .txreqPut s d) ∧ (takeLocal get d = none → Answers .txreqGet s d) ∧
    (takeLocal query d = none → Answers .txreqQuery s d) ∧ (takeLocal add d = none → Answers .caddPacket s d) ∧
    (∀ p e c f, (c, f) = (Instr.txreqPut, put) ∨ (c, f) = (Instr.txreqGet, get) ∨ (c, f) = (Instr.txreqQuery, query) ∨
        (c, f) = (Instr.caddPacket, add) → takeLocal f d = some (p, e) → takenRank p.tenant p.drank e = false →
      requestBad p = true → Answers c s (bumpRem 5 e)) ∧
    (∀ p e, takeLocal put d = some (p, e) → takenRank p.tenant p.drank e = false → requestBad p = false →
      let b := blockOf p
      let seq := bitsOf b 0 32
      let ctx := rankCtx p.tenant p.drank e
      (heldRanks p.tenant e = [] → Answers .txreqPut s (refuse p (putFirst p) 4 e)) ∧
      (heldRanks p.tenant e ≠ [] → p.mc = true → ∀ e1,
        vaWrite niTlb p.tenant ctx (bitsOf b 64 48) true (p.payload.drop 16) e = (.ok, e1) → Answers .txreqPut s e1) ∧
      (heldRanks p.tenant e ≠ [] → p.mc = false → seq ≠ 0 → ∀ r e1, readPeer p.tenant ctx p.srank e = (.ok, r, e1) →
        ((r.classify seq).1 = .old → Answers .txreqPut s (bumpRem 5 e1)) ∧
        (∀ e2 e3, (r.classify seq).1 = .apply →
          vaWrite niTlb p.tenant ctx (bitsOf b 64 48) true (p.payload.drop 16) e1 = (.ok, e2) →
          writeWindow p.tenant ctx p.srank ((r.classify seq).2.mark seq) e2 = (.ok, e3) →
          (bitOf b 52 = false → Answers .txreqPut s e3) ∧
          (bitOf b 52 = true → bitsOf b 112 11 = 0 → Answers .txreqPut s (answer true (response p seq 0) e3))))) ∧
    (∀ p e, takeLocal get d = some (p, e) → takenRank p.tenant p.drank e = false → requestBad p = false →
      let b := blockOf p
      (heldRanks p.tenant e = [] → Answers .txreqGet s (refuse p (bitsOf b 0 32) 4 e)) ∧
      (∀ data e1, heldRanks p.tenant e ≠ [] → bitsOf b 112 11 < 3 →
        vaFetch niTlb p.tenant (rankCtx p.tenant p.drank e) (bitsOf b 64 48) ((bitsOf b 112 11 + 1) * 64) e = (.ok, data, e1) →
        Answers .txreqGet s (inject (response p (bitsOf b 0 32) 0)
          (inject (response p (bitsOf b 0 32) 0 (2 ^ 56) (data.take 224)) e1)))) ∧
    (∀ p e, takeLocal query d = some (p, e) → takenRank p.tenant p.drank e = false → requestBad p = false →
      let b := blockOf p
      let first := bitsOf b 64 32
      let n := bitsOf b 112 11 + 1
      let top := (first + n - 1) % 2 ^ 32
      let ctx := rankCtx p.tenant p.drank e
      (heldRanks p.tenant e = [] → Answers .txreqQuery s (refuse p first 4 e)) ∧
      (∀ r e1, heldRanks p.tenant e ≠ [] → readPeer p.tenant ctx p.srank e = (.ok, r, e1) → top = r.h →
        (4096 ≤ r.place first → Answers .txreqQuery s (inject (response p first 7) (bumpRem 7 e1))) ∧
        (∀ e2, r.place first < 4096 → let missing := (seqRange first n).filter fun q => !bitOf r.applied (r.place q)
          writeWindow p.tenant ctx p.srank (missing.foldl (fun r q => r.fence q) r) (bumpRem 7 e1) = (.ok, e2) →
          Answers .txreqQuery s (answer true
            (response p first (if missing = [] then 5 else 6) ((n - missing.length) % 1024 * 2 ^ 67)) e2)))) ∧
    (∀ p e, takeLocal add d = some (p, e) → takenRank p.tenant p.drank e = false → requestBad p = false →
      let i := bitsOf (blockOf p) 50 14
      let v := bitsOf (blockOf p) 64 32
      (heldRanks p.tenant e = [] → Answers .caddPacket s (refuse p (bitsOf (blockOf p) 0 32) 4 (staleAdd i (some p.tenant) e))) ∧
      (heldRanks p.tenant e ≠ [] → p.mc = true →
        (ownsPool p.tenant i e = false → Answers .caddPacket s (faultRun 1 evCounterRange (srcNi 0) p.tenant e)) ∧
        (∀ e1, ownsPool p.tenant i e = true → 0 < v →
          poolAdd i v (modTCount (sliceOf i) (fun c => { c with ctrRemote := satAdd 64 c.ctrRemote 1 }) e) true = (.applied, e1) →
          Answers .caddPacket s e1))) ∧
    (∀ c typ, (c, typ) = (Instr.txrsp, 1) ∨ (c, typ) = (Instr.cack, 3) →
      (takeLocal (fun p => p.typ == typ) d = none → Answers c s d) ∧
      (∀ p e, takeLocal (fun p => p.typ == typ) d = some (p, e) →
        let tag := bitsOf (blockOf p) 32 14
        let g := getTrack tag e
        let tstat := bitsOf (blockOf p) 50 6
        let acount := bitsOf (blockOf p) 67 10
        let mine := g.tenant = p.tenant ∧ g.seq = bitsOf (blockOf p) 0 32 ∧ (typ = 3 → g.kind = 2) ∧ g.unknown = false
        (7 < tstat → Answers c s (bumpRem 3 e)) ∧
        (tstat ≤ 7 → g.open_ = false → Answers c s (bumpRem 2 e)) ∧
        (tstat ≤ 7 → g.open_ = true → mine → g.attempt ≠ bitsOf (blockOf p) 46 4 → Answers c s (bumpRem 3 e)) ∧
        (mine → g.attempt = bitsOf (blockOf p) 46 4 → g.state = .wait → takenRank g.tenant g.srank e = false →
          (tstat = 0 → g.kind ≠ 1 → Answers c s (completeOp tag 0 0 e)) ∧
          (tstat = 1 → g.attempt < 11 → e.now < deadlineAt g e → Answers c s (replay tag e)) ∧
          (tstat = 2 → Answers c s (completeOp tag 4 0 e)) ∧ (tstat = 3 → Answers c s (completeOp tag 5 0 e)) ∧
          (tstat = 4 → Answers c s (completeOp tag 6 0 e))) ∧
        (mine → g.attempt = bitsOf (blockOf p) 46 4 → g.state = .resolve →
          (tstat = 5 → Answers c s (completeOp tag 1 acount e)) ∧ (tstat = 6 → Answers c s (completeOp tag 2 acount e)) ∧
          (tstat = 7 → Answers c s (setTrack tag { g with unknown := true } e))))) ∧
    (∀ tag status acount, let g := getTrack tag d
      getTrack tag (completeOp tag status acount d) = if status = 0 ∧ g.attempt = 0 then {}
        else { g with state := .quar, doneFrame := d.clk.ticksPlaced, data := [] }) ∧
    (∀ tag, tag < 16384 →
      let g := getTrack tag d
      let waits := g.state = .wait ∧ g.unknown = false
      let resolves := g.state = .resolve ∧ g.unknown = false
      (waits → g.attempt < 11 → g.attemptTx + respTime g d ≤ d.now → d.now < deadlineAt g d →
        Answers (.responseTimeout tag) s (replay tag d)) ∧
      (¬ waits ∨ 11 ≤ g.attempt ∨ d.now < g.attemptTx + respTime g d ∨ deadlineAt g d ≤ d.now →
        Answers (.responseTimeout tag) s d) ∧
      (waits → deadlineAt g d ≤ d.now →
        (g.kind = 1 → Answers (.transactionDeadline tag) s (setTrack tag { g with unknown := true } d)) ∧
        (g.kind ≠ 1 → Answers (.transactionDeadline tag) s
          (sendQuery tag (bumpRem 1 (setTrack tag { g with state := .resolve, resolveAt := d.now } d))))) ∧
      (¬ waits ∨ d.now < deadlineAt g d → Answers (.transactionDeadline tag) s d) ∧
      (resolves → g.queryAt + respTime g d ≤ d.now ∨ g.queryEpoch ≠ epoch d → Answers (.queryResend tag) s (sendQuery tag d)) ∧
      (¬ resolves ∨ (d.now < g.queryAt + respTime g d ∧ g.queryEpoch = epoch d) → Answers (.queryResend tag) s d) ∧
      (g.state = .resolve → g.resolveAt + tenantGet g.tenant 0x35 d * tMs ≤ d.now →
        Answers (.resolveTimeout tag) s (setTrack tag { g with unknown := true } d)) ∧
      (g.state ≠ .resolve ∨ d.now < g.resolveAt + tenantGet g.tenant 0x35 d * tMs → Answers (.resolveTimeout tag) s d) ∧
      (g.open_ = true → g.unknown = true → g.lastTxFrame + 4 ≤ d.clk.ticksPlaced →
        Answers (.lifetimeHoldExpiry tag) s (completeOp tag 3 0 d)) ∧
      (g.unknown = false ∨ d.clk.ticksPlaced < g.lastTxFrame + 4 → Answers (.lifetimeHoldExpiry tag) s d) ∧
      (g.state = .quar → g.doneFrame + 4 ≤ d.clk.ticksPlaced → Answers (.quarantineEnd tag) s (setTrack tag {} d)) ∧
      (g.state ≠ .quar ∨ d.clk.ticksPlaced < g.doneFrame + 4 → Answers (.quarantineEnd tag) s d)) ∧
    (d.rem.fillWait = [] → Answers .windowCacheFill s d) ∧
    (∀ t srank peer rest r e, d.rem.fillWait = (t, srank, peer) :: rest →
      readPeer t (rankCtx t srank d) peer d = (.ok, r, e) → e.rem.windowCache.length < 8192 →
      Sparse.get false e.net.pinned (rankKey t peer) = false → Answers .windowCacheFill s { e with
        rem.fillWait := rest, rem.windowCache := Sparse.set false e.rem.windowCache (windowKey t srank peer) true })

/-- R232, R234 to R236, R240, R241 and R245. A packet at the head of an input buffer is taken and its flits freed; one
whose header breaks R234, one of age 2 or more and one whose bank is idle are discarded with their counts; one for this
coordinate is delivered; a transit packet whose word is uncorrectable is discarded with FABRIC_UE, one that ends here
halts its run with QUEUE_UE; another leaves by the first dimension that differs, in the direction of its bank, on the
channel of its class and DL, or is discarded where the direction is unreachable. A multicast copy goes on in the phase
that it carries until its last coordinate, and is delivered after the last dimension. The network interface stamps what
it injects with the epoch and frame. A delivery for a rank that is held joins what waits at the network interface;
another is misdelivered. A full bucket lets a held packet go back. An old packet of an input buffer is swept out. -/
def Obligations.Routing : Prop :=
  ∀ (s : State) (d : Dev), s.dev = d →
    (∀ port vc, port < 9 → vc < 8 →
      let q := 8 * port + vc
      (Sparse.get [] d.net.inQ q = [] → ∀ b, Answers (.routerUnicast port vc b) s d ∧ Answers (.routerMulticast port vc b) s d) ∧
      (∀ p rest, Sparse.get [] d.net.inQ q = p :: rest →
        let e := { d with
          net.inQ := Sparse.set [] d.net.inQ q rest
          ports := Sparse.modify {} d.ports port (fun x =>
            { x with freed := Sparse.modify 0 x.freed vc (· + flitsOf (packetSize p)) }) }
        let c : Instr := if p.mc then .routerMulticast port vc false else .routerUnicast port vc false
        let bad : Instr := if p.mc then .routerMulticast port vc true else .routerUnicast port vc true
        let units := copyUnits p e
        let passes := headerKept p e = true ∧ packetAge p e < 2 ∧ bankState p.ep e ≠ 0
        (∀ b, (p.mc = true → Answers (.routerUnicast port vc b) s d) ∧ (p.mc = false → Answers (.routerMulticast port vc b) s d)) ∧
        (let lost := countUnits p.ep units (bumpQueue (if port < 6 then 0 else 1) 2 e)
         (port ≠ 8 → p.mc = true ∨ p.dst ≠ ownCoord d → Answers bad s (raise 4 evFabricUe (srcPort port) lost)) ∧
         (port = 8 ∨ (p.mc = false ∧ p.dst = ownCoord d) → Answers bad s (faultRun 2 evQueueUe (srcPort port) p.tenant lost))) ∧
        (headerKept p e = false → Answers c s (discardAt evFabricHeader 3 port p units e)) ∧
        (headerKept p e = true → 2 ≤ packetAge p e → Answers c s (discardAt evPktLifetime 0 port p units e)) ∧
        (headerKept p e = true → packetAge p e < 2 → bankState p.ep e = 0 →
          Answers c s (discardAt evEpochStale 1 port p units e)) ∧
        (p.mc = false → passes → port = 8 ∨ (∀ k, k < 4 → dimOf p.dst k = dimOf (ownCoord d) k) → Answers c s (deliver p e)) ∧
        (∀ k, p.mc = false → passes → port < 8 → k < 4 → dimOf p.dst k ≠ dimOf (ownCoord d) k →
          (∀ j, j < k → dimOf p.dst j = dimOf (ownCoord d) j) →
          let dir := direction p.ep k (dimOf p.dst k) d
          let dl := nextDl p port k dir d
          (dir = 2 → Answers c s (discardAt evRouteUnreachable 2 port p 1 e)) ∧
          (dir ≠ 2 → p.cls ≠ 1 → portDown (getPort (portOf k dir) e) = false →
            Answers c s (toOutput (portOf k dir) (2 * p.cls + dl) (packetBytes { p with dl := dl }) e))) ∧
        (p.mc = true → passes →
          let here := dimOf (ownCoord d) p.mph
          let dl := nextDl p port p.mph p.mdir d
          let out := portOf p.mph p.mdir
          (here ≠ farOf p → bitOf (maskOf p.mask p.mph) here = false → p.cls ≠ 1 → portDown (getPort out e) = false →
            Answers c s (toOutput out (2 * p.cls + dl) (packetBytes { p with dl := dl }) e)) ∧
          (here = farOf p → p.mph = 3 → bitOf (maskOf p.mask 3) here = true → Answers c s (deliver p e))))) ∧
    (∀ p, p.mc = false → p.typ ≠ 5 →
      (p.drank ∈ heldRanks p.tenant d → deliver p d = countUnits p.ep 1 { d with net.local_ := d.net.local_ ++ [p] }) ∧
      (heldRanks p.tenant d ≠ [] → p.drank ∉ heldRanks p.tenant d → deliver p d = discardAt evRankMisdelivered 7 9 p 1 d)) ∧
    (∀ vc, vc < 8 → injectionHeld d = true → d.net.inject ≠ [] → d.net.staleRaised = false →
      Answers (.routerUnicast 9 vc false) s (raise 4 evEpochStale (srcNi 0) { d with net.staleRaised := true })) ∧
    (∀ vc p rest x, vc < 8 → injectionHeld d = false →
      takeFirst (fun p => p.mc == false && p.cls == 0) d.net.inject = some (p, rest) → p.mc = false → p.typ = 3 →
      passCap p d = some x →
      let e := { x with net.inject := rest }
      let c := aliased p.dst e
      let y := { p with dst := c, ep := epoch e, injf := e.clk.frame % 16 }
      let f := { e with net.injected := bumpTable e.net.injected (epoch e) 1 }
      (c = ownCoord e → Answers (.routerUnicast 9 vc false) s (deliver y f)) ∧
      (c ≠ ownCoord e → c ≠ dictGet 0x6000 1 e → Answers (.routerUnicast 9 vc false) s (routeUnicast y 9 f))) ∧
    (d.net.fillWait = [] → Answers .rankCacheFill s d) ∧
    (∀ t rank rest bs e, d.net.fillWait = (t, rank) :: rest →
      vaRead niTlb t 0 ((getRun t d).rankTable + 64 + 4 * rank) 4 d = (.ok, bs, e) → e.net.rankCache.length < 8192 →
      Answers .rankCacheFill s { e with
        net.fillWait := rest, net.rankCache := Sparse.set (2 ^ 32) e.net.rankCache (rankKey t rank) (leNat bs) }) ∧
    (∀ t, t < 1024 →
      (takeFirst (fun p => p.tenant == t) d.net.held = none → Answers (.injectionCapRelease t) s d) ∧
      (∀ p rest, takeFirst (fun p => p.tenant == t) d.net.held = some (p, rest) →
        (passCap p d = none → Answers (.injectionCapRelease t) s d) ∧
        (passCap p d ≠ none →
          Answers (.injectionCapRelease t) s { d with net.held := rest, net.inject := p :: d.net.inject }))) ∧
    ((∀ x ∈ d.ports, x.2.replay = []) → d.net.outQ = [] →
      (d.net.inQ = [] → Answers .pktLifetimeSweep s d) ∧
      (∀ q p, d.net.inQ = [(q, [p])] → 2 ≤ packetAge p d →
        let e := { d with
          net.inQ := [], ports := Sparse.modify {} d.ports (q / 8) (fun x =>
            { x with freed := Sparse.modify 0 x.freed (q % 8) (· + flitsOf (packetSize p)) }) }
        Answers .pktLifetimeSweep s (discardAt evPktLifetime 0 (q / 8) p (copyUnits p e) e)))

/-- R245 and Tables 10.10 and 10.11. With no epoch retiring nothing is sampled, taken or released. In round k, at 16k us
of its frame and once, a device samples its own counts; a leaf sends them to its parent, and a clapper without children
whose counts agree makes the bank idle. A good report of the retiring epoch on a child port is taken into its round; one
that is not good changes nothing. A release on the parent port makes the bank idle and goes on to the children. -/
def Obligations.SpliceDrain : Prop :=
  ∀ (s : State) (d : Dev) (port k : Nat) (set : BitVec 128), s.dev = d → port < 9 →
    (retiringEpoch d = none → Answers (.drainRound k) s d ∧ Answers (.drainReport port set) s d ∧ Answers (.drainRelease port set) s d) ∧
    (∀ ep, retiringEpoch d = some ep →
      let own := (Sparse.get 0 d.net.injected ep % 2 ^ 48, Sparse.get 0 d.net.delivered ep % 2 ^ 48)
      let due := 0 < k ∧ d.clk.placed = true ∧ d.clk.lastTick + 16 * k * tUs ≤ d.now ∧ 16 * k * tUs < framePeriod d ∧ d.net.round < k
      let sampled := { d with
        net.round := k, net.reports := Sparse.set (0, 0) d.net.reports (k * 16 + 15) (own.1 + 1, own.2) }
      let v := set.toNat
      let good := crc16Good set = true ∧ bitsOf v 1 1 = ep
      (¬ due → Answers (.drainRound k) s d) ∧
      (due → childPorts d = [] → clapperRole d = 0 → parentPort d < 9 →
        Answers (.drainRound k) s (sendSet (parentPort d) 2 (drainSet false ep k own.1 own.2) sampled)) ∧
      (due → childPorts d = [] → clapperRole d ≠ 0 →
        (own.1 = own.2 → Answers (.drainRound k) s (setBank ep 0 sampled)) ∧ (own.1 ≠ own.2 → Answers (.drainRound k) s sampled)) ∧
      (good → bitOf v 0 = false → port ∈ childPorts d → Answers (.drainReport port set) s (drainForward (bitsOf v 2 14)
        { d with net.reports := Sparse.set (0, 0) d.net.reports (bitsOf v 2 14 * 16 + port) (bitsOf v 16 48 + 1, bitsOf v 64 48) })) ∧
      (¬ good ∨ bitOf v 0 = true ∨ port ∉ childPorts d → Answers (.drainReport port set) s d) ∧
      (good → bitOf v 0 = true → port = parentPort d → Answers (.drainRelease port set) s
        ((childPorts d).foldl (fun e p => sendSet p 2 set e) (setBank ep 0 d))) ∧
      (¬ good ∨ bitOf v 0 = false ∨ port ≠ parentPort d → Answers (.drainRelease port set) s d))

/-- R237, R273 to R275. On a port that is up a slot sends the oldest flit that is to be sent again, with its retake
counted; else one flit of the channel chosen, with the next FSEQ, kept for replay and taking a credit; else a null flit.
A flit that fails its CRC is counted, raises LINK_CRC and asks for one NAK. A NAK, and the replay timer at its time, send
every flit after the one acknowledged again, or retrain where one has reached the retake limit. A packet with an
uncorrectable word leaves the replay buffer with FABRIC_UE before the slot is filled. On a port that is not up
nothing is sent or taken. -/
def Obligations.LinkFlits : Prop :=
  ∀ (s : State) (d : Dev) (p : Nat), s.dev = d → p < 9 →
    let x := getPort p d
    (x.state ≠ 2 → (∀ b, Answers (.linkFlitTransmit p b) s d) ∧ (∀ bs es, Answers (.linkFlitReceive p bs es) s d) ∧
      (∀ a, Answers (.nakReceive p a) s d) ∧ Answers (.replayTimerExpiry p) s d) ∧
    (∀ f, x.state = 2 → 0 < x.resend → x.resend ≤ x.replay.length → x.replay[x.replay.length - x.resend]? = some f →
      Completes (.linkFlitTransmit p false) s (fun d' =>
        (getPort p d').resend = x.resend - 1 ∧ (getPort p d').fseq = x.fseq ∧
        (getPort p d').replay = x.replay.set (x.replay.length - x.resend) { f with retakes := f.retakes + 1 } ∧
        d'.net = d.net ∧ ∀ q, q ≠ p → getPort q d' = getPort q d)) ∧
    (∀ f rest, x.state = 2 → f.sop = true → f.eop = true → x.replay = f :: rest → x.resend = rest.length + 1 →
      (∀ g ∈ rest, g.fseq ≠ f.fseq ∧ g.sop = true) →
      carriesRecords p f.vc = false →
      let y := parsePacket f.body
      let gone := setPort p { x with replay := rest, resend := rest.length } d
      let e := raise 4 evFabricUe (srcPort p) (countUnits y.ep (copyUnits y gone) gone)
      Sys2Proof.Machine.exec (.linkFlitTransmit p true) s = Sys2Proof.Machine.exec (.linkFlitTransmit p false) { s with dev := e }) ∧
    (∀ v w b rest sop, x.state = 2 → x.resend = 0 → pickChannel p d = (some v, d) → waitingFlits p v d = (w, b :: rest, sop) →
      Completes (.linkFlitTransmit p false) s (fun d' =>
        (getPort p d').fseq = (x.fseq + 1) % 65536 ∧
        (getPort p d').replay = x.replay ++ [{ fseq := x.fseq, vc := v, sop := sop, eop := rest.isEmpty, body := b, retakes := 0 }] ∧
        takenFlits p v d' = takenFlits p v d + 1 ∧ (∀ u, u < 8 → u ≠ v → takenFlits p u d' = takenFlits p u d) ∧
        (∀ q, q ≠ p → getPort q d' = getPort q d))) ∧
    (∀ e, x.state = 2 → x.resend = 0 → pickChannel p d = (none, e) → Answers (.linkFlitTransmit p false) s (emitFlit p none e)) ∧
    (∀ bs es, x.state = 2 → isOptical p = false →
      let h := leNat ((padTo 80 bs).take 12)
      let e := creditReturn p (bitsOf h 51 3) (bitsOf h 54 8) (creditReturn p (bitsOf h 40 3) (bitsOf h 43 8) (takeAck p (bitsOf h 24 16) d))
      let y := getPort p e
      let vc := bitsOf h 2 3
      let body := ((padTo 80 bs).drop 12).take 64
      (flitGood (padTo 80 bs) = false →
        Answers (.linkFlitReceive p bs es) s (flitFails p (bumpPort p 1 (raise 0 evLinkCrc (srcPort p) d)))) ∧
      (flitGood (padTo 80 bs) = true → bitOf h 7 = false →
        (bitsOf h 0 2 ≠ 0 → Answers (.linkFlitReceive p bs es) s e) ∧
        (bitsOf h 0 2 = 0 → bitsOf h 8 16 = y.expect → bitOf h 5 = true → bitOf h 6 = true → carriesRecords p vc = false →
          Sparse.get [] y.partials vc = [] →
          Answers (.linkFlitReceive p bs es) s { (setPort p { y with
              expect := (y.expect + 1) % 65536, discarding := false, partials := Sparse.set [] y.partials vc []
              committedEop := y.expect } e) with
            net.inQ := Sparse.modify [] e.net.inQ (8 * p + vc) (· ++ [parsePacket body]) }) ∧
        (bitsOf h 0 2 = 0 → bitsOf h 8 16 = y.expect → bitOf h 5 = true → bitOf h 6 = false → Sparse.get [] y.partials vc = [] →
          Answers (.linkFlitReceive p bs es) s (setPort p { y with
            expect := (y.expect + 1) % 65536, discarding := false, partials := Sparse.set [] y.partials vc body } e)) ∧
        (bitsOf h 0 2 = 0 → bitsOf h 8 16 ≠ y.expect →
          ((y.expect + 65536 - bitsOf h 8 16) % 65536 < 32768 → Answers (.linkFlitReceive p bs es) s e) ∧
          (32768 ≤ (y.expect + 65536 - bitsOf h 8 16) % 65536 → Answers (.linkFlitReceive p bs es) s (flitFails p e))))) ∧
    (∀ bs es, x.state = 2 → isOptical p = true → Answers (.linkFlitReceive p bs es) s
      ((List.range 8).foldl (fun e i => flitIn p (decide (15 < es.length)) (padTo 80 (bs.drop (80 * i))) e) (countFec p es d))) ∧
    (∀ a, a < 65536 → x.state = 2 → coveredFlits a x.replay = 0 →
      let limit := dictGet (0x4000 + p) 6 d
      ((∀ f ∈ x.replay, f.retakes < limit) →
        Answers (.nakReceive p a) s (setPort p { x with resend := x.replay.length, timerAt := d.now } d)) ∧
      ((∃ f ∈ x.replay, limit ≤ f.retakes) → Answers (.nakReceive p a) s (startRetrain p (sendSet p 4 0 d)))) ∧
    (let late := 2 * filteredDelay p d + 2000 * (fecDelay p : Int) + 96000 ≤ (((d.now - x.timerAt) * 50 : Nat) : Int)
     let waits := coveredFlits x.ackedTo x.replay < x.replay.length ∧ x.resend = 0
     (x.state = 2 → waits → late → Answers (.replayTimerExpiry p) s (replayAfter p x.ackedTo (bumpPort p 4 d))) ∧
     (¬ waits ∨ ¬ late → Answers (.replayTimerExpiry p) s d))

/-- R278 to R287. A phase that exceeds its limit takes a training port down with LINK_TRAIN_FAIL, a retrain of 2,000 us
with LINK_DOWN; a port that is down trains again after a second. A retrain request and a loss of lock begin a retrain of
a port that is up: every lane trains and what is held for replay stays. The handshake brings the port up with the peer's
credits and resume point, or leaves it miscabled. A width change is noted and takes effect at its PCS unit; upper lanes
wake before demand or when data has waited too long, and a direction without demand goes narrow; lanes ramp by
sixteenths, detect energy, match the qualifier in 2 us or count a false wake, relock, and are tried again when late; a
sleeping lane's floor is measured near the frame's end. Before its time or in another state each changes nothing. -/
def Obligations.TrainingAndLanes : Prop :=
  ∀ (s : State) (d : Dev) (p : Nat), s.dev = d → p < 9 →
    let x := getPort p d
    let lowered (e : Dev) : Dev := modPort p (fun y => { y with state := 4, wasDown := true, startAt := d.now }) e
    (∀ ph, 1 ≤ ph → ph ≤ 5 →
      (x.state = 1 → x.startAt + phaseLimit ph * tUs ≤ d.now → p < 8 →
        Answers (.trainingPhaseTimeout p ph) s (lowered (raise 4 evLinkTrainFail (srcPort p) d))) ∧
      (x.state ≠ 1 ∨ d.now < x.startAt + phaseLimit ph * tUs → Answers (.trainingPhaseTimeout p ph) s d)) ∧
    (x.state = 3 → x.startAt + 2000 * tUs ≤ d.now → p < 8 →
      Answers (.retrainTimeout p) s (lowered (raise 4 evLinkDown (srcPort p) (bumpPort p 6 d)))) ∧
    (x.state ≠ 3 ∨ d.now < x.startAt + 2000 * tUs → Answers (.retrainTimeout p) s d) ∧
    (x.state = 4 → x.startAt + 1000 * tMs ≤ d.now → Completes (.downTrainingRetry p) s (fun d' =>
      (getPort p d').state = 1 ∧ (getPort p d').startAt = d.now ∧ (getPort p d').replay = x.replay ∧
      ∀ l, l < laneCount p → (getLane p l d').tx = 1 ∧ (getLane p l d').rx = 1)) ∧
    (x.state ≠ 4 ∨ d.now < x.startAt + 1000 * tMs → Answers (.downTrainingRetry p) s d) ∧
    (∀ c, c = Instr.retrainRequest p ∨ c = Instr.lockLoss p →
      (x.state ≠ 2 → Answers c s d) ∧
      (x.state = 2 → Completes c s (fun d' =>
        (getPort p d').state = 3 ∧ (getPort p d').startAt = d.now ∧ (getPort p d').replay = x.replay ∧
        (getPort p d').partials = [] ∧ (p < 8 → d'.net = d.net) ∧
        ∀ l, l < laneCount p → (getLane p l d').tx = 1 ∧ (getLane p l d').rx = 1))) ∧
    (∀ coord pcode serial resume held snr t1 t2 t3 t4,
      let c : Instr := .linkHandshake p coord pcode serial resume held snr t1 t2 t3 t4
      let named := setPort p { x with peerCoord := coord, peerPort := pcode, peerSerial := serial } d
      (x.state ≠ 1 → x.state ≠ 3 → Answers c s d) ∧
      (x.state = 1 ∨ x.state = 3 → peerExpected p coord pcode d = false →
        Answers c s (raise 4 evLinkMiscabled (srcPort p) (modPort p (fun y => { y with state := 5 }) named))) ∧
      (x.state = 1 ∨ x.state = 3 → peerExpected p coord pcode d = true → resume < 65536 → Completes c s (fun d' =>
        let y := getPort p d'
        y.state = 2 ∧ y.peerCoord = coord ∧ y.expect = (x.committedEop + 1) % 65536 ∧ y.replay = resumeFrom resume x.replay ∧
        y.resend = y.replay.length ∧ (∀ v, v < 8 → takenFlits p v d' = held[v]?.getD 0) ∧
        ∀ l, l < laneCount p → (getLane p l d').tx = 2 ∧ (getLane p l d').rx = 2))) ∧
    (∀ set : BitVec 128, let n := bitsOf set.toNat 0 6
      let taken := x.state = 2 ∧ crc16Good set = true ∧ x.rxChange = none ∧ (n = 2 ∨ n = laneCount p)
      (taken → Answers (.widthChange p set) s (setPort p { x with rxChange := some (n, bitsOf set.toNat 6 32) } d)) ∧
      (¬ taken → Answers (.widthChange p set) s d)) ∧
    (x.txChange = none → Answers (.widthChangeApply p true) s d) ∧ (x.rxChange = none → Answers (.widthChangeApply p false) s d) ∧
    (∀ n unit, x.txChange = some (n, unit) → let c := pcsCount p true d
      let early := 2 ^ 31 ≤ (c + 2 ^ 32 - unit % 2 ^ 32) % 2 ^ 32
      let e := bumpPort p 9 (setPort p { x with txChange := none, wide := n == laneCount p, unitAt := d.now, unitCount := c } d)
      (x.state ≠ 2 ∨ early → Answers (.widthChangeApply p true) s d) ∧
      (x.state = 2 → ¬ early → n = laneCount p → Answers (.widthChangeApply p true) s e) ∧
      (x.state = 2 → ¬ early → n ≠ laneCount p → Answers (.widthChangeApply p true) s
        (modLanes p 2 (fun l => { l with tx := 3, step := 0, rampAt := d.now }) e))) ∧
    (∀ n unit, x.rxChange = some (n, unit) → let c := pcsCount p false d
      let early := 2 ^ 31 ≤ (c + 2 ^ 32 - unit % 2 ^ 32) % 2 ^ 32
      let e := bumpPort p 9 (setPort p { x with rxChange := none, rxWide := n == laneCount p, rxUnitAt := d.now, rxUnitCount := c } d)
      (x.state ≠ 2 ∨ early → Answers (.widthChangeApply p false) s d) ∧
      (x.state = 2 → ¬ early → n = laneCount p → Answers (.widthChangeApply p false) s e) ∧
      (x.state = 2 → ¬ early → n ≠ laneCount p → Answers (.widthChangeApply p false) s
        (modLanes p 2 (fun l => { l with rx := 4 }) e))) ∧
    (let rises (e : Dev) : Dev := modLanes p 2 (fun l => { l with tx := 5, step := 0, rampAt := d.now }) e
     let waited := dictGet (0x4000 + p) 5 d * 10 * tNs < longestWait p d
     let narrows := x.state = 2 ∧ x.wide = true ∧ x.txChange = none ∧ demandWithin p (10 * tUs) d = false ∧ wakeHeld p d = false
     (canWake p d = true → demandWithin p (4 * tUs) d = true → Answers (.wakeStart p) s (rises d)) ∧
     (canWake p d = false ∨ demandWithin p (4 * tUs) d = false → Answers (.wakeStart p) s d) ∧
     (canWake p d = true → waited →
       Answers (.demandWake p) s (rises (bumpPort p 7 (modPort p (fun y => { y with demandWake := true }) d)))) ∧
     (canWake p d = false ∨ ¬ waited → Answers (.demandWake p) s d) ∧
     (narrows → Answers (.sleepStart p) s (sendWidth p 2 (setPort p { x with demandWake := false } d))) ∧
     (¬ narrows → Answers (.sleepStart p) s d)) ∧
    (∀ l, l < laneCount p →
      let n := getLane p l d
      let step := n.rampAt + (n.step + 1) * rampStep
      let put (g : Lane → Lane) (e : Dev) : Dev := modLane p l g e
      (n.tx = 5 ∨ n.tx = 3 → step ≤ d.now → n.step < 15 → Answers (.laneRampStep p l) s
        (emit (.drive p l (if n.tx = 5 then n.step + 1 else 15 - n.step)) (put (fun y => { y with step := n.step + 1 }) d))) ∧
      (n.tx = 3 → step ≤ d.now → n.step = 15 → Answers (.laneRampStep p l) s
        (put (fun y => { y with tx := 4 }) (emit (.drive p l 0) (put (fun y => { y with step := 16 }) d)))) ∧
      (n.tx = 5 → step ≤ d.now → n.step = 15 → Completes (.laneRampStep p l) s (fun d' =>
        (getLane p l d').tx = 6 ∧ d'.out = d.out ++ .drive p l 16 :: List.replicate 16 (.qualifier p l))) ∧
      ((n.tx ≠ 5 ∧ n.tx ≠ 3) ∨ d.now < step → Answers (.laneRampStep p l) s d) ∧
      (∀ v, let over_ := n.rx = 4 ∧ signedOf 32 (dictGet (0x4000 + p) 4 d) < v
        (over_ → Answers (.laneEnergyDetect p l v) s (put (fun y => { y with rx := 5, energyAt := d.now }) d)) ∧
        (¬ over_ → Answers (.laneEnergyDetect p l v) s d)) ∧
      (∀ q, let found := n.rx = 5 ∧ q = qualifierWord ∧ d.now ≤ n.energyAt + 2 * tUs
        (found → Answers (.qualifierMatch p l q) s (put (fun y => { y with rx := 6 }) d)) ∧
        (¬ found → Answers (.qualifierMatch p l q) s d)) ∧
      (n.rx = 5 → n.energyAt + 2 * tUs ≤ d.now → Answers (.qualifierTimeout p l) s
        (put (fun y => { y with rx := 4, falseWakes := satAdd 64 y.falseWakes 1 }) d)) ∧
      (n.rx ≠ 5 ∨ d.now < n.energyAt + 2 * tUs → Answers (.qualifierTimeout p l) s d) ∧
      (n.rx = 6 → Answers (.relockComplete p l false) s (put (fun y => { y with rx := 2, wakes := satAdd 64 y.wakes 1 }) d)) ∧
      (n.rx ≠ 6 → Answers (.relockComplete p l false) s d) ∧ (n.tx ≠ 6 → Answers (.relockComplete p l true) s d) ∧
      (n.tx = 6 → let e := put (fun y => { y with tx := 2, failures := 0 }) d
        ((∀ i, 2 ≤ i → i < laneCount p → (getLane p i e).tx = 2) → Answers (.relockComplete p l true) s (sendWidth p (laneCount p) e)) ∧
        ((∃ i, 2 ≤ i ∧ i < laneCount p ∧ (getLane p i e).tx ≠ 2) → Answers (.relockComplete p l true) s e)) ∧
      ((n.tx ≠ 5 ∧ n.tx ≠ 6) ∨ d.now < n.rampAt + 4 * tUs → Answers (.laneWakeLate p l) s d) ∧
      (n.tx = 5 ∨ n.tx = 6 → n.rampAt + 4 * tUs ≤ d.now →
        let e := raise 4 evLaneWakeLate (srcLane p l) (put (fun y => { y with
          failures := n.failures + 1, lateWakes := satAdd 64 n.lateWakes 1, tx := 5, step := 0, rampAt := d.now }) d)
        (n.failures = 0 → Answers (.laneWakeLate p l) s e) ∧
        (0 < n.failures → Answers (.laneWakeLate p l) s
          (startRetrain p (raise 4 evLaneFault (srcLane p l) (put (fun y => { y with tx := 7 }) e))))) ∧
      (∀ v : Int, let time := n.rx = 4 ∧ d.clk.lastTick + framePeriod d ≤ d.now + 2 * tUs
        let m := { n with floors := ((if isOptical p then max v (-4000) else v) :: n.floors).take 16 }
        (¬ time → Answers (.noiseFloorMeasure p l v) s d) ∧
        (time → marginShort p m d = false →
          Answers (.noiseFloorMeasure p l v) s (put (fun y => { y with marginRaised := false }) (put (fun _ => m) d))) ∧
        (time → marginShort p m d = true → n.marginRaised = false → Answers (.noiseFloorMeasure p l v) s
          (raise 4 evNoiseMargin (srcLane p l) (put (fun y => { y with marginRaised := true }) (put (fun _ => m) d)) (unsignedOf 32 (largestFloor m)))) ∧
        (time → marginShort p m d = true → n.marginRaised = true → Answers (.noiseFloorMeasure p l v) s (put (fun _ => m) d))))

/-- R297, R311: an arrival for a rank, a context, a position or a segment that is not there is discarded as COLL_REJECT; a
member's own multicast is dropped; a barrier's arrival is heard; bytes outside the exchange space raise COLL_OVERFLOW;
other bytes are written where R296 puts their offset and noted. R298: a step whose operands are complete sends its chunk
as SDATA packets and writes its own final chunk; a segment without such a step stays. R309: a second mismatch fences the
unit, and the last one's fencing is fatal. R302: a completed segment ends and adds 1 to DONE; one that is not complete
stays. -/
def Obligations.ScheduledData : Prop :=
  (∀ (c : Ctx) (cseg off : Nat), exchangeVa c cseg off = if off < c.psz
    then c.stage + cseg * roundUp (c.segb + c.psz) 64 + c.segb + off
    else c.result + cseg * roundUp c.rsz 64 + (off - c.psz)) ∧
  (∀ d : Dev, adderChecks 0 d = (true, d) ∧
    adderChecks 1 d = (true, raise 0 evReduceRecompute (srcNi (firstUnit d)) (bumpColl 0 d)) ∧
    (d.coll.fence = 0 → adderChecks 2 d = (true, raise 4 evReduceResidue (srcNi 0) (bumpColl 1 { d with coll.fence := 1 }))) ∧
    (d.coll.fence = 7 → adderChecks 2 d = (false, raiseFatal evReduceFencedAll (srcNi 3)
      (raise 4 evReduceResidue (srcNi 3) (bumpColl 1 { d with coll.fence := 15 }))))) ∧
  ∀ (s : State) (d : Dev), s.dev = d →
    (takeLocal (fun p => p.typ == 4) d = none → Answers .sdata s d) ∧
    (∀ p e, takeLocal (fun p => p.typ == 4) d = some (p, e) → takenRank p.tenant p.drank e = false →
      let t := p.tenant
      let cctx := bitsOf (blockOf p) 0 12
      let cseg := bitsOf (blockOf p) 12 16
      let off := bitsOf (blockOf p) 28 32
      let bs := p.payload.drop 16
      let ctx := rankCtx t p.drank e
      let detail := collDetail cctx cseg
      let stopped := (getRun t e).state = .halted ∧ ctx = 0
      let reject := raiseT 4 evCollReject (srcNi 0) t (bumpColl 3 e) detail
      (heldRanks t e = [] → Answers .sdata s reject) ∧
      (heldRanks t e ≠ [] → stopped → Answers .sdata s e) ∧
      (heldRanks t e ≠ [] → ¬ stopped → liveCtx t cctx e = none → Answers .sdata s reject) ∧
      (∀ c, heldRanks t e ≠ [] → ¬ stopped → liveCtx t cctx e = some c →
        (c.posOf p.srank = none ∨ c.posOf p.drank = none → Answers .sdata s reject) ∧
        (∀ sp pos, c.posOf p.srank = some sp → c.posOf p.drank = some pos →
          let x := instOrNew t p.drank cctx cseg pos e
          let y := if !x.begun && c.kind == 3 && pos != c.root then { x with begun := true, runFrame := (getRun t e).index } else x
          (p.mc = true → p.srank = p.drank → Answers .sdata s e) ∧
          (p.mc = false ∨ p.srank ≠ p.drank →
            (c.nseg ≤ cseg → Answers .sdata s reject) ∧
            (cseg < c.nseg → c.kind = 5 → sp ∉ x.heard → Answers .sdata s
              (mirrorArrival t p.drank cctx cseg pos sp 0 (putInst { x with heard := x.heard ++ [sp] } e))) ∧
            (cseg < c.nseg → c.kind ≠ 5 → c.psz + c.rsz < off + bs.length → Answers .sdata s
              (faultRun 2 evCollOverflow (srcNi 0) t (bumpColl 4 (putInst y e)) detail)) ∧
            (∀ f, cseg < c.nseg → c.kind ≠ 5 → off + bs.length ≤ c.psz + c.rsz →
              (∀ r ∈ x.arrived, overlaps r (off, bs.length) = false) → writeExchange t ctx c cseg off bs e = (.ok, f) →
              Answers .sdata s (mirrorArrival t p.drank cctx cseg pos off bs.length
                (putInst { y with arrived := addRange y.arrived (off, bs.length) } f))))))) ∧
    (∀ t rank cctx cseg, t < 1024 →
      (findInst t rank cctx cseg d = none ∨ liveCtx t cctx d = none →
        (∀ n, Answers (.collectiveStep t rank cctx cseg n) s d) ∧ Answers (.collectiveSegmentComplete t rank cctx cseg) s d) ∧
      (∀ x c, findInst t rank cctx cseg d = some x → liveCtx t cctx d = some c →
        ((∀ pl, stepPlan c x.pos 0 x.stepA = some pl → stepReady x pl = false) →
          (∀ pl, stepPlan c x.pos 1 x.stepB = some pl → stepReady x pl = false) →
          ∀ n, Answers (.collectiveStep t rank cctx cseg n) s d) ∧
        (∀ pl n, rankCtx t rank d = 0 → stepPlan c x.pos 0 x.stepA = some pl → stepReady x pl = true →
          pl.adds = false ∨ c.rop ≠ 0 →
          let w := tagWork [(0, x.runFrame)] d
          (∀ dest off len v e, pl.own = [] → pl.sends = [(dest, off, len)] →
            sendBytes t 0 c x.pos cseg dest off len w = (.ok, v, e) → Answers (.collectiveStep t rank cctx cseg n) s
              (untagged (putInst { x with stepA := x.stepA + 1, sent := x.sent ++ [(dest, off, len)] }
                ((sdataPackets t rank c cseg dest off v e).foldl (fun d p => inject p d) e)))) ∧
          (∀ o off len v e f, pl.own = [(o, off, len)] → pl.sends = [] →
            sendBytes t 0 c x.pos cseg toGroup off len w = (.ok, v, e) → vaWrite niTlb t 0 (c.res cseg + o) false v e = (.ok, f) →
            Answers (.collectiveStep t rank cctx cseg n) s
              (untagged (putInst { x with stepA := x.stepA + 1, arrived := addRange x.arrived (c.psz + o, len) } f)))) ∧
        (segmentDone x c d = false → Answers (.collectiveSegmentComplete t rank cctx cseg) s d) ∧
        (segmentDone x c d = true → rankCtx t rank d = 0 →
          let e := mirrorItem t 0 2 false (arrivalItem cctx cseg x.pos 0 instanceEnd)
            (bumpColl 2 (dropInst t rank cctx cseg (tagWork [(0, x.runFrame)] d)))
          (∀ f, ownsPool t c.doneCtr e = true → poolAdd c.doneCtr 1 e = (.applied, f) →
            Answers (.collectiveSegmentComplete t rank cctx cseg) s (untagged f)) ∧
          (ownsPool t c.doneCtr e = false → Answers (.collectiveSegmentComplete t rank cctx cseg) s
            (untagged (faultRun 1 evCounterRange (srcNi 0) t e))))))

/-- R305, R306. A row meets the next operation of its instance; where the operation is another row's, or the instance has
issued all, nothing happens. An operation out of its ranges abandons the instance; one whose trigger has not come leaves
a watch; else it acts: a put and an add dispatch as tracked operations, a hand-in hands in its bytes, a signal adds to
its counter, and a multicast put sends its packets; a hand-in and a signal are complete at once. The instance ends when
every operation has been issued and has completed, and a waiting automatic start goes ahead. -/
def Obligations.ChainOperations : Prop :=
  ∀ (s : State) (d : Dev) (number : Nat), s.dev = d →
    let row (act : Nat) (c : Instr) : Prop := (act, c) = (0, .chainPut number) ∨ (act, c) = (1, .chainAdd number) ∨
      (act, c) = (2, .chainHandin number) ∨ (act, c) = (3, .chainSignal number) ∨ (act, c) = (4, .chainMput number)
    let here (e : Dev) : Option ChainInst := e.coll.chains.find? fun x => x.number == number
    (here d = none → (∀ act c, row act c → Answers c s d) ∧ Answers (.chainInstanceEnd number) s d) ∧
    (∀ x0 x d0, here d = some x0 → settleMputs x0 d = d0 → here d0 = some x →
      (x.op = x.count → x.waiting = [] → Answers (.chainInstanceEnd number) s
        (autoStarts (chainWordDone x true { d0 with coll.chains := d0.coll.chains.filter fun y => y.number != number }))) ∧
      (x.op ≠ x.count ∨ x.waiting ≠ [] → Answers (.chainInstanceEnd number) s d0)) ∧
    (∀ x0 x d0, here d = some x0 → rankCtx x0.tenant x0.rank d = 0 → settleMputs x0 (tagWork [(0, x0.r)] d) = d0 →
      here d0 = some x →
      let t := x.tenant
      (x.count ≤ x.op → ∀ act c, row act c → Answers c s (untagged d0)) ∧
      (∀ b e, x.op < x.count → chainOpBytes x x.op d0 = (.ok, b, e) →
        let a := fieldAt b 0 1
        let clear := bitOf (fieldAt b 1 1) 0 = false ∨ x.waiting = []
        (∀ act c, row act c → a ≠ act → a ≤ 4 → Answers c s (untagged e)) ∧
        (∀ act c, row act c → a = act ∨ 4 < a → chainOpGood t b e = false → Answers c s (untagged (chainConfig x e))) ∧
        (∀ act c, row act c → a = act → chainOpGood t b e = true → ¬ clear → Answers c s (untagged e)) ∧
        (∀ act c f, row act c → a = act → chainOpGood t b e = true → clear → bitOf (fieldAt b 2 2) 15 = true →
          poolWait (.chain number) (bitsOf (fieldAt b 2 2) 0 14) (fieldAt b 8 4 + fieldAt b 4 2 * x.r) e = (false, f) →
          Answers c s (untagged f)) ∧
        (∀ f, chainOpGood t b e = true → clear → (bitOf (fieldAt b 2 2) 15 = false ∧ f = e) ∨ (bitOf (fieldAt b 2 2) 15 = true ∧
            poolWait (.chain number) (bitsOf (fieldAt b 2 2) 0 14) (fieldAt b 8 4 + fieldAt b 4 2 * x.r) e = (true, f)) →
          let ctx := rankCtx t x.rank f
          let c := fieldAt b 0x0C 4
          let v := fieldAt b 0x10 8
          let w := fieldAt b 0x18 8
          let n := (bitsOf v 48 11 + 1) * 64
          (∀ g, a = 0 → dispatchOp { tenant := t, srank := x.rank, rank := c, kind := 0, side := 1, local_ := bitsOf v 0 48
                                     remote := w, len := n, window := x.window + 1, origin := .chain x.number x.op } ctx f = (.sent, g) →
            Answers (.chainPut number) s (untagged (chainIssued x.number true g))) ∧
          (∀ g, a = 1 → dispatchOp { tenant := t, srank := x.rank, rank := c, kind := 2, counter := v, value := w
                                     origin := .chain x.number x.op } ctx f = (.sent, g) →
            Answers (.chainAdd number) s (untagged (chainIssued x.number true g))) ∧
          (∀ k bs g h, a = 2 → liveCtx t (bitsOf c 0 12) f = some k →
            handInCheck t ctx (bitsOf c 0 12) (bitsOf c 12 16) k.segb 16 false true f = .ok →
            vaFetch niTlb t ctx (bitsOf v 0 48) k.segb f = (.ok, bs, g) →
            handInBytes t ctx (bitsOf c 0 12) (bitsOf c 12 16) 0 bs g = (.ok, h) →
            Answers (.chainHandin number) s (untagged (chainOpDone x.number x.op (chainIssued x.number true h)))) ∧
          (∀ g, a = 3 → poolAdd (bitsOf v 0 14) w f = (.applied, g) →
            Answers (.chainSignal number) s (untagged (chainOpDone x.number x.op (chainIssued x.number true g)))) ∧
          (∀ bs g, a = 4 → vaFetch niTlb t ctx (bitsOf v 0 48) n f = (.ok, bs, g) →
            Completes (.chainMput number) s (fun d' =>
              d'.net.inject.length = g.net.inject.length + (n + 223) / 224 ∧ g.net.inject <+: d'.net.inject ∧
              d'.coll = (chainIssued x.number true g).coll)))))

/-- R318, R319: a write, an add or a state record joins the journal, but not a survivor's, and is acknowledged; the record
that opens a copy starts it anew (log entry 31). A commit takes the rank's records up to its run frame off the journal,
applies them in order, notes the committed frame and is acknowledged. An acknowledgement frees everything up to its MSEQ,
which its 48 bits stand for, and what the acknowledged commits cover. R323: a repair request is answered with the line
overlaid by the journal, or emptily where the store's copy is bad; a reply rewrites the words that are still
uncorrectable. R322: a seed reaches the copy. Table 7.5: a direct write reaches the tenant's memory. R324: a heartbeat
is noted, and with the port up it opens the stream of an unprotected pair. R335: a release starts the spare's rank at the
frame after the committed one. A row whose record is not the next changes nothing. -/
def Obligations.MirrorRecords : Prop :=
  (∀ (a : Nat) (d : Dev), a < d.twin.nextMseq → d.twin.nextMseq ≤ a + 2 ^ 48 → ackedMseq (a % 2 ^ 48) d = a) ∧
  (∀ (r : MirrorRec) (d : Dev) (pa : Nat), r.kind = 0 → ownPlace r d = none →
    storeAddr r.tenant r.region r.addr d = some pa → applyRecord r d = (physWrite pa r.data d).2) ∧
  ∀ (s : State) (d : Dev), s.dev = d →
    let row (k : Nat) (c : Instr) : Prop := (k, c) = (0, .mirrorWrite) ∨ (k, c) = (1, .mirrorCounterAdd) ∨
      (k, c) = (2, .mirrorState) ∨ (k, c) = (3, .mirrorCommit) ∨ (k, c) = (4, .mirrorAck) ∨ (k, c) = (5, .repairRequest) ∨
      (k, c) = (6, .repairReply) ∨ (k, c) = (7, .mirrorSeed) ∨ (k, c) = (8, .mirrorDirect) ∨ (k, c) = (9, .heartbeat) ∨
      (k, c) = (10, .mirrorRelease)
    (∀ k c, row k c → nextRecord k d = none → Answers c s d) ∧
    (∀ k c r e, row k c → nextRecord k d = some (r, e) → k ≤ 2 →
      (isOpening r = true → Answers c s (sendAck r { e with
        twin.journal := [], twin.control := [], twin.partner := [], twin.committed := []
        twin.seeds := e.twin.seeds.filter fun x => x.target != 2
        twin.extents := e.twin.extents.filter fun x => x.tenant == 1024 })) ∧
      (k ≠ 2 ∨ r.addr ≠ 5 → Answers c s
        (sendAck r (if e.twin.state = 5 then e else { e with twin.journal := e.twin.journal ++ [r] })))) ∧
    (∀ c e, nextRecord 3 d = some (c, e) →
      let due := e.twin.journal.filter fun r => r.tenant == c.tenant && r.rank == c.rank && frameAtMost r.rframe c.rframe
      (∀ r ∈ due, r.kind ≠ 0) → Answers .mirrorCommit s (sendAck c (protectTracked c.tenant { e with
        twin.journal := e.twin.journal.filter fun r => !(r.tenant == c.tenant && r.rank == c.rank && frameAtMost r.rframe c.rframe)
        twin.control := due.foldl (fun l r => controlPut r l) e.twin.control
        twin.committed := Sparse.set 0 e.twin.committed (rankKey c.tenant c.rank) (c.rframe + 1)
        twin.counts := bumpTable e.twin.counts 2 1 }))) ∧
    (∀ r e, nextRecord 4 d = some (r, e) → e.twin.seeds = [] → e.twin.queued = [] →
      let m := ackedMseq r.addr e
      let done := e.twin.commitsOut.filter fun c => decide (c.2.2.2 ≤ m)
      Answers .mirrorAck s (releaseAnswers { e with
        twin.unacked := e.twin.unacked.filter fun x => decide (m < x.mseq)
        twin.held := e.twin.held.filter fun x => !(done.any fun c => freedBy c x)
        twin.commitsOut := e.twin.commitsOut.filter fun c => decide (m < c.2.2.2) })) ∧
    (∀ r e, nextRecord 5 d = some (r, e) → r.data.length ≠ 1 →
      let reply (bs : Bytes) (e : Dev) : Dev :=
        mirrorSend { kind := 6, tenant := r.tenant, rank := r.rank, region := r.region, addr := r.addr, data := bs } e
      (storeAddr r.tenant r.region r.addr e = none → Answers .repairRequest s (reply [] e)) ∧
      (∀ pa v f, storeAddr r.tenant r.region r.addr e = some pa → physRead pa 64 e = (v, false, f) →
        Answers .repairRequest s (reply (overlayLine r.tenant r.region r.addr v f.twin.journal)
          { f with twin.counts := bumpTable f.twin.counts 3 1 })) ∧
      (∀ pa v f, storeAddr r.tenant r.region r.addr e = some pa → physRead pa 64 e = (v, true, f) →
        Answers .repairRequest s (reply [] (storeRefresh pa
          (raise 4 evMirrorStoreUe (srcChannel (pseudoChannel pa)) (countUncorrectable pa f) (pa / 64)))))) ∧
    (∀ r e, nextRecord 6 d = some (r, e) →
      let g := (regions r.tenant e).find? fun g => g.index == r.region
      (g = none → Answers .repairReply s e) ∧
      (∀ g' pa f, g = some g' → place niTlb r.tenant 0 (g'.base + r.addr) true e = (.dev pa, f) →
        let ended := { f with mem.repairs := f.mem.repairs.filter fun p => p.1 != pa / 64 }
        (r.data.length < 64 → Answers .repairReply s ended) ∧
        (∀ k, 64 ≤ r.data.length → ((errsIn f.mem.err pa 64).filter fun p => p.2 == 2) = [(k, 2)] →
          let w := (physWrite (k * 8) ((r.data.drop (k * 8 - pa)).take 8) ended).2
          let c := pseudoChannel pa
          Answers .repairReply s (raise 0 evMirrorRepair (srcChannel c)
            { w with mem.hbmCounts := bumpTable w.mem.hbmCounts (c * 4 + 2) 1 } (pa / 64))))) ∧
    (∀ r e, nextRecord 7 d = some (r, e) → Answers .mirrorSeed s (sendAck r { (copyBytes r e) with
      twin.seeds := e.twin.seeds.map fun x => if x.target = 2 ∧ x.tenant = r.tenant ∧ x.region = r.region then
        { x with next := max x.next (r.addr + r.data.length), acked := x.acked || decide (x.size ≤ r.addr + r.data.length) }
        else x })) ∧
    (∀ r e f, nextRecord 8 d = some (r, e) →
      (vaWrite niTlb r.tenant 0 r.addr true r.data e = (.ok, f) → Answers .mirrorDirect s (sendAck r f)) ∧
      (vaWrite niTlb r.tenant 0 r.addr true r.data e = (.wait, f) →
        Answers .mirrorDirect s { f with twin.inQ := r :: f.twin.inQ })) ∧
    (∀ r e, nextRecord 9 d = some (r, e) →
      let v := fieldAt r.data 0 8
      let noted := { e with twin.gotBeat := some r.addr, twin.lastBeat := v / 2 ^ 8, twin.missed := 0
                            twin.partnerFatal := e.twin.partnerFatal || bitOf v 4 }
      (bitOf v 4 = true ∨ tPortUp e = false ∨ ((e.twin.state = 0 ∨ e.twin.state = 2) ∧ e.twin.suspect = false) →
        Answers .heartbeat s noted) ∧
      (bitOf v 4 = false → tPortUp e = true →
        e.twin.state = 4 ∨ (e.twin.state = 1 ∧ e.twin.sentBeat ≠ none ∧ dictGet 0x6000 6 e = 0) →
        Answers .heartbeat s (openStream 2 noted))) ∧
    (∀ m e, nextRecord 10 d = some (m, e) →
      let t := m.tenant
      let r := getRun t e
      (r.state ≠ .armed ∨ r.rank ≠ m.rank → Answers .mirrorRelease s e) ∧
      (r.state = .armed → r.rank = m.rank → r.con.tileMask = 0 →
        let f := settleJournal t m.rank e
        let l := rankControl t m.rank f
        let index := lostGet t itemIndex f
        let first := resumeFrame t m.rank index f
        let g := restoreInstances t m.rank l (restoreCounters l f)
        let h := openStream 2 (raise 4 evReintegrated (srcPort 8) (setRunState t .running
          (modRun t (fun x => { x with index := index, spanLeft := 1 }) g)))
        let j := openAccount t (modRun t (fun x => { x with spanLeft := x.factor }) (applyStretches t h.clk.frame h))
        Answers .mirrorRelease s ((List.range (index + 1 - first)).foldl (fun d i => giveFrame t 0 (first + i) d) j)))

/-- R324: the heartbeat of a building frame is sent once, 1 us into it, with the pair state, FATAL and the count; one that
has not come by P - 1 us with the port up throughout is missed and opens a suspicion (R325), which raises TWIN_SUSPECT.
R322: a seed of 256 bytes goes out while the seed share has room. R319: a commit that is due and whose frame has ended is
sent, and not before. R326: a probe's reply that is the last count, or none in time, fails the probe; another reply makes
the pair UNPROTECTED. -/
def Obligations.TwinWatch : Prop :=
  (∀ d : Dev,
    (d.twin.suspect = true ∨ (d.twin.state ≠ 2 ∧ d.twin.state ≠ 6) → openSuspicion d = d) ∧
    (d.twin.suspect = false → d.twin.state = 2 → (∀ t, t ∈ runTenants d → mirrored t d = false) →
      openSuspicion d = raise 4 evTwinSuspect (srcPort 8)
        { d with twin.suspect := true, twin.state := 3, twin.counts := bumpTable d.twin.counts 6 1 })) ∧
  ∀ (s : State) (d : Dev), s.dev = d →
    let placed := d.clk.placed = true
    let due (c : Nat × Nat × Nat) : Prop := snapshotsSent c.1 c.2.1 c.2.2 d = true ∧ programsEnded c.1 c.2.1 c.2.2 d = true ∧
      ∀ x ∈ d.twin.seeds, x.target = 4 → x.tenant = c.1 → x.size ≤ x.next
    (d.twin.state ≠ 0 → placed → d.clk.lastTick + tUs ≤ d.now → d.twin.sentBeat ≠ some d.clk.frame → tPortUp d = true →
      Answers .heartbeatSend s (toOutput 8 1
        (recordBytes { kind := 9, addr := d.clk.frame
                       data := leBytes 8 (d.twin.state % 16 + (if d.fatal then 16 else 0) + (d.twin.beats + 1) % 2 ^ 56 * 2 ^ 8) })
        { d with twin.sentBeat := some d.clk.frame, twin.beats := d.twin.beats + 1 })) ∧
    (d.twin.state = 0 ∨ ¬ placed ∨ d.now < d.clk.lastTick + tUs ∨ d.twin.sentBeat = some d.clk.frame ∨ tPortUp d = false →
      Answers .heartbeatSend s d) ∧
    (∀ u, d.twin.state = 2 ∨ d.twin.state = 3 ∨ d.twin.state = 6 → placed → d.twin.missedAt ≠ some d.clk.frame →
      d.clk.lastTick + framePeriod d ≤ d.now + tUs → d.twin.upAt = some u → u ≤ d.clk.lastTick →
      d.twin.gotBeat ≠ some d.clk.frame → Answers .heartbeatMissed s (openSuspicion { d with
        twin.missedAt := some d.clk.frame, twin.missed := d.twin.missed + 1, twin.counts := bumpTable d.twin.counts 5 1 })) ∧
    ((d.twin.state ≠ 2 ∧ d.twin.state ≠ 3 ∧ d.twin.state ≠ 6) ∨ ¬ placed ∨ d.twin.missedAt = some d.clk.frame ∨
      d.now + tUs < d.clk.lastTick + framePeriod d ∨ (∀ u, d.twin.upAt = some u → d.clk.lastTick < u) ∨
      d.twin.gotBeat = some d.clk.frame → Answers .heartbeatMissed s d) ∧
    ((d.twin.seeds.find? fun x => x.target != 2 && decide (x.next < x.size)) = none → Answers .seedSend s d) ∧
    (∀ x, (d.twin.seeds.find? fun x => x.target != 2 && decide (x.next < x.size)) = some x →
      (mirroring d = false ∨ tPortUp d = false ∨ d.now < d.twin.seedCredit → Answers .seedSend s d) ∧
      (∀ ctx va bs e, mirroring d = true → tPortUp d = true → d.twin.seedCredit ≤ d.now → seedSource x d = some (ctx, va) →
        vaFetch niTlb x.tenant ctx va 256 d = (.ok, bs, e) →
        let y := { x with next := x.next + 256, lastMseq := if x.size ≤ x.next + 256 then some (mseqAfter e) else none }
        Answers .seedSend s (mirrorSend
          { kind := 7, tenant := x.tenant, rank := ctxRank x.tenant ctx e, region := x.region, addr := x.next, data := bs }
          { e with twin.seeds := e.twin.seeds.map (fun z => if z = x then y else z)
                   twin.seedCredit := e.now + 2000 / max 1 (dictGet 0x6000 4 e), twin.counts := bumpTable e.twin.counts 4 1 }))) ∧
    ((∀ c ∈ d.twin.commitsDue, ¬ due c) ∨ mirroring d = false → Answers .commitRecordSend s d) ∧
    (∀ l t rank r rest, d.twin.commitsDue = l ++ (t, rank, r) :: rest → (∀ c ∈ l, ¬ due c) → due (t, rank, r) →
      mirroring d = true → d.twin.seeds = [] → Answers .commitRecordSend s
        (mirrorSend { kind := 3, tenant := t, rank := rank, rframe := r } { d with
        twin.commitsDue := d.twin.commitsDue.filter (· != (t, rank, r))
        twin.commitsOut := d.twin.commitsOut ++ [(t, rank, r, mseqAfter d)]
        twin.snapshots := d.twin.snapshots.filter fun x => !(x.1 == rankKey t rank && decide (x.2.2 ≤ r)) })) ∧
    (∀ count, (d.twin.probeAt = none ∨ d.twin.probeFailed = true → Answers (.probeReply count) s d) ∧
      (d.twin.probeAt ≠ none → d.twin.probeFailed = false → (count % 2 ^ 56 : Nat) = d.twin.lastBeat →
        Answers (.probeReply count) s { d with twin.probeFailed := true }) ∧
      (d.twin.probeAt ≠ none → d.twin.probeFailed = false → (count % 2 ^ 56 : Nat) ≠ d.twin.lastBeat →
        Answers (.probeReply count) s (failoverStretch 0 true (closeStream 4 (raise 4 evTwinUnprotected (srcPort 8) d))))) ∧
    (d.twin.probeAt = none → Answers .probeTimeout s d) ∧
    (∀ a, d.twin.probeAt = some a →
      (a + dictGet 0x6000 5 d * tUs ≤ d.now → Answers .probeTimeout s { d with twin.probeFailed := true }) ∧
      (d.now < a + dictGet 0x6000 5 d * tUs → Answers .probeTimeout s d))

/-- R374, R376, R377, R379. A row takes the messages that are its own request while its transport carries messages. One
that is not well formed is discarded and counted; an acknowledgement of the lease's holder removes its notification
(R390); a TID that the window remembers is answered with the remembered response and has no further effect; any other
request is executed, its response remembered and sent, and a boot control value acts after it (Table 17.1 gives a
response no FLAGS and no LEASE: free values). R383: the first abort of Table 17.3 that applies answers, and nothing
changes. R384, R385, R387, R400 to R402: a read gives the value in effect, or the staged one; a staged write goes to the
shadow set; an immediate one acts as its entry says; a lease is granted, renewed, ended or forced. -/
def Obligations.TabingMessages : Prop :=
  (∀ tr addr tid resp d e, (remember tr addr tid resp d).mgmt.windows = e.mgmt.windows → e.now < d.now + 10000 * tMs →
    remembered tr addr tid e = some resp) ∧
  (∀ role sec m d, let rows := entryRows.filter (·.hasIndex m.idx)
    let known := (rows.any fun r => hasRight r role) = true
    let seen := m.sub = 0 ∨ ((entryOf m.idx m.sub).any fun r => hasRight r role) = true
    (¬ known → rightAbort role sec m d = 0x01) ∧ (known → ¬ seen → rightAbort role sec m d = 0x02) ∧
    (known → seen → bootAbort m d ≠ 0 → rightAbort role sec m d = bootAbort m d) ∧
    (known → seen → bootAbort m d = 0 → 0xF000 ≤ m.idx → (sec && d.mgmt.diagnostic) = false → rightAbort role sec m d = 0x0B)) ∧
  (∀ role sec m d, (rightAbort role sec m d ≠ 0 → doRead role sec m d = (rightAbort role sec m d, [], d)) ∧
    (∀ r, rightAbort role sec m d = 0 → m.sub ≠ 0 → entryOf m.idx m.sub = some r → readAbort r m d = 0 → m.idx ≠ 0x8000 →
      (m.idx = 0xF000 → m.sub = 2 → errsIn d.mem.err (dictGet 0xF000 1 d + m.off) m.len = [] →
        doRead role sec m d = (0, (physRead (dictGet 0xF000 1 d + m.off) m.len d).1, (physRead (dictGet 0xF000 1 d + m.off) m.len d).2.2)) ∧
      (m.idx ≠ 0xF000 → bitOf m.flags 0 = false ∨ r.staged = false → doRead role sec m d = (0, entryBytes m.idx m.sub d, d)) ∧
      (∀ v, m.idx ≠ 0xF000 → bitOf m.flags 0 = true → r.staged = true →
        Sparse.get none d.mgmt.shadow (entryKey m.idx m.sub) = some v → doRead role sec m d = (0, leBytes r.len v, d)))) ∧
  (∀ tr addr sec m d, let v := keptValue m.idx m.sub (leNat m.value)
    let right := rightAbort (roleOf tr) sec m d
    (right ≠ 0 → doWrite tr addr sec m d = (right, [], d)) ∧
    (∀ r, right = 0 → entryOf m.idx m.sub = some r →
      let leased := holdsLease tr addr d = true ∧ d.mgmt.lease.epoch = m.lease
      (writeAbort tr addr r m d ≠ 0 → doWrite tr addr sec m d = (writeAbort tr addr r m d, [], d)) ∧
      (¬ leased → writeAbort tr addr r m d = 0x07) ∧
      (leased → r.streamed = false → m.len ≠ r.len ∨ m.off ≠ 0 → writeAbort tr addr r m d = 0x03) ∧
      (leased → r.streamed = false → m.len = r.len → m.off = 0 → valueGood m.idx m.sub v d = false → writeAbort tr addr r m d = 0x06) ∧
      (leased → r.streamed = false → m.len = r.len → m.off = 0 → valueGood m.idx m.sub v d = true → r.staged = true →
        (bitOf m.flags 1 = true → writeAbort tr addr r m d = 0x08) ∧
        (bitOf m.flags 1 = false → d.mgmt.frozen = true → writeAbort tr addr r m d = 0x09)) ∧
      (writeAbort tr addr r m d = 0 → r.staged = true → doWrite tr addr sec m d =
        (0, [], { d with mgmt.shadow := Sparse.set none d.mgmt.shadow (entryKey m.idx m.sub) (some v) })) ∧
      (writeAbort tr addr r m d = 0 → r.staged = false →
        (m.idx = 0x1010 → m.sub = 1 → doWrite tr addr sec m d = (0, [], imageData m.off m.value d)) ∧
        (m.idx = 0x1010 → m.sub = 2 → v = 1 → doWrite tr addr sec m d = (0, [], { d with boot.update := 1 })) ∧
        (m.idx = 0x1010 → m.sub = 2 → v = 2 → doWrite tr addr sec m d = (0, [], { d with boot.update := 3 })) ∧
        (m.idx = 0x1010 → m.sub = 2 → v = 3 →
          doWrite tr addr sec m d = (0, [], modBootRec (fun r => { r with next := targetSlot d }) d)) ∧
        (m.idx = 0x1100 → doWrite tr addr sec m d = (0, [], d)) ∧
        (m.idx = 0x1400 → m.sub = 1 → doWrite tr addr sec m d =
          (0, leBytes 8 (startCommit (leNat m.value) d).mgmt.commits, startCommit (leNat m.value) d)) ∧
        (m.idx = 0x1400 → m.sub = 4 → doWrite tr addr sec m d =
          (0, [], if d.mgmt.frozen then d else { d with mgmt.shadow := [] })) ∧
        (∀ p, p < 9 → m.idx = 0x4000 + p → doWrite tr addr sec m d =
          (0, [], if dictGet (0x4000 + p) 1 d = 1 then startTraining p d else d)) ∧
        (∀ t, t < 1024 → m.idx = 0x5000 + t →
          (m.sub = 5 → doWrite tr addr sec m d =
            (0, [], sendStretch t { target := v % 2 ^ 48, source := 4, logf := 0, fin := false } d)) ∧
          (m.sub = 6 → doWrite tr addr sec m d = (0, [], sendStretch t
            { target := v % 2 ^ 48, source := 3, logf := v / 2 ^ 64 % 256, fin := v / 2 ^ 72 % 256 == 1 } d)) ∧
          (m.sub = 7 → doWrite tr addr sec m d = (0, [], flushStream t v d))) ∧
        (m.idx = 0x8000 → m.sub = 4 → doWrite tr addr sec m d = (0, [], { d with ev.persistent := [], ev.persistentCount := 0 })) ∧
        (m.idx = 0xF000 → m.sub = 2 → doWrite tr addr sec m d =
          (0, [], (physWrite (dictGet 0xF000 1 d + m.off) m.value d).2)) ∧
        (m.idx = 0xF001 → bitsOf v 0 4 = 1 → physExists (dictGet 0xF000 1 d) = true → doWrite tr addr sec m d =
          (0, [], setErr (dictGet 0xF000 1 d / 8) (if bitOf v 4 then 2 else 1) d))))) ∧
  (∀ tr addr m d, m.value.length = 8 →
    let op := fieldAt m.value 0 1
    let l := d.mgmt.lease
    let mine := l.role ≠ 0 ∧ l.transport = tr ∧ l.address = addr
    let good := mine ∧ l.epoch = fieldAt m.value 4 4
    let expiry := d.now + 6000 * tMs
    (op = 1 → l.role = 0 → (doLease tr addr m d).2.2 = { d with mgmt.lease := {
      role := roleCode (roleOf tr), transport := tr, address := addr, epoch := (l.epoch + 1) % 2 ^ 32, expiry := expiry } }) ∧
    (op = 1 ∧ mine ∨ op = 2 ∧ good → (doLease tr addr m d).2.2 = { d with mgmt.lease.expiry := expiry }) ∧
    ((op = 1 ∧ l.role ≠ 0 ∧ ¬ mine) ∨ (op = 2 ∨ op = 3) ∧ ¬ good ∨ op = 4 ∧ mayForce tr d = false →
      doLease tr addr m d = (0x07, [], d)) ∧
    (op = 3 → good → (doLease tr addr m d).2.2 = endLease d) ∧
    (op = 4 → mayForce tr d = true → ¬ mine → let g := (doLease tr addr m d).2.2.mgmt.lease
      g.role = roleCode (roleOf tr) ∧ g.transport = tr ∧ g.address = addr ∧ g.epoch = (l.epoch + 1) % 2 ^ 32 ∧ g.expiry = expiry) ∧
    (op = 0 ∨ 4 < op → doLease tr addr m d = (0x06, [], d))) ∧
  ∀ (s : State) (d : Dev) tr addr sec flash b, s.dev = d → tr < 5 →
    let m := trimMsg (parseMsg b)
    let row (q : MsgKind) (c : Instr) : Prop := q = .coldReset ∧ c = .bootControlColdReset tr addr sec flash b ∨
      flash = true ∧ ((q, c) = (.read, .tabingRead tr addr sec b) ∨ (q, c) = (.write, .tabingWrite tr addr sec b) ∨
      (q, c) = (.acquire, .leaseAcquire tr addr sec b) ∨ (q, c) = (.renew, .leaseRenew tr addr sec b) ∨
      (q, c) = (.release, .leaseRelease tr addr sec b) ∨ (q, c) = (.force, .leaseForce tr addr sec b) ∨
      (q, c) = (.ack, .notifyAck tr addr sec b) ∨ (q, c) = (.commit, .commit tr addr sec b) ∨
      (q, c) = (.discard, .shadowDiscard tr addr sec b) ∨ (q, c) = (.halt, .haltRequest tr addr sec b) ∨
      (q, c) = (.stretch, .managementStretch tr addr sec b) ∨ (q, c) = (.flush, .collectorFlush tr addr sec b) ∨
      (q, c) = (.train, .trainNow tr addr sec b) ∨ (q, c) = (.imageData, .imageData tr addr sec b) ∨
      (q, c) = (.erase, .updateErase tr addr sec b) ∨ (q, c) = (.verify, .updateVerify tr addr sec b) ∨
      (q, c) = (.select, .updateSelect tr addr sec b) ∨ (q, c) = (.warmReset, .bootControlWarmReset tr addr sec b) ∨
      (q, c) = (.clear, .bootControlClear tr addr sec b) ∨ (q, c) = (.minimal, .bootControlMinimal tr addr sec b) ∨
      (q, c) = (.raiseSvn, .bootControlRaiseSvn tr addr sec b) ∨ (q, c) = (.clearRing, .clearPersistentRing tr addr sec b) ∨
      (q, c) = (.windowRead, .diagnosticWindowRead tr addr sec b) ∨ (q, c) = (.windowWrite, .diagnosticWindowWrite tr addr sec b) ∨
      (q, c) = (.inject, .errorInjection tr addr sec b))
    let e := bumpMgmt 0 d
    let served := transportOpen tr d = true ∧ wellFormedMsg tr b = true
    let outcome := if m.kind = 1 then doRead (roleOf tr) sec m e else if m.kind = 2 then doWrite tr addr sec m e
      else doLease tr addr m e
    let p := tabingResponse m outcome.1 outcome.2.1 (if outcome.1 = 0 then outcome.2.2 else bumpMgmt 3 outcome.2.2)
    let answered := sendMessage tr addr p.1 (remember tr addr m.tid p.1 p.2)
    (∀ q c, row q c → transportOpen tr d = false ∨ requestOf (parseMsg b) ≠ q → Answers c s d) ∧
    (∀ q c, row q c → requestOf (parseMsg b) = q → transportOpen tr d = true → wellFormedMsg tr b = false → tr ≠ 0 →
      Answers c s (bumpMgmt 1 d)) ∧
    (∀ q c, row q c → requestOf (parseMsg b) = q → served →
      (q = .ack → tr ≠ 0 → holdsLease tr addr d = true → Answers c s { e with
        mgmt.notices := e.mgmt.notices.filter fun n => n.seq % 65536 != m.tid }) ∧
      (∀ resp, q ≠ .ack → remembered tr addr m.tid e = some resp →
        Answers c s (sendMessage tr addr resp (touchWindow tr addr (bumpMgmt 2 e)))) ∧
      (q ≠ .ack → remembered tr addr m.tid e = none →
        (m.idx ≠ 0x1100 ∨ m.kind ≠ 2 ∨ outcome.1 ≠ 0 → Answers c s answered) ∧
        (m.idx = 0x1100 → m.kind = 2 → outcome.1 = 0 → Answers c s (bootControl (leNat m.value) flash answered))))

/-- R385: a lease not renewed for 6 s ends, and LEASE_EXPIRED is raised. R381, R391: a block for another address or while
no twin is configured is passed over; one whose PEC or count is wrong is refused and its message discarded; a first or a
middle fragment is kept; of two devices that drive at once the one at 0x4A loses and receives; a message not complete
within 35 ms is discarded; a lost message is driven again after the bus has been idle for 50 us and the drawn delay. R380:
the MCTP control commands are answered (their layouts are those of DSP0236, PRESUMED in log entry 40; the command set of
the vendor answer is a free value), and an EID or a dynamic address is taken. R392: the SPDM responder answers, and a
failed check ends the session and raises SPDM_FAIL. -/
def Obligations.ManagementTransports : Prop :=
  ∀ (s : State) (d : Dev), s.dev = d →
    (d.mgmt.lease.role ≠ 0 → d.mgmt.lease.expiry ≤ d.now → Answers .leaseExpiry s
      (raise 4 evLeaseExpired (srcTransport d.mgmt.lease.transport) (endLease d))) ∧
    (d.mgmt.lease.role = 0 ∨ d.now < d.mgmt.lease.expiry → Answers .leaseExpiry s d) ∧
    (∀ b, let n := b.length
      let mine := twinCoord d ≠ none ∧ fieldAt b 0 1 = ownAddress d * 2 ∧ fieldAt b 1 1 = 0x54
      let sound := 5 ≤ n ∧ pec (b.take (n - 1)) = b.getD (n - 1) 0 ∧ fieldAt b 2 1 = n - 4
      let ctl := fieldAt b 3 1
      let body := (b.drop 4).take (n - 5)
      let idle := { d with mgmt.smbusIdleAt := d.now }
      (d.boot.started = false → ∀ o, Answers (.smbusBlockWrite b o) s d) ∧
      (d.boot.started = true → ¬ mine → Answers (.smbusBlockWrite b false) s idle) ∧
      (d.boot.started = true → mine → ¬ sound → Answers (.smbusBlockWrite b false) s
        { idle with mgmt.smbus := none, mgmt.smbusCounts := bumpTable d.mgmt.smbusCounts 2 1 }) ∧
      (d.boot.started = true → mine → sound → bitOf ctl 7 = true → bitOf ctl 6 = false → ctl % 64 = 0 →
        Answers (.smbusBlockWrite b false) s { idle with mgmt.smbus := some { bytes := body, next := 1, since := d.now } }) ∧
      (∀ a, d.boot.started = true → mine → sound → bitOf ctl 7 = false → d.mgmt.smbus = some a →
        (ctl % 64 ≠ a.next → Answers (.smbusBlockWrite b false) s { idle with mgmt.smbus := none }) ∧
        (ctl % 64 = a.next → bitOf ctl 6 = false → Answers (.smbusBlockWrite b false) s
          { idle with mgmt.smbus := some { a with bytes := a.bytes ++ body, next := (a.next + 1) % 64 } }) ∧
        (ctl % 64 = a.next → bitOf ctl 6 = true → fieldAt (a.bytes ++ body) 1 1 ≠ 0x81 → Answers (.smbusBlockWrite b false) s
          (takeMessage 4 (0x95 - ownAddress d) false true (a.bytes ++ body) { idle with mgmt.smbus := none }))) ∧
      (d.boot.started = true → d.mgmt.smbusOut ≠ [] →
        (ownAddress d = 0x4B → Answers (.smbusBlockWrite b true) s d) ∧
        (ownAddress d = 0x4A → Answers (.smbusBlockWrite b true) s (receiveBlock b { d with
          freeUsed := d.freeUsed + 1, mgmt.smbusLost := some (Config.freeValue d.freeUsed % 2 ^ 32 % 51)
          mgmt.smbusIdleAt := d.now, mgmt.smbusCounts := bumpTable d.mgmt.smbusCounts 0 1 })))) ∧
    (d.mgmt.smbus = none → Answers .smbusFragmentTimeout s d) ∧
    (∀ a, d.mgmt.smbus = some a →
      (a.since + 35 * tMs ≤ d.now → Answers .smbusFragmentTimeout s
        { d with mgmt.smbus := none, mgmt.smbusCounts := bumpTable d.mgmt.smbusCounts 3 1 }) ∧
      (d.now < a.since + 35 * tMs → Answers .smbusFragmentTimeout s d)) ∧
    (d.mgmt.smbusLost = none ∨ d.mgmt.smbusOut = [] → ∀ l, Answers (.smbusRetry l) s d) ∧
    (∀ k m, d.mgmt.smbusLost = some k → d.mgmt.smbusOut = [m] →
      (d.now < d.mgmt.smbusIdleAt + (50 + k) * tUs → ∀ l, Answers (.smbusRetry l) s d) ∧
      (d.mgmt.smbusIdleAt + (50 + k) * tUs ≤ d.now → Answers (.smbusRetry false) s (driveSideband m
        { d with mgmt.smbusLost := none, mgmt.smbusCounts := bumpTable d.mgmt.smbusCounts 1 1 }))) ∧
    (d.boot.started = true → d.mgmt.i3cAddress = 0 → ∀ a, Answers (.entdaa a) s { d with mgmt.i3cAddress := a % 128 }) ∧
    (d.boot.started = false ∨ d.mgmt.i3cAddress ≠ 0 → ∀ a, Answers (.entdaa a) s d) ∧
    (∀ tr id, tr = 1 ∨ tr = 2 →
      let up := d.boot.started = true ∧ (tr = 2 ∨ d.pcie.linkUp = true)
      let eid := if tr = 1 then d.mgmt.eidPcie else d.mgmt.eidI3c
      let reply (cmd code : Nat) (body : Bytes) (e : Dev) : Dev := { e with out := e.out ++
        [.mctp tr ([0, BitVec.ofNat 8 (id % 32), BitVec.ofNat 8 cmd, BitVec.ofNat 8 code] ++ body)] }
      (¬ up → (∀ op e, Answers (.setEndpointId tr id op e) s d) ∧ Answers (.getEndpointId tr id) s d ∧
        Answers (.getEndpointUuid tr id) s d ∧ (∀ t, Answers (.getMctpVersionSupport tr id t) s d) ∧
        Answers (.getMessageTypeSupport tr id) s d ∧ (∀ x, Answers (.getVendorDefinedMessageSupport tr id x) s d) ∧
        ∀ x msg, Answers (.spdmMessage tr x msg) s d ∧ Answers (.getMeasurements tr x msg) s d) ∧
      (up →
        (∀ op e, op % 4 ≤ 1 → 8 ≤ e → e ≤ 254 → Answers (.setEndpointId tr id op e) s (reply 1 0 [0, BitVec.ofNat 8 e, 0]
          (if tr = 1 then { d with mgmt.eidPcie := e } else { d with mgmt.eidI3c := e }))) ∧
        (∀ op e, op % 4 = 2 ∨ (op % 4 ≤ 1 ∧ (e < 8 ∨ 254 < e)) → Answers (.setEndpointId tr id op e) s (reply 1 2 [] d)) ∧
        (∀ op e, op % 4 = 3 → Answers (.setEndpointId tr id op e) s (reply 1 0 [0, BitVec.ofNat 8 eid, 0] d)) ∧
        Answers (.getEndpointId tr id) s (reply 2 0 [BitVec.ofNat 8 eid, 0, 0] d) ∧
        Answers (.getEndpointUuid tr id) s (reply 3 0 (leBytes 16 Config.deviceUuid) d) ∧
        (∀ t, t = 0 ∨ t = 5 ∨ t = 6 ∨ t = 0x7E ∨ t = 0xFF → Answers (.getMctpVersionSupport tr id t) s (reply 4 0
          (leBytes 1 (Config.mctpVersions t).length ++ (Config.mctpVersions t).flatMap fun v => leBytes 4 v.toNat) d)) ∧
        (∀ t, t ≠ 0 → t ≠ 5 → t ≠ 6 → t ≠ 0x7E → t ≠ 0xFF →
          Answers (.getMctpVersionSupport tr id t) s (reply 4 0x80 [] d)) ∧
        Answers (.getMessageTypeSupport tr id) s (reply 5 0 [3, 0x05, 0x06, 0x7E] d) ∧
        Answers (.getVendorDefinedMessageSupport tr id 0) s (reply 6 0
          ([0xFF, 0, 0x1F, 0x3A] ++ leBytes 2 (Config.freeValue d.freeUsed % 2 ^ 16)) { d with freeUsed := d.freeUsed + 1 }) ∧
        (∀ x, x ≠ 0 → Answers (.getVendorDefinedMessageSupport tr id x) s (reply 6 2 [] d)) ∧
        (∀ sec msg,
          let checked := sec = true ∨ fieldAt msg 1 1 = 0xE5 ∨ fieldAt msg 1 1 = 0xEB
          let told := emit (.mctp tr (leBytes 1 (if sec then 6 else 5) ++ Config.spdmAnswer d.freeUsed msg)) { d with freeUsed := d.freeUsed + 1 }
          let ended (e : Dev) : Dev := { e with mgmt.spdmSession := false, mgmt.diagnostic := false }
          (checked → Config.spdmAccepts d.freeUsed msg = false →
            Answers (.spdmMessage tr sec msg) s (raise 4 evSpdmFail (srcTransport tr) (ended told))) ∧
          (¬ checked ∨ Config.spdmAccepts d.freeUsed msg = true →
            (fieldAt msg 1 1 = 0xE5 → Answers (.spdmMessage tr sec msg) s { told with
              mgmt.spdmSession := true, mgmt.diagnostic := Config.spdmChainsToDiagnosticRoot (d.freeUsed + 1) msg }) ∧
            (fieldAt msg 1 1 = 0xEC → Answers (.spdmMessage tr sec msg) s (ended told)) ∧
            (fieldAt msg 1 1 ≠ 0xE5 → fieldAt msg 1 1 ≠ 0xEC → Answers (.spdmMessage tr sec msg) s told)) ∧
          (sec = true → Config.spdmAccepts d.freeUsed msg = false →
            Answers (.getMeasurements tr sec msg) s (raise 4 evSpdmFail (srcTransport tr) (ended told))) ∧
          (sec = false → fieldAt msg 0 1 = 0x12 ∨ fieldAt msg 0 1 = 0x13 → fieldAt msg 3 1 = 0 → bitOf (fieldAt msg 2 1) 0 = false →
            Answers (.getMeasurements tr sec msg) s { d with freeUsed := d.freeUsed + 2, out := d.out ++ [.mctp tr
              ([5, BitVec.ofNat 8 (fieldAt msg 0 1), 0x60, 5, 0, 0] ++ leBytes 3 0 ++
                leBytes 32 (Config.freeValue d.freeUsed % 2 ^ 256) ++ leBytes 2 0)] }))))

/-- For every command and every state: a step takes the command at the front and is exec of it on the state with the
queue's rest. On an empty queue a step lets one unit of 50 ps pass, which is the model's choice (log entry 2). -/
def Obligations.StepRuns : Prop :=
  (∀ (c : Instr) (rest : List Instr) (d : Dev), step { pending := c :: rest, dev := d } = exec c { pending := rest, dev := d }) ∧
  (∀ d : Dev, step { pending := [], dev := d } = .next { pending := [], dev := idleTime d } ∧ (idleTime d).now = d.now + 1)

/-- Every command completes at every state, with the queue as it was, or is refused at every state, which its operands
alone decide: no data, no state and no memory content ends a run. A step shortens the queue by the command it took. The
commands that name a tile, a reel, a counter, a tenant, a port, a lane or a transport that the part does not have are
refused (log entry 3), and those that name one it has complete. -/
def Obligations.OutcomeShape : Prop :=
  (∀ (c : Instr) (s : State), (c.wellFormed = true → Completes c s PinsSettled) ∧ (c.wellFormed = false → RefusesUnit c s)) ∧
  (∀ (s : State) (f : Fault), step s ≠ .fault f) ∧
  (∀ s s' : State, step s = .next s' → s'.pending = s.pending.drop 1) ∧
  (∀ (s : State) (n : Nat), let completes (c : Instr) : Prop := Completes c s (fun _ => True)
    (completes (.alu n) ↔ n < 128) ∧ (completes (.vectorFp32 n) ↔ n < 128) ∧ (completes (.tenantSwitch n) ↔ n < 128) ∧
    (completes (.nop n) ↔ n < 1152) ∧ (completes (.reelOpen n) ↔ n < 1152) ∧ (completes (.watchRelease n) ↔ n < 16384) ∧
    (completes (.guardBand n) ↔ n < 1024) ∧ (completes (.responseTimeout n) ↔ n < 16384) ∧
    (completes (.nakReceive n 0) ↔ n < 9) ∧ (completes (.getEndpointId n 0) ↔ n = 1 ∨ n = 2) ∧
    (completes (.tabingRead n 0 false []) ↔ n < 5) ∧ completes .localTick ∧ completes .mirrorCommit)

/-- R474 and R475: ALERT_L is driven low exactly while a thermal trip or another class 0x3 event holds it, outside minimal
mode and while VAON_1V8 is good, and FRAME_OUT is high in no state but ready. Whatever state with its pins so a step
begins in, every command, and the passing of time, leaves them so; and every command leaves them so whatever they were. -/
def Obligations.PinsInvariant : Prop :=
  (∀ s s' : State, PinsSettled s.dev → step s = .next s' → PinsSettled s'.dev) ∧
  (∀ (c : Instr) (s s' : State), exec c s = .next s' → PinsSettled s'.dev)

/-- R396: every dictionary entry reads its default; R387: the commit number counts from 1. Nothing waits, no tick is placed,
no run is present, no reel is open, no lease is held, no event is logged and the pins agree with the state. That every
tile register, counter and byte of memory reads 0 is the model's choice (log entry 4). -/
def Obligations.ResetState : Prop :=
  State.reset.pending = [] ∧
  (let d := State.reset.dev
   PinsSettled d ∧ (∀ idx sub, dictGet idx sub d = entryDefault idx sub) ∧
   dictGet 0x6000 1 d = 0xFFFFFFFF ∧ dictGet 0x6000 3 d = 512 ∧ dictGet 0x6000 4 d = 50 ∧ dictGet 0x6000 5 d = 1000 ∧
   dictGet 0x1200 3 d = 0x1E ∧ dictGet 0x2001 1 d = 4 ∧
   d.mgmt.commits = 0 ∧ d.mgmt.lease.role = 0 ∧ d.mgmt.shadow = [] ∧ d.mgmt.frozen = false ∧
   d.clk.placed = false ∧ d.ev.nextSeq = 0 ∧ d.ev.queue = [] ∧ d.boot.state = 0 ∧ d.twin.state = 0 ∧
   (∀ t, (getRun t d).present = false) ∧ (∀ r, (getReel r d).state = 0) ∧ (∀ p, (Sparse.get {} d.ports p).state = 0) ∧
   (∀ t r, readG t r d = 0) ∧ (∀ i, poolValue i d = 0) ∧ (∀ t i, localValue t i d = 0) ∧
   (∀ a, Mem.get d.mem.phys a = 0 ∧ Mem.get d.mem.imem a = 0 ∧ Mem.get d.mem.host a = 0))
end

