-- ==== Sys2Proof/Laws/Sparse.lean ====
section
/-!
SUPPORT. The laws of tables and of memories: a read after a write, and the canonical form, which every write
keeps.
-/
namespace Sys2Proof.Machine

variable {α : Type}

/-! ## A read after a write -/

@[simp] theorem Sparse.get_nil (dflt : α) (k : Nat) : Sparse.get dflt [] k = dflt := rfl

theorem Sparse.get_erase (dflt : α) (m : Table α) (k j : Nat) :
    Sparse.get dflt (Sparse.erase m k) j = if j = k then dflt else Sparse.get dflt m j := by
  induction m with
  | nil => simp [Sparse.erase]
  | cons p m ih =>
    obtain ⟨i, v⟩ := p
    by_cases hik : i = k <;> by_cases hij : i = j <;> simp_all [Sparse.erase, Sparse.get]

theorem Sparse.get_insert (dflt : α) (m : Table α) (k j : Nat) (v : α) :
    Sparse.get dflt (Sparse.insert m k v) j = if j = k then v else Sparse.get dflt m j := by
  induction m with
  | nil => simp [Sparse.insert, Sparse.get, eq_comm]
  | cons p m ih =>
    obtain ⟨i, w⟩ := p
    by_cases h1 : i = k
    · by_cases hj : j = i
      · simp [Sparse.insert, Sparse.get, h1, hj]
      · simp [Sparse.insert, Sparse.get, ← h1, hj, Ne.symm hj]
    · by_cases h2 : k < i
      · by_cases hj : j = k
        · simp [Sparse.insert, Sparse.get, h1, h2, hj]
        · simp [Sparse.insert, Sparse.get, h1, h2, hj, Ne.symm hj]
      · by_cases hj : i = j
        · subst hj; simp [Sparse.insert, Sparse.get, h1, h2]
        · simp [Sparse.insert, Sparse.get, h1, h2, hj, ih]

/-- A table read after a write: the item written, or what was there. -/
theorem Sparse.get_set [DecidableEq α] (dflt : α) (m : Table α) (k j : Nat) (v : α) :
    Sparse.get dflt (Sparse.set dflt m k v) j = if j = k then v else Sparse.get dflt m j := by
  unfold Sparse.set
  split
  · subst_vars; exact Sparse.get_erase v m k j
  · exact Sparse.get_insert dflt m k j v

@[simp] theorem Sparse.get_set_same [DecidableEq α] (dflt : α) (m : Table α) (k : Nat) (v : α) :
    Sparse.get dflt (Sparse.set dflt m k v) k = v := by simp [Sparse.get_set]

theorem Sparse.get_set_other [DecidableEq α] (dflt : α) (m : Table α) {k j : Nat} (v : α) (h : j ≠ k) :
    Sparse.get dflt (Sparse.set dflt m k v) j = Sparse.get dflt m j := by simp [Sparse.get_set, h]

@[simp] theorem Sparse.get_modify_same [DecidableEq α] (dflt : α) (m : Table α) (k : Nat) (f : α → α) :
    Sparse.get dflt (Sparse.modify dflt m k f) k = f (Sparse.get dflt m k) := by simp [Sparse.modify]

/-! ## The canonical form -/

theorem Sparse.wfFrom_weaken [DecidableEq α] {dflt : α} {m : Table α} {lo hi : Nat} (h : lo ≤ hi)
    (hm : Sparse.wfFrom dflt (some hi) m = true) : Sparse.wfFrom dflt (some lo) m = true := by
  cases m with
  | nil => rfl
  | cons p m =>
    obtain ⟨k, v⟩ := p
    simp only [Sparse.wfFrom, Bool.and_eq_true, decide_eq_true_eq] at hm ⊢
    exact ⟨⟨by omega, hm.1.2⟩, hm.2⟩

theorem Sparse.wfFrom_none [DecidableEq α] {dflt : α} {m : Table α} {lo : Option Nat}
    (hm : Sparse.wfFrom dflt lo m = true) : Sparse.wfFrom dflt none m = true := by
  cases m with
  | nil => rfl
  | cons p m => simp_all [Sparse.wfFrom]

/-- In the canonical form every listed number is above the bound. -/
theorem Sparse.lt_of_wfFrom [DecidableEq α] {dflt : α} {m : Table α} {lo k : Nat} {v : α}
    (hm : Sparse.wfFrom dflt (some lo) m = true) (hk : (k, v) ∈ m) : lo < k := by
  induction m generalizing lo with
  | nil => simp at hk
  | cons p m ih =>
    obtain ⟨i, w⟩ := p
    simp only [Sparse.wfFrom, Bool.and_eq_true, decide_eq_true_eq] at hm
    rcases List.mem_cons.1 hk with h | h
    · cases h; exact hm.1.1
    · exact Nat.lt_trans hm.1.1 (ih hm.2 h)

theorem Sparse.wfFrom_erase [DecidableEq α] {dflt : α} {m : Table α} {lo : Option Nat} (k : Nat)
    (hm : Sparse.wfFrom dflt lo m = true) : Sparse.wfFrom dflt lo (Sparse.erase m k) = true := by
  induction m generalizing lo with
  | nil => rfl
  | cons p m ih =>
    obtain ⟨i, w⟩ := p
    simp only [Sparse.wfFrom, Bool.and_eq_true] at hm
    simp only [Sparse.erase]
    split
    · cases lo with
      | none => exact Sparse.wfFrom_none (ih hm.2)
      | some l =>
        have hl : l < i := by simpa using hm.1.1
        exact Sparse.wfFrom_weaken (Nat.le_of_lt hl) (ih hm.2)
    · simp only [Sparse.wfFrom, Bool.and_eq_true]
      exact ⟨hm.1, ih hm.2⟩

theorem Sparse.wfFrom_insert [DecidableEq α] {dflt : α} {m : Table α} {lo : Option Nat} {k : Nat} {v : α}
    (hv : v ≠ dflt) (hlo : ∀ l, lo = some l → l < k) (hm : Sparse.wfFrom dflt lo m = true) :
    Sparse.wfFrom dflt lo (Sparse.insert m k v) = true := by
  induction m generalizing lo with
  | nil => cases lo <;> simp_all [Sparse.insert, Sparse.wfFrom]
  | cons p m ih =>
    obtain ⟨i, w⟩ := p
    simp only [Sparse.wfFrom, Bool.and_eq_true] at hm
    simp only [Sparse.insert]
    split
    · subst_vars; cases lo <;> simp_all [Sparse.wfFrom]
    · split
      · cases lo <;> simp_all [Sparse.wfFrom]
      · simp only [Sparse.wfFrom, Bool.and_eq_true]
        exact ⟨hm.1, ih (fun l h => by cases h; omega) hm.2⟩

/-- A write keeps the canonical form. -/
theorem Sparse.wf_set [DecidableEq α] {dflt : α} {m : Table α} (k : Nat) (v : α) (hm : Sparse.wf dflt m = true) :
    Sparse.wf dflt (Sparse.set dflt m k v) = true := by
  unfold Sparse.set
  split
  · exact Sparse.wfFrom_erase k hm
  · exact Sparse.wfFrom_insert ‹_› (by simp) hm

/-- Leaving items out keeps the canonical form. -/
theorem Sparse.wfFrom_filter [DecidableEq α] {dflt : α} {m : Table α} {lo : Option Nat} (f : Nat × α → Bool)
    (hm : Sparse.wfFrom dflt lo m = true) : Sparse.wfFrom dflt lo (m.filter f) = true := by
  induction m generalizing lo with
  | nil => rfl
  | cons p m ih =>
    obtain ⟨i, w⟩ := p
    simp only [Sparse.wfFrom, Bool.and_eq_true] at hm
    simp only [List.filter]
    split
    · simp only [Sparse.wfFrom, Bool.and_eq_true]; exact ⟨hm.1, ih hm.2⟩
    · cases lo with
      | none => exact Sparse.wfFrom_none (ih hm.2)
      | some l =>
        have hl : l < i := by simpa using hm.1.1
        exact Sparse.wfFrom_weaken (Nat.le_of_lt hl) (ih hm.2)

theorem Sparse.wf_filter [DecidableEq α] {dflt : α} {m : Table α} (f : Nat × α → Bool) (hm : Sparse.wf dflt m = true) :
    Sparse.wf dflt (m.filter f) = true := Sparse.wfFrom_filter f hm

/-- Two tables in the canonical form that read alike are equal data. -/
theorem Sparse.eq_of_get [DecidableEq α] {dflt : α} {m n : Table α} {lo : Option Nat}
    (hm : Sparse.wfFrom dflt lo m = true) (hn : Sparse.wfFrom dflt lo n = true)
    (h : ∀ k, Sparse.get dflt m k = Sparse.get dflt n k) : m = n := by
  have out : ∀ {t : Table α} {l k : Nat}, Sparse.wfFrom dflt (some l) t = true → k ≤ l → Sparse.get dflt t k = dflt := by
    intro t
    induction t with
    | nil => intros; rfl
    | cons p t ih =>
      intro l k ht hk
      obtain ⟨i, w⟩ := p
      simp only [Sparse.wfFrom, Bool.and_eq_true, decide_eq_true_eq] at ht
      simp only [Sparse.get]
      rw [if_neg (by omega), ih ht.2 (by omega)]
  induction m generalizing n lo with
  | nil =>
    cases n with
    | nil => rfl
    | cons q n =>
      obtain ⟨j, w⟩ := q
      have := h j
      simp_all [Sparse.wfFrom, Sparse.get]
  | cons p m ih =>
    obtain ⟨i, v⟩ := p
    simp only [Sparse.wfFrom, Bool.and_eq_true, decide_eq_true_eq] at hm
    cases n with
    | nil => have := h i; simp_all [Sparse.get]
    | cons q n =>
      obtain ⟨j, w⟩ := q
      simp only [Sparse.wfFrom, Bool.and_eq_true, decide_eq_true_eq] at hn
      have hij : i = j := by
        rcases Nat.lt_trichotomy i j with hl | he | hg
        · have := h i
          simp only [Sparse.get, if_true] at this
          rw [if_neg (by omega), out hn.2 (by omega)] at this
          exact absurd this hm.1.2
        · exact he
        · have := h j
          simp only [Sparse.get, if_true] at this
          rw [if_neg (by omega), out hm.2 (by omega)] at this
          exact absurd this.symm hn.1.2
      subst hij
      have hvw : v = w := by simpa [Sparse.get] using h i
      subst hvw
      have : m = n := by
        refine ih hm.2 hn.2 fun k => ?_
        by_cases hk : k ≤ i
        · rw [out hm.2 hk, out hn.2 hk]
        · simpa [Sparse.get, show ¬ i = k by omega] using h k
      rw [this]

/-! ## Memories -/

theorem Mem.get_set (m : Memory) (a b : Nat) (v : Byte) : Mem.get (Mem.set m a v) b = if b = a then v else Mem.get m b :=
  Sparse.get_set 0 m a b v

/-- A byte read after a write of bytes: one of them inside their range, what was there outside it. -/
theorem Mem.get_writeN (m : Memory) (a : Nat) (bs : Bytes) (b : Nat) :
    Mem.get (Mem.writeN m a bs) b = if a ≤ b ∧ b < a + bs.length then bs.getD (b - a) 0 else Mem.get m b := by
  induction bs generalizing m a with
  | nil => rw [if_neg (by simp only [List.length_nil]; omega)]; rfl
  | cons c cs ih =>
    rw [Mem.writeN, ih, Mem.get_set]
    by_cases h1 : a + 1 ≤ b ∧ b < a + 1 + cs.length
    · rw [if_pos h1, if_pos (by simp; omega), show b - a = (b - (a + 1)) + 1 by omega]; simp
    · rw [if_neg h1]
      by_cases h2 : b = a
      · subst h2; simp
      · rw [if_neg h2, if_neg (by simp; omega)]

/-- The bytes read from a place are what was written there. -/
theorem Mem.readN_eq (m : Memory) (a n : Nat) : Mem.readN m a n = (List.range n).map fun i => Mem.get m (a + i) := by
  induction n generalizing a with
  | zero => rfl
  | succ n ih =>
    rw [Mem.readN, ih, List.range_succ_eq_map]
    simp [Nat.add_assoc, Nat.add_comm 1]

theorem Mem.readN_writeN (m : Memory) (a : Nat) (bs : Bytes) : Mem.readN (Mem.writeN m a bs) a bs.length = bs := by
  rw [Mem.readN_eq]
  apply List.ext_getElem
  · simp
  · intro i h1 h2
    simp [Mem.get_writeN, h2]

@[simp] theorem Mem.length_readN (m : Memory) (a n : Nat) : (Mem.readN m a n).length = n := by simp [Mem.readN_eq]

/-- Every memory operation keeps the canonical form. -/
theorem Mem.wf_set {m : Memory} (a : Nat) (v : Byte) (h : Memory.wf m = true) : Memory.wf (Mem.set m a v) = true :=
  Sparse.wf_set a v h

theorem Mem.wf_writeN {m : Memory} (a : Nat) (bs : Bytes) (h : Memory.wf m = true) : Memory.wf (Mem.writeN m a bs) = true := by
  induction bs generalizing m a with
  | nil => exact h
  | cons b bs ih => exact ih (a + 1) (Mem.wf_set a b h)

theorem Mem.wf_filter {m : Memory} (f : Host.Cell → Bool) (h : Memory.wf m = true) : Memory.wf (m.filter f) = true :=
  Sparse.wf_filter f h

end Sys2Proof.Machine
end

