-- ==== Sys2Proof/Laws/State.lean ====
section
/-!
SUPPORT. Beside State: for each named update of the device, what it leaves, one lemma for each field.
-/
namespace Sys2Proof.Machine

variable (d : Dev)

@[simp] theorem passTime_freeUsed (n : Nat) : (passTime n d).freeUsed = d.freeUsed := rfl
@[simp] theorem passTime_ev (n : Nat) : (passTime n d).ev = d.ev := rfl
@[simp] theorem passTime_clk (n : Nat) : (passTime n d).clk = d.clk := rfl
@[simp] theorem passTime_runs (n : Nat) : (passTime n d).runs = d.runs := rfl
@[simp] theorem passTime_tiles (n : Nat) : (passTime n d).tiles = d.tiles := rfl
@[simp] theorem passTime_tcount (n : Nat) : (passTime n d).tcount = d.tcount := rfl
@[simp] theorem passTime_streams (n : Nat) : (passTime n d).streams = d.streams := rfl
@[simp] theorem passTime_chains (n : Nat) : (passTime n d).chains = d.chains := rfl
@[simp] theorem passTime_ctr (n : Nat) : (passTime n d).ctr = d.ctr := rfl
@[simp] theorem passTime_mem (n : Nat) : (passTime n d).mem = d.mem := rfl
@[simp] theorem passTime_pow (n : Nat) : (passTime n d).pow = d.pow := rfl
@[simp] theorem passTime_reels (n : Nat) : (passTime n d).reels = d.reels := rfl
@[simp] theorem passTime_reelLast (n : Nat) : (passTime n d).reelLast = d.reelLast := rfl
@[simp] theorem passTime_mgmt (n : Nat) : (passTime n d).mgmt = d.mgmt := rfl
@[simp] theorem passTime_net (n : Nat) : (passTime n d).net = d.net := rfl
@[simp] theorem passTime_rem (n : Nat) : (passTime n d).rem = d.rem := rfl
@[simp] theorem passTime_coll (n : Nat) : (passTime n d).coll = d.coll := rfl
@[simp] theorem passTime_twin (n : Nat) : (passTime n d).twin = d.twin := rfl
@[simp] theorem passTime_ports (n : Nat) : (passTime n d).ports = d.ports := rfl
@[simp] theorem passTime_obs (n : Nat) : (passTime n d).obs = d.obs := rfl
@[simp] theorem passTime_tobs (n : Nat) : (passTime n d).tobs = d.tobs := rfl
@[simp] theorem passTime_obsCounts (n : Nat) : (passTime n d).obsCounts = d.obsCounts := rfl
@[simp] theorem passTime_pcie (n : Nat) : (passTime n d).pcie = d.pcie := rfl
@[simp] theorem passTime_boot (n : Nat) : (passTime n d).boot = d.boot := rfl
@[simp] theorem passTime_pins (n : Nat) : (passTime n d).pins = d.pins := rfl
@[simp] theorem passTime_fatal (n : Nat) : (passTime n d).fatal = d.fatal := rfl
@[simp] theorem passTime_out (n : Nat) : (passTime n d).out = d.out := rfl

@[simp] theorem dictPut_now (i j v : Nat) : (dictPut i j v d).now = d.now := rfl
@[simp] theorem dictPut_freeUsed (i j v : Nat) : (dictPut i j v d).freeUsed = d.freeUsed := rfl
@[simp] theorem dictPut_ev (i j v : Nat) : (dictPut i j v d).ev = d.ev := rfl
@[simp] theorem dictPut_clk (i j v : Nat) : (dictPut i j v d).clk = d.clk := rfl
@[simp] theorem dictPut_runs (i j v : Nat) : (dictPut i j v d).runs = d.runs := rfl
@[simp] theorem dictPut_tiles (i j v : Nat) : (dictPut i j v d).tiles = d.tiles := rfl
@[simp] theorem dictPut_tcount (i j v : Nat) : (dictPut i j v d).tcount = d.tcount := rfl
@[simp] theorem dictPut_streams (i j v : Nat) : (dictPut i j v d).streams = d.streams := rfl
@[simp] theorem dictPut_chains (i j v : Nat) : (dictPut i j v d).chains = d.chains := rfl
@[simp] theorem dictPut_ctr (i j v : Nat) : (dictPut i j v d).ctr = d.ctr := rfl
@[simp] theorem dictPut_mem (i j v : Nat) : (dictPut i j v d).mem = d.mem := rfl
@[simp] theorem dictPut_pow (i j v : Nat) : (dictPut i j v d).pow = d.pow := rfl
@[simp] theorem dictPut_reels (i j v : Nat) : (dictPut i j v d).reels = d.reels := rfl
@[simp] theorem dictPut_reelLast (i j v : Nat) : (dictPut i j v d).reelLast = d.reelLast := rfl
@[simp] theorem dictPut_net (i j v : Nat) : (dictPut i j v d).net = d.net := rfl
@[simp] theorem dictPut_rem (i j v : Nat) : (dictPut i j v d).rem = d.rem := rfl
@[simp] theorem dictPut_coll (i j v : Nat) : (dictPut i j v d).coll = d.coll := rfl
@[simp] theorem dictPut_twin (i j v : Nat) : (dictPut i j v d).twin = d.twin := rfl
@[simp] theorem dictPut_ports (i j v : Nat) : (dictPut i j v d).ports = d.ports := rfl
@[simp] theorem dictPut_obs (i j v : Nat) : (dictPut i j v d).obs = d.obs := rfl
@[simp] theorem dictPut_tobs (i j v : Nat) : (dictPut i j v d).tobs = d.tobs := rfl
@[simp] theorem dictPut_obsCounts (i j v : Nat) : (dictPut i j v d).obsCounts = d.obsCounts := rfl
@[simp] theorem dictPut_pcie (i j v : Nat) : (dictPut i j v d).pcie = d.pcie := rfl
@[simp] theorem dictPut_boot (i j v : Nat) : (dictPut i j v d).boot = d.boot := rfl
@[simp] theorem dictPut_pins (i j v : Nat) : (dictPut i j v d).pins = d.pins := rfl
@[simp] theorem dictPut_fatal (i j v : Nat) : (dictPut i j v d).fatal = d.fatal := rfl
@[simp] theorem dictPut_out (i j v : Nat) : (dictPut i j v d).out = d.out := rfl

@[simp] theorem dictClear_now (i j : Nat) : (dictClear i j d).now = d.now := rfl
@[simp] theorem dictClear_freeUsed (i j : Nat) : (dictClear i j d).freeUsed = d.freeUsed := rfl
@[simp] theorem dictClear_ev (i j : Nat) : (dictClear i j d).ev = d.ev := rfl
@[simp] theorem dictClear_clk (i j : Nat) : (dictClear i j d).clk = d.clk := rfl
@[simp] theorem dictClear_runs (i j : Nat) : (dictClear i j d).runs = d.runs := rfl
@[simp] theorem dictClear_tiles (i j : Nat) : (dictClear i j d).tiles = d.tiles := rfl
@[simp] theorem dictClear_tcount (i j : Nat) : (dictClear i j d).tcount = d.tcount := rfl
@[simp] theorem dictClear_streams (i j : Nat) : (dictClear i j d).streams = d.streams := rfl
@[simp] theorem dictClear_chains (i j : Nat) : (dictClear i j d).chains = d.chains := rfl
@[simp] theorem dictClear_ctr (i j : Nat) : (dictClear i j d).ctr = d.ctr := rfl
@[simp] theorem dictClear_mem (i j : Nat) : (dictClear i j d).mem = d.mem := rfl
@[simp] theorem dictClear_pow (i j : Nat) : (dictClear i j d).pow = d.pow := rfl
@[simp] theorem dictClear_reels (i j : Nat) : (dictClear i j d).reels = d.reels := rfl
@[simp] theorem dictClear_reelLast (i j : Nat) : (dictClear i j d).reelLast = d.reelLast := rfl
@[simp] theorem dictClear_net (i j : Nat) : (dictClear i j d).net = d.net := rfl
@[simp] theorem dictClear_rem (i j : Nat) : (dictClear i j d).rem = d.rem := rfl
@[simp] theorem dictClear_coll (i j : Nat) : (dictClear i j d).coll = d.coll := rfl
@[simp] theorem dictClear_twin (i j : Nat) : (dictClear i j d).twin = d.twin := rfl
@[simp] theorem dictClear_ports (i j : Nat) : (dictClear i j d).ports = d.ports := rfl
@[simp] theorem dictClear_obs (i j : Nat) : (dictClear i j d).obs = d.obs := rfl
@[simp] theorem dictClear_tobs (i j : Nat) : (dictClear i j d).tobs = d.tobs := rfl
@[simp] theorem dictClear_obsCounts (i j : Nat) : (dictClear i j d).obsCounts = d.obsCounts := rfl
@[simp] theorem dictClear_pcie (i j : Nat) : (dictClear i j d).pcie = d.pcie := rfl
@[simp] theorem dictClear_boot (i j : Nat) : (dictClear i j d).boot = d.boot := rfl
@[simp] theorem dictClear_pins (i j : Nat) : (dictClear i j d).pins = d.pins := rfl
@[simp] theorem dictClear_fatal (i j : Nat) : (dictClear i j d).fatal = d.fatal := rfl
@[simp] theorem dictClear_out (i j : Nat) : (dictClear i j d).out = d.out := rfl

@[simp] theorem setRun_now (t : Nat) (r : Run) : (setRun t r d).now = d.now := rfl
@[simp] theorem setRun_freeUsed (t : Nat) (r : Run) : (setRun t r d).freeUsed = d.freeUsed := rfl
@[simp] theorem setRun_ev (t : Nat) (r : Run) : (setRun t r d).ev = d.ev := rfl
@[simp] theorem setRun_clk (t : Nat) (r : Run) : (setRun t r d).clk = d.clk := rfl
@[simp] theorem setRun_tiles (t : Nat) (r : Run) : (setRun t r d).tiles = d.tiles := rfl
@[simp] theorem setRun_tcount (t : Nat) (r : Run) : (setRun t r d).tcount = d.tcount := rfl
@[simp] theorem setRun_streams (t : Nat) (r : Run) : (setRun t r d).streams = d.streams := rfl
@[simp] theorem setRun_chains (t : Nat) (r : Run) : (setRun t r d).chains = d.chains := rfl
@[simp] theorem setRun_ctr (t : Nat) (r : Run) : (setRun t r d).ctr = d.ctr := rfl
@[simp] theorem setRun_mem (t : Nat) (r : Run) : (setRun t r d).mem = d.mem := rfl
@[simp] theorem setRun_pow (t : Nat) (r : Run) : (setRun t r d).pow = d.pow := rfl
@[simp] theorem setRun_reels (t : Nat) (r : Run) : (setRun t r d).reels = d.reels := rfl
@[simp] theorem setRun_reelLast (t : Nat) (r : Run) : (setRun t r d).reelLast = d.reelLast := rfl
@[simp] theorem setRun_mgmt (t : Nat) (r : Run) : (setRun t r d).mgmt = d.mgmt := rfl
@[simp] theorem setRun_net (t : Nat) (r : Run) : (setRun t r d).net = d.net := rfl
@[simp] theorem setRun_rem (t : Nat) (r : Run) : (setRun t r d).rem = d.rem := rfl
@[simp] theorem setRun_coll (t : Nat) (r : Run) : (setRun t r d).coll = d.coll := rfl
@[simp] theorem setRun_twin (t : Nat) (r : Run) : (setRun t r d).twin = d.twin := rfl
@[simp] theorem setRun_ports (t : Nat) (r : Run) : (setRun t r d).ports = d.ports := rfl
@[simp] theorem setRun_obs (t : Nat) (r : Run) : (setRun t r d).obs = d.obs := rfl
@[simp] theorem setRun_tobs (t : Nat) (r : Run) : (setRun t r d).tobs = d.tobs := rfl
@[simp] theorem setRun_obsCounts (t : Nat) (r : Run) : (setRun t r d).obsCounts = d.obsCounts := rfl
@[simp] theorem setRun_pcie (t : Nat) (r : Run) : (setRun t r d).pcie = d.pcie := rfl
@[simp] theorem setRun_boot (t : Nat) (r : Run) : (setRun t r d).boot = d.boot := rfl
@[simp] theorem setRun_pins (t : Nat) (r : Run) : (setRun t r d).pins = d.pins := rfl
@[simp] theorem setRun_fatal (t : Nat) (r : Run) : (setRun t r d).fatal = d.fatal := rfl
@[simp] theorem setRun_out (t : Nat) (r : Run) : (setRun t r d).out = d.out := rfl

@[simp] theorem modRun_now (t : Nat) (f : Run → Run) : (modRun t f d).now = d.now := rfl
@[simp] theorem modRun_freeUsed (t : Nat) (f : Run → Run) : (modRun t f d).freeUsed = d.freeUsed := rfl
@[simp] theorem modRun_ev (t : Nat) (f : Run → Run) : (modRun t f d).ev = d.ev := rfl
@[simp] theorem modRun_clk (t : Nat) (f : Run → Run) : (modRun t f d).clk = d.clk := rfl
@[simp] theorem modRun_tiles (t : Nat) (f : Run → Run) : (modRun t f d).tiles = d.tiles := rfl
@[simp] theorem modRun_tcount (t : Nat) (f : Run → Run) : (modRun t f d).tcount = d.tcount := rfl
@[simp] theorem modRun_streams (t : Nat) (f : Run → Run) : (modRun t f d).streams = d.streams := rfl
@[simp] theorem modRun_chains (t : Nat) (f : Run → Run) : (modRun t f d).chains = d.chains := rfl
@[simp] theorem modRun_ctr (t : Nat) (f : Run → Run) : (modRun t f d).ctr = d.ctr := rfl
@[simp] theorem modRun_mem (t : Nat) (f : Run → Run) : (modRun t f d).mem = d.mem := rfl
@[simp] theorem modRun_pow (t : Nat) (f : Run → Run) : (modRun t f d).pow = d.pow := rfl
@[simp] theorem modRun_reels (t : Nat) (f : Run → Run) : (modRun t f d).reels = d.reels := rfl
@[simp] theorem modRun_reelLast (t : Nat) (f : Run → Run) : (modRun t f d).reelLast = d.reelLast := rfl
@[simp] theorem modRun_mgmt (t : Nat) (f : Run → Run) : (modRun t f d).mgmt = d.mgmt := rfl
@[simp] theorem modRun_net (t : Nat) (f : Run → Run) : (modRun t f d).net = d.net := rfl
@[simp] theorem modRun_rem (t : Nat) (f : Run → Run) : (modRun t f d).rem = d.rem := rfl
@[simp] theorem modRun_coll (t : Nat) (f : Run → Run) : (modRun t f d).coll = d.coll := rfl
@[simp] theorem modRun_twin (t : Nat) (f : Run → Run) : (modRun t f d).twin = d.twin := rfl
@[simp] theorem modRun_ports (t : Nat) (f : Run → Run) : (modRun t f d).ports = d.ports := rfl
@[simp] theorem modRun_obs (t : Nat) (f : Run → Run) : (modRun t f d).obs = d.obs := rfl
@[simp] theorem modRun_tobs (t : Nat) (f : Run → Run) : (modRun t f d).tobs = d.tobs := rfl
@[simp] theorem modRun_obsCounts (t : Nat) (f : Run → Run) : (modRun t f d).obsCounts = d.obsCounts := rfl
@[simp] theorem modRun_pcie (t : Nat) (f : Run → Run) : (modRun t f d).pcie = d.pcie := rfl
@[simp] theorem modRun_boot (t : Nat) (f : Run → Run) : (modRun t f d).boot = d.boot := rfl
@[simp] theorem modRun_pins (t : Nat) (f : Run → Run) : (modRun t f d).pins = d.pins := rfl
@[simp] theorem modRun_fatal (t : Nat) (f : Run → Run) : (modRun t f d).fatal = d.fatal := rfl
@[simp] theorem modRun_out (t : Nat) (f : Run → Run) : (modRun t f d).out = d.out := rfl

@[simp] theorem setTile_now (t : Nat) (x : Tile) : (setTile t x d).now = d.now := rfl
@[simp] theorem setTile_freeUsed (t : Nat) (x : Tile) : (setTile t x d).freeUsed = d.freeUsed := rfl
@[simp] theorem setTile_ev (t : Nat) (x : Tile) : (setTile t x d).ev = d.ev := rfl
@[simp] theorem setTile_clk (t : Nat) (x : Tile) : (setTile t x d).clk = d.clk := rfl
@[simp] theorem setTile_runs (t : Nat) (x : Tile) : (setTile t x d).runs = d.runs := rfl
@[simp] theorem setTile_tcount (t : Nat) (x : Tile) : (setTile t x d).tcount = d.tcount := rfl
@[simp] theorem setTile_streams (t : Nat) (x : Tile) : (setTile t x d).streams = d.streams := rfl
@[simp] theorem setTile_chains (t : Nat) (x : Tile) : (setTile t x d).chains = d.chains := rfl
@[simp] theorem setTile_ctr (t : Nat) (x : Tile) : (setTile t x d).ctr = d.ctr := rfl
@[simp] theorem setTile_mem (t : Nat) (x : Tile) : (setTile t x d).mem = d.mem := rfl
@[simp] theorem setTile_pow (t : Nat) (x : Tile) : (setTile t x d).pow = d.pow := rfl
@[simp] theorem setTile_reels (t : Nat) (x : Tile) : (setTile t x d).reels = d.reels := rfl
@[simp] theorem setTile_reelLast (t : Nat) (x : Tile) : (setTile t x d).reelLast = d.reelLast := rfl
@[simp] theorem setTile_mgmt (t : Nat) (x : Tile) : (setTile t x d).mgmt = d.mgmt := rfl
@[simp] theorem setTile_net (t : Nat) (x : Tile) : (setTile t x d).net = d.net := rfl
@[simp] theorem setTile_rem (t : Nat) (x : Tile) : (setTile t x d).rem = d.rem := rfl
@[simp] theorem setTile_coll (t : Nat) (x : Tile) : (setTile t x d).coll = d.coll := rfl
@[simp] theorem setTile_twin (t : Nat) (x : Tile) : (setTile t x d).twin = d.twin := rfl
@[simp] theorem setTile_ports (t : Nat) (x : Tile) : (setTile t x d).ports = d.ports := rfl
@[simp] theorem setTile_obs (t : Nat) (x : Tile) : (setTile t x d).obs = d.obs := rfl
@[simp] theorem setTile_tobs (t : Nat) (x : Tile) : (setTile t x d).tobs = d.tobs := rfl
@[simp] theorem setTile_obsCounts (t : Nat) (x : Tile) : (setTile t x d).obsCounts = d.obsCounts := rfl
@[simp] theorem setTile_pcie (t : Nat) (x : Tile) : (setTile t x d).pcie = d.pcie := rfl
@[simp] theorem setTile_boot (t : Nat) (x : Tile) : (setTile t x d).boot = d.boot := rfl
@[simp] theorem setTile_pins (t : Nat) (x : Tile) : (setTile t x d).pins = d.pins := rfl
@[simp] theorem setTile_fatal (t : Nat) (x : Tile) : (setTile t x d).fatal = d.fatal := rfl
@[simp] theorem setTile_out (t : Nat) (x : Tile) : (setTile t x d).out = d.out := rfl

@[simp] theorem modTile_now (t : Nat) (f : Tile → Tile) : (modTile t f d).now = d.now := rfl
@[simp] theorem modTile_freeUsed (t : Nat) (f : Tile → Tile) : (modTile t f d).freeUsed = d.freeUsed := rfl
@[simp] theorem modTile_ev (t : Nat) (f : Tile → Tile) : (modTile t f d).ev = d.ev := rfl
@[simp] theorem modTile_clk (t : Nat) (f : Tile → Tile) : (modTile t f d).clk = d.clk := rfl
@[simp] theorem modTile_runs (t : Nat) (f : Tile → Tile) : (modTile t f d).runs = d.runs := rfl
@[simp] theorem modTile_tcount (t : Nat) (f : Tile → Tile) : (modTile t f d).tcount = d.tcount := rfl
@[simp] theorem modTile_streams (t : Nat) (f : Tile → Tile) : (modTile t f d).streams = d.streams := rfl
@[simp] theorem modTile_chains (t : Nat) (f : Tile → Tile) : (modTile t f d).chains = d.chains := rfl
@[simp] theorem modTile_ctr (t : Nat) (f : Tile → Tile) : (modTile t f d).ctr = d.ctr := rfl
@[simp] theorem modTile_mem (t : Nat) (f : Tile → Tile) : (modTile t f d).mem = d.mem := rfl
@[simp] theorem modTile_pow (t : Nat) (f : Tile → Tile) : (modTile t f d).pow = d.pow := rfl
@[simp] theorem modTile_reels (t : Nat) (f : Tile → Tile) : (modTile t f d).reels = d.reels := rfl
@[simp] theorem modTile_reelLast (t : Nat) (f : Tile → Tile) : (modTile t f d).reelLast = d.reelLast := rfl
@[simp] theorem modTile_mgmt (t : Nat) (f : Tile → Tile) : (modTile t f d).mgmt = d.mgmt := rfl
@[simp] theorem modTile_net (t : Nat) (f : Tile → Tile) : (modTile t f d).net = d.net := rfl
@[simp] theorem modTile_rem (t : Nat) (f : Tile → Tile) : (modTile t f d).rem = d.rem := rfl
@[simp] theorem modTile_coll (t : Nat) (f : Tile → Tile) : (modTile t f d).coll = d.coll := rfl
@[simp] theorem modTile_twin (t : Nat) (f : Tile → Tile) : (modTile t f d).twin = d.twin := rfl
@[simp] theorem modTile_ports (t : Nat) (f : Tile → Tile) : (modTile t f d).ports = d.ports := rfl
@[simp] theorem modTile_obs (t : Nat) (f : Tile → Tile) : (modTile t f d).obs = d.obs := rfl
@[simp] theorem modTile_tobs (t : Nat) (f : Tile → Tile) : (modTile t f d).tobs = d.tobs := rfl
@[simp] theorem modTile_obsCounts (t : Nat) (f : Tile → Tile) : (modTile t f d).obsCounts = d.obsCounts := rfl
@[simp] theorem modTile_pcie (t : Nat) (f : Tile → Tile) : (modTile t f d).pcie = d.pcie := rfl
@[simp] theorem modTile_boot (t : Nat) (f : Tile → Tile) : (modTile t f d).boot = d.boot := rfl
@[simp] theorem modTile_pins (t : Nat) (f : Tile → Tile) : (modTile t f d).pins = d.pins := rfl
@[simp] theorem modTile_fatal (t : Nat) (f : Tile → Tile) : (modTile t f d).fatal = d.fatal := rfl
@[simp] theorem modTile_out (t : Nat) (f : Tile → Tile) : (modTile t f d).out = d.out := rfl

@[simp] theorem modTCount_now (t : Nat) (f : TileCounts → TileCounts) : (modTCount t f d).now = d.now := rfl
@[simp] theorem modTCount_freeUsed (t : Nat) (f : TileCounts → TileCounts) : (modTCount t f d).freeUsed = d.freeUsed := rfl
@[simp] theorem modTCount_ev (t : Nat) (f : TileCounts → TileCounts) : (modTCount t f d).ev = d.ev := rfl
@[simp] theorem modTCount_clk (t : Nat) (f : TileCounts → TileCounts) : (modTCount t f d).clk = d.clk := rfl
@[simp] theorem modTCount_runs (t : Nat) (f : TileCounts → TileCounts) : (modTCount t f d).runs = d.runs := rfl
@[simp] theorem modTCount_tiles (t : Nat) (f : TileCounts → TileCounts) : (modTCount t f d).tiles = d.tiles := rfl
@[simp] theorem modTCount_streams (t : Nat) (f : TileCounts → TileCounts) : (modTCount t f d).streams = d.streams := rfl
@[simp] theorem modTCount_chains (t : Nat) (f : TileCounts → TileCounts) : (modTCount t f d).chains = d.chains := rfl
@[simp] theorem modTCount_ctr (t : Nat) (f : TileCounts → TileCounts) : (modTCount t f d).ctr = d.ctr := rfl
@[simp] theorem modTCount_mem (t : Nat) (f : TileCounts → TileCounts) : (modTCount t f d).mem = d.mem := rfl
@[simp] theorem modTCount_pow (t : Nat) (f : TileCounts → TileCounts) : (modTCount t f d).pow = d.pow := rfl
@[simp] theorem modTCount_reels (t : Nat) (f : TileCounts → TileCounts) : (modTCount t f d).reels = d.reels := rfl
@[simp] theorem modTCount_reelLast (t : Nat) (f : TileCounts → TileCounts) : (modTCount t f d).reelLast = d.reelLast := rfl
@[simp] theorem modTCount_mgmt (t : Nat) (f : TileCounts → TileCounts) : (modTCount t f d).mgmt = d.mgmt := rfl
@[simp] theorem modTCount_net (t : Nat) (f : TileCounts → TileCounts) : (modTCount t f d).net = d.net := rfl
@[simp] theorem modTCount_rem (t : Nat) (f : TileCounts → TileCounts) : (modTCount t f d).rem = d.rem := rfl
@[simp] theorem modTCount_coll (t : Nat) (f : TileCounts → TileCounts) : (modTCount t f d).coll = d.coll := rfl
@[simp] theorem modTCount_twin (t : Nat) (f : TileCounts → TileCounts) : (modTCount t f d).twin = d.twin := rfl
@[simp] theorem modTCount_ports (t : Nat) (f : TileCounts → TileCounts) : (modTCount t f d).ports = d.ports := rfl
@[simp] theorem modTCount_obs (t : Nat) (f : TileCounts → TileCounts) : (modTCount t f d).obs = d.obs := rfl
@[simp] theorem modTCount_tobs (t : Nat) (f : TileCounts → TileCounts) : (modTCount t f d).tobs = d.tobs := rfl
@[simp] theorem modTCount_obsCounts (t : Nat) (f : TileCounts → TileCounts) : (modTCount t f d).obsCounts = d.obsCounts := rfl
@[simp] theorem modTCount_pcie (t : Nat) (f : TileCounts → TileCounts) : (modTCount t f d).pcie = d.pcie := rfl
@[simp] theorem modTCount_boot (t : Nat) (f : TileCounts → TileCounts) : (modTCount t f d).boot = d.boot := rfl
@[simp] theorem modTCount_pins (t : Nat) (f : TileCounts → TileCounts) : (modTCount t f d).pins = d.pins := rfl
@[simp] theorem modTCount_fatal (t : Nat) (f : TileCounts → TileCounts) : (modTCount t f d).fatal = d.fatal := rfl
@[simp] theorem modTCount_out (t : Nat) (f : TileCounts → TileCounts) : (modTCount t f d).out = d.out := rfl

@[simp] theorem setReel_now (r : Nat) (x : Reel) : (setReel r x d).now = d.now := rfl
@[simp] theorem setReel_freeUsed (r : Nat) (x : Reel) : (setReel r x d).freeUsed = d.freeUsed := rfl
@[simp] theorem setReel_ev (r : Nat) (x : Reel) : (setReel r x d).ev = d.ev := rfl
@[simp] theorem setReel_clk (r : Nat) (x : Reel) : (setReel r x d).clk = d.clk := rfl
@[simp] theorem setReel_runs (r : Nat) (x : Reel) : (setReel r x d).runs = d.runs := rfl
@[simp] theorem setReel_tiles (r : Nat) (x : Reel) : (setReel r x d).tiles = d.tiles := rfl
@[simp] theorem setReel_tcount (r : Nat) (x : Reel) : (setReel r x d).tcount = d.tcount := rfl
@[simp] theorem setReel_streams (r : Nat) (x : Reel) : (setReel r x d).streams = d.streams := rfl
@[simp] theorem setReel_chains (r : Nat) (x : Reel) : (setReel r x d).chains = d.chains := rfl
@[simp] theorem setReel_ctr (r : Nat) (x : Reel) : (setReel r x d).ctr = d.ctr := rfl
@[simp] theorem setReel_mem (r : Nat) (x : Reel) : (setReel r x d).mem = d.mem := rfl
@[simp] theorem setReel_pow (r : Nat) (x : Reel) : (setReel r x d).pow = d.pow := rfl
@[simp] theorem setReel_reelLast (r : Nat) (x : Reel) : (setReel r x d).reelLast = d.reelLast := rfl
@[simp] theorem setReel_mgmt (r : Nat) (x : Reel) : (setReel r x d).mgmt = d.mgmt := rfl
@[simp] theorem setReel_net (r : Nat) (x : Reel) : (setReel r x d).net = d.net := rfl
@[simp] theorem setReel_rem (r : Nat) (x : Reel) : (setReel r x d).rem = d.rem := rfl
@[simp] theorem setReel_coll (r : Nat) (x : Reel) : (setReel r x d).coll = d.coll := rfl
@[simp] theorem setReel_twin (r : Nat) (x : Reel) : (setReel r x d).twin = d.twin := rfl
@[simp] theorem setReel_ports (r : Nat) (x : Reel) : (setReel r x d).ports = d.ports := rfl
@[simp] theorem setReel_obs (r : Nat) (x : Reel) : (setReel r x d).obs = d.obs := rfl
@[simp] theorem setReel_tobs (r : Nat) (x : Reel) : (setReel r x d).tobs = d.tobs := rfl
@[simp] theorem setReel_obsCounts (r : Nat) (x : Reel) : (setReel r x d).obsCounts = d.obsCounts := rfl
@[simp] theorem setReel_pcie (r : Nat) (x : Reel) : (setReel r x d).pcie = d.pcie := rfl
@[simp] theorem setReel_boot (r : Nat) (x : Reel) : (setReel r x d).boot = d.boot := rfl
@[simp] theorem setReel_pins (r : Nat) (x : Reel) : (setReel r x d).pins = d.pins := rfl
@[simp] theorem setReel_fatal (r : Nat) (x : Reel) : (setReel r x d).fatal = d.fatal := rfl
@[simp] theorem setReel_out (r : Nat) (x : Reel) : (setReel r x d).out = d.out := rfl

@[simp] theorem modReel_now (r : Nat) (f : Reel → Reel) : (modReel r f d).now = d.now := rfl
@[simp] theorem modReel_freeUsed (r : Nat) (f : Reel → Reel) : (modReel r f d).freeUsed = d.freeUsed := rfl
@[simp] theorem modReel_ev (r : Nat) (f : Reel → Reel) : (modReel r f d).ev = d.ev := rfl
@[simp] theorem modReel_clk (r : Nat) (f : Reel → Reel) : (modReel r f d).clk = d.clk := rfl
@[simp] theorem modReel_runs (r : Nat) (f : Reel → Reel) : (modReel r f d).runs = d.runs := rfl
@[simp] theorem modReel_tiles (r : Nat) (f : Reel → Reel) : (modReel r f d).tiles = d.tiles := rfl
@[simp] theorem modReel_tcount (r : Nat) (f : Reel → Reel) : (modReel r f d).tcount = d.tcount := rfl
@[simp] theorem modReel_streams (r : Nat) (f : Reel → Reel) : (modReel r f d).streams = d.streams := rfl
@[simp] theorem modReel_chains (r : Nat) (f : Reel → Reel) : (modReel r f d).chains = d.chains := rfl
@[simp] theorem modReel_ctr (r : Nat) (f : Reel → Reel) : (modReel r f d).ctr = d.ctr := rfl
@[simp] theorem modReel_mem (r : Nat) (f : Reel → Reel) : (modReel r f d).mem = d.mem := rfl
@[simp] theorem modReel_pow (r : Nat) (f : Reel → Reel) : (modReel r f d).pow = d.pow := rfl
@[simp] theorem modReel_reelLast (r : Nat) (f : Reel → Reel) : (modReel r f d).reelLast = d.reelLast := rfl
@[simp] theorem modReel_mgmt (r : Nat) (f : Reel → Reel) : (modReel r f d).mgmt = d.mgmt := rfl
@[simp] theorem modReel_net (r : Nat) (f : Reel → Reel) : (modReel r f d).net = d.net := rfl
@[simp] theorem modReel_rem (r : Nat) (f : Reel → Reel) : (modReel r f d).rem = d.rem := rfl
@[simp] theorem modReel_coll (r : Nat) (f : Reel → Reel) : (modReel r f d).coll = d.coll := rfl
@[simp] theorem modReel_twin (r : Nat) (f : Reel → Reel) : (modReel r f d).twin = d.twin := rfl
@[simp] theorem modReel_ports (r : Nat) (f : Reel → Reel) : (modReel r f d).ports = d.ports := rfl
@[simp] theorem modReel_obs (r : Nat) (f : Reel → Reel) : (modReel r f d).obs = d.obs := rfl
@[simp] theorem modReel_tobs (r : Nat) (f : Reel → Reel) : (modReel r f d).tobs = d.tobs := rfl
@[simp] theorem modReel_obsCounts (r : Nat) (f : Reel → Reel) : (modReel r f d).obsCounts = d.obsCounts := rfl
@[simp] theorem modReel_pcie (r : Nat) (f : Reel → Reel) : (modReel r f d).pcie = d.pcie := rfl
@[simp] theorem modReel_boot (r : Nat) (f : Reel → Reel) : (modReel r f d).boot = d.boot := rfl
@[simp] theorem modReel_pins (r : Nat) (f : Reel → Reel) : (modReel r f d).pins = d.pins := rfl
@[simp] theorem modReel_fatal (r : Nat) (f : Reel → Reel) : (modReel r f d).fatal = d.fatal := rfl
@[simp] theorem modReel_out (r : Nat) (f : Reel → Reel) : (modReel r f d).out = d.out := rfl

@[simp] theorem emit_now (o : Out) : (emit o d).now = d.now := rfl
@[simp] theorem emit_freeUsed (o : Out) : (emit o d).freeUsed = d.freeUsed := rfl
@[simp] theorem emit_ev (o : Out) : (emit o d).ev = d.ev := rfl
@[simp] theorem emit_clk (o : Out) : (emit o d).clk = d.clk := rfl
@[simp] theorem emit_runs (o : Out) : (emit o d).runs = d.runs := rfl
@[simp] theorem emit_tiles (o : Out) : (emit o d).tiles = d.tiles := rfl
@[simp] theorem emit_tcount (o : Out) : (emit o d).tcount = d.tcount := rfl
@[simp] theorem emit_streams (o : Out) : (emit o d).streams = d.streams := rfl
@[simp] theorem emit_chains (o : Out) : (emit o d).chains = d.chains := rfl
@[simp] theorem emit_ctr (o : Out) : (emit o d).ctr = d.ctr := rfl
@[simp] theorem emit_mem (o : Out) : (emit o d).mem = d.mem := rfl
@[simp] theorem emit_pow (o : Out) : (emit o d).pow = d.pow := rfl
@[simp] theorem emit_reels (o : Out) : (emit o d).reels = d.reels := rfl
@[simp] theorem emit_reelLast (o : Out) : (emit o d).reelLast = d.reelLast := rfl
@[simp] theorem emit_mgmt (o : Out) : (emit o d).mgmt = d.mgmt := rfl
@[simp] theorem emit_net (o : Out) : (emit o d).net = d.net := rfl
@[simp] theorem emit_rem (o : Out) : (emit o d).rem = d.rem := rfl
@[simp] theorem emit_coll (o : Out) : (emit o d).coll = d.coll := rfl
@[simp] theorem emit_twin (o : Out) : (emit o d).twin = d.twin := rfl
@[simp] theorem emit_ports (o : Out) : (emit o d).ports = d.ports := rfl
@[simp] theorem emit_obs (o : Out) : (emit o d).obs = d.obs := rfl
@[simp] theorem emit_tobs (o : Out) : (emit o d).tobs = d.tobs := rfl
@[simp] theorem emit_obsCounts (o : Out) : (emit o d).obsCounts = d.obsCounts := rfl
@[simp] theorem emit_pcie (o : Out) : (emit o d).pcie = d.pcie := rfl
@[simp] theorem emit_boot (o : Out) : (emit o d).boot = d.boot := rfl
@[simp] theorem emit_pins (o : Out) : (emit o d).pins = d.pins := rfl
@[simp] theorem emit_fatal (o : Out) : (emit o d).fatal = d.fatal := rfl

@[simp] theorem bumpQueue_now (n k : Nat) : (bumpQueue n k d).now = d.now := rfl
@[simp] theorem bumpQueue_freeUsed (n k : Nat) : (bumpQueue n k d).freeUsed = d.freeUsed := rfl
@[simp] theorem bumpQueue_ev (n k : Nat) : (bumpQueue n k d).ev = d.ev := rfl
@[simp] theorem bumpQueue_clk (n k : Nat) : (bumpQueue n k d).clk = d.clk := rfl
@[simp] theorem bumpQueue_runs (n k : Nat) : (bumpQueue n k d).runs = d.runs := rfl
@[simp] theorem bumpQueue_tiles (n k : Nat) : (bumpQueue n k d).tiles = d.tiles := rfl
@[simp] theorem bumpQueue_tcount (n k : Nat) : (bumpQueue n k d).tcount = d.tcount := rfl
@[simp] theorem bumpQueue_streams (n k : Nat) : (bumpQueue n k d).streams = d.streams := rfl
@[simp] theorem bumpQueue_chains (n k : Nat) : (bumpQueue n k d).chains = d.chains := rfl
@[simp] theorem bumpQueue_ctr (n k : Nat) : (bumpQueue n k d).ctr = d.ctr := rfl
@[simp] theorem bumpQueue_pow (n k : Nat) : (bumpQueue n k d).pow = d.pow := rfl
@[simp] theorem bumpQueue_reels (n k : Nat) : (bumpQueue n k d).reels = d.reels := rfl
@[simp] theorem bumpQueue_reelLast (n k : Nat) : (bumpQueue n k d).reelLast = d.reelLast := rfl
@[simp] theorem bumpQueue_mgmt (n k : Nat) : (bumpQueue n k d).mgmt = d.mgmt := rfl
@[simp] theorem bumpQueue_net (n k : Nat) : (bumpQueue n k d).net = d.net := rfl
@[simp] theorem bumpQueue_rem (n k : Nat) : (bumpQueue n k d).rem = d.rem := rfl
@[simp] theorem bumpQueue_coll (n k : Nat) : (bumpQueue n k d).coll = d.coll := rfl
@[simp] theorem bumpQueue_twin (n k : Nat) : (bumpQueue n k d).twin = d.twin := rfl
@[simp] theorem bumpQueue_ports (n k : Nat) : (bumpQueue n k d).ports = d.ports := rfl
@[simp] theorem bumpQueue_obs (n k : Nat) : (bumpQueue n k d).obs = d.obs := rfl
@[simp] theorem bumpQueue_tobs (n k : Nat) : (bumpQueue n k d).tobs = d.tobs := rfl
@[simp] theorem bumpQueue_obsCounts (n k : Nat) : (bumpQueue n k d).obsCounts = d.obsCounts := rfl
@[simp] theorem bumpQueue_pcie (n k : Nat) : (bumpQueue n k d).pcie = d.pcie := rfl
@[simp] theorem bumpQueue_boot (n k : Nat) : (bumpQueue n k d).boot = d.boot := rfl
@[simp] theorem bumpQueue_pins (n k : Nat) : (bumpQueue n k d).pins = d.pins := rfl
@[simp] theorem bumpQueue_fatal (n k : Nat) : (bumpQueue n k d).fatal = d.fatal := rfl
@[simp] theorem bumpQueue_out (n k : Nat) : (bumpQueue n k d).out = d.out := rfl

@[simp] theorem setErr_now (w v : Nat) : (setErr w v d).now = d.now := rfl
@[simp] theorem setErr_freeUsed (w v : Nat) : (setErr w v d).freeUsed = d.freeUsed := rfl
@[simp] theorem setErr_ev (w v : Nat) : (setErr w v d).ev = d.ev := rfl
@[simp] theorem setErr_clk (w v : Nat) : (setErr w v d).clk = d.clk := rfl
@[simp] theorem setErr_runs (w v : Nat) : (setErr w v d).runs = d.runs := rfl
@[simp] theorem setErr_tiles (w v : Nat) : (setErr w v d).tiles = d.tiles := rfl
@[simp] theorem setErr_tcount (w v : Nat) : (setErr w v d).tcount = d.tcount := rfl
@[simp] theorem setErr_streams (w v : Nat) : (setErr w v d).streams = d.streams := rfl
@[simp] theorem setErr_chains (w v : Nat) : (setErr w v d).chains = d.chains := rfl
@[simp] theorem setErr_ctr (w v : Nat) : (setErr w v d).ctr = d.ctr := rfl
@[simp] theorem setErr_pow (w v : Nat) : (setErr w v d).pow = d.pow := rfl
@[simp] theorem setErr_reels (w v : Nat) : (setErr w v d).reels = d.reels := rfl
@[simp] theorem setErr_reelLast (w v : Nat) : (setErr w v d).reelLast = d.reelLast := rfl
@[simp] theorem setErr_mgmt (w v : Nat) : (setErr w v d).mgmt = d.mgmt := rfl
@[simp] theorem setErr_net (w v : Nat) : (setErr w v d).net = d.net := rfl
@[simp] theorem setErr_rem (w v : Nat) : (setErr w v d).rem = d.rem := rfl
@[simp] theorem setErr_coll (w v : Nat) : (setErr w v d).coll = d.coll := rfl
@[simp] theorem setErr_twin (w v : Nat) : (setErr w v d).twin = d.twin := rfl
@[simp] theorem setErr_ports (w v : Nat) : (setErr w v d).ports = d.ports := rfl
@[simp] theorem setErr_obs (w v : Nat) : (setErr w v d).obs = d.obs := rfl
@[simp] theorem setErr_tobs (w v : Nat) : (setErr w v d).tobs = d.tobs := rfl
@[simp] theorem setErr_obsCounts (w v : Nat) : (setErr w v d).obsCounts = d.obsCounts := rfl
@[simp] theorem setErr_pcie (w v : Nat) : (setErr w v d).pcie = d.pcie := rfl
@[simp] theorem setErr_boot (w v : Nat) : (setErr w v d).boot = d.boot := rfl
@[simp] theorem setErr_pins (w v : Nat) : (setErr w v d).pins = d.pins := rfl
@[simp] theorem setErr_fatal (w v : Nat) : (setErr w v d).fatal = d.fatal := rfl
@[simp] theorem setErr_out (w v : Nat) : (setErr w v d).out = d.out := rfl

@[simp] theorem physFill_now (a n : Nat) : (physFill a n d).now = d.now := rfl
@[simp] theorem physFill_freeUsed (a n : Nat) : (physFill a n d).freeUsed = d.freeUsed := rfl
@[simp] theorem physFill_ev (a n : Nat) : (physFill a n d).ev = d.ev := rfl
@[simp] theorem physFill_clk (a n : Nat) : (physFill a n d).clk = d.clk := rfl
@[simp] theorem physFill_runs (a n : Nat) : (physFill a n d).runs = d.runs := rfl
@[simp] theorem physFill_tiles (a n : Nat) : (physFill a n d).tiles = d.tiles := rfl
@[simp] theorem physFill_tcount (a n : Nat) : (physFill a n d).tcount = d.tcount := rfl
@[simp] theorem physFill_streams (a n : Nat) : (physFill a n d).streams = d.streams := rfl
@[simp] theorem physFill_chains (a n : Nat) : (physFill a n d).chains = d.chains := rfl
@[simp] theorem physFill_ctr (a n : Nat) : (physFill a n d).ctr = d.ctr := rfl
@[simp] theorem physFill_pow (a n : Nat) : (physFill a n d).pow = d.pow := rfl
@[simp] theorem physFill_reels (a n : Nat) : (physFill a n d).reels = d.reels := rfl
@[simp] theorem physFill_reelLast (a n : Nat) : (physFill a n d).reelLast = d.reelLast := rfl
@[simp] theorem physFill_mgmt (a n : Nat) : (physFill a n d).mgmt = d.mgmt := rfl
@[simp] theorem physFill_net (a n : Nat) : (physFill a n d).net = d.net := rfl
@[simp] theorem physFill_rem (a n : Nat) : (physFill a n d).rem = d.rem := rfl
@[simp] theorem physFill_coll (a n : Nat) : (physFill a n d).coll = d.coll := rfl
@[simp] theorem physFill_twin (a n : Nat) : (physFill a n d).twin = d.twin := rfl
@[simp] theorem physFill_ports (a n : Nat) : (physFill a n d).ports = d.ports := rfl
@[simp] theorem physFill_obs (a n : Nat) : (physFill a n d).obs = d.obs := rfl
@[simp] theorem physFill_tobs (a n : Nat) : (physFill a n d).tobs = d.tobs := rfl
@[simp] theorem physFill_obsCounts (a n : Nat) : (physFill a n d).obsCounts = d.obsCounts := rfl
@[simp] theorem physFill_pcie (a n : Nat) : (physFill a n d).pcie = d.pcie := rfl
@[simp] theorem physFill_boot (a n : Nat) : (physFill a n d).boot = d.boot := rfl
@[simp] theorem physFill_pins (a n : Nat) : (physFill a n d).pins = d.pins := rfl
@[simp] theorem physFill_fatal (a n : Nat) : (physFill a n d).fatal = d.fatal := rfl
@[simp] theorem physFill_out (a n : Nat) : (physFill a n d).out = d.out := rfl

@[simp] theorem settle_now : (settle d).now = d.now := rfl
@[simp] theorem settle_freeUsed : (settle d).freeUsed = d.freeUsed := rfl
@[simp] theorem settle_ev : (settle d).ev = d.ev := rfl
@[simp] theorem settle_runs : (settle d).runs = d.runs := rfl
@[simp] theorem settle_tiles : (settle d).tiles = d.tiles := rfl
@[simp] theorem settle_tcount : (settle d).tcount = d.tcount := rfl
@[simp] theorem settle_streams : (settle d).streams = d.streams := rfl
@[simp] theorem settle_chains : (settle d).chains = d.chains := rfl
@[simp] theorem settle_ctr : (settle d).ctr = d.ctr := rfl
@[simp] theorem settle_mem : (settle d).mem = d.mem := rfl
@[simp] theorem settle_pow : (settle d).pow = d.pow := rfl
@[simp] theorem settle_reels : (settle d).reels = d.reels := rfl
@[simp] theorem settle_reelLast : (settle d).reelLast = d.reelLast := rfl
@[simp] theorem settle_mgmt : (settle d).mgmt = d.mgmt := rfl
@[simp] theorem settle_net : (settle d).net = d.net := rfl
@[simp] theorem settle_rem : (settle d).rem = d.rem := rfl
@[simp] theorem settle_coll : (settle d).coll = d.coll := rfl
@[simp] theorem settle_twin : (settle d).twin = d.twin := rfl
@[simp] theorem settle_ports : (settle d).ports = d.ports := rfl
@[simp] theorem settle_obs : (settle d).obs = d.obs := rfl
@[simp] theorem settle_tobs : (settle d).tobs = d.tobs := rfl
@[simp] theorem settle_obsCounts : (settle d).obsCounts = d.obsCounts := rfl
@[simp] theorem settle_pcie : (settle d).pcie = d.pcie := rfl
@[simp] theorem settle_boot : (settle d).boot = d.boot := rfl
@[simp] theorem settle_fatal : (settle d).fatal = d.fatal := rfl
@[simp] theorem settle_out : (settle d).out = d.out := rfl

@[simp] theorem tagWork_now (l : List (Nat × Nat)) : (tagWork l d).now = d.now := rfl
@[simp] theorem tagWork_freeUsed (l : List (Nat × Nat)) : (tagWork l d).freeUsed = d.freeUsed := rfl
@[simp] theorem tagWork_ev (l : List (Nat × Nat)) : (tagWork l d).ev = d.ev := rfl
@[simp] theorem tagWork_clk (l : List (Nat × Nat)) : (tagWork l d).clk = d.clk := rfl
@[simp] theorem tagWork_runs (l : List (Nat × Nat)) : (tagWork l d).runs = d.runs := rfl
@[simp] theorem tagWork_tiles (l : List (Nat × Nat)) : (tagWork l d).tiles = d.tiles := rfl
@[simp] theorem tagWork_tcount (l : List (Nat × Nat)) : (tagWork l d).tcount = d.tcount := rfl
@[simp] theorem tagWork_streams (l : List (Nat × Nat)) : (tagWork l d).streams = d.streams := rfl
@[simp] theorem tagWork_chains (l : List (Nat × Nat)) : (tagWork l d).chains = d.chains := rfl
@[simp] theorem tagWork_ctr (l : List (Nat × Nat)) : (tagWork l d).ctr = d.ctr := rfl
@[simp] theorem tagWork_mem (l : List (Nat × Nat)) : (tagWork l d).mem = d.mem := rfl
@[simp] theorem tagWork_pow (l : List (Nat × Nat)) : (tagWork l d).pow = d.pow := rfl
@[simp] theorem tagWork_reels (l : List (Nat × Nat)) : (tagWork l d).reels = d.reels := rfl
@[simp] theorem tagWork_reelLast (l : List (Nat × Nat)) : (tagWork l d).reelLast = d.reelLast := rfl
@[simp] theorem tagWork_mgmt (l : List (Nat × Nat)) : (tagWork l d).mgmt = d.mgmt := rfl
@[simp] theorem tagWork_net (l : List (Nat × Nat)) : (tagWork l d).net = d.net := rfl
@[simp] theorem tagWork_rem (l : List (Nat × Nat)) : (tagWork l d).rem = d.rem := rfl
@[simp] theorem tagWork_coll (l : List (Nat × Nat)) : (tagWork l d).coll = d.coll := rfl
@[simp] theorem tagWork_ports (l : List (Nat × Nat)) : (tagWork l d).ports = d.ports := rfl
@[simp] theorem tagWork_obs (l : List (Nat × Nat)) : (tagWork l d).obs = d.obs := rfl
@[simp] theorem tagWork_tobs (l : List (Nat × Nat)) : (tagWork l d).tobs = d.tobs := rfl
@[simp] theorem tagWork_obsCounts (l : List (Nat × Nat)) : (tagWork l d).obsCounts = d.obsCounts := rfl
@[simp] theorem tagWork_pcie (l : List (Nat × Nat)) : (tagWork l d).pcie = d.pcie := rfl
@[simp] theorem tagWork_boot (l : List (Nat × Nat)) : (tagWork l d).boot = d.boot := rfl
@[simp] theorem tagWork_pins (l : List (Nat × Nat)) : (tagWork l d).pins = d.pins := rfl
@[simp] theorem tagWork_fatal (l : List (Nat × Nat)) : (tagWork l d).fatal = d.fatal := rfl
@[simp] theorem tagWork_out (l : List (Nat × Nat)) : (tagWork l d).out = d.out := rfl

@[simp] theorem untagged_now : (untagged d).now = d.now := rfl
@[simp] theorem untagged_freeUsed : (untagged d).freeUsed = d.freeUsed := rfl
@[simp] theorem untagged_ev : (untagged d).ev = d.ev := rfl
@[simp] theorem untagged_clk : (untagged d).clk = d.clk := rfl
@[simp] theorem untagged_runs : (untagged d).runs = d.runs := rfl
@[simp] theorem untagged_tiles : (untagged d).tiles = d.tiles := rfl
@[simp] theorem untagged_tcount : (untagged d).tcount = d.tcount := rfl
@[simp] theorem untagged_streams : (untagged d).streams = d.streams := rfl
@[simp] theorem untagged_chains : (untagged d).chains = d.chains := rfl
@[simp] theorem untagged_ctr : (untagged d).ctr = d.ctr := rfl
@[simp] theorem untagged_mem : (untagged d).mem = d.mem := rfl
@[simp] theorem untagged_pow : (untagged d).pow = d.pow := rfl
@[simp] theorem untagged_reels : (untagged d).reels = d.reels := rfl
@[simp] theorem untagged_reelLast : (untagged d).reelLast = d.reelLast := rfl
@[simp] theorem untagged_mgmt : (untagged d).mgmt = d.mgmt := rfl
@[simp] theorem untagged_net : (untagged d).net = d.net := rfl
@[simp] theorem untagged_rem : (untagged d).rem = d.rem := rfl
@[simp] theorem untagged_coll : (untagged d).coll = d.coll := rfl
@[simp] theorem untagged_ports : (untagged d).ports = d.ports := rfl
@[simp] theorem untagged_obs : (untagged d).obs = d.obs := rfl
@[simp] theorem untagged_tobs : (untagged d).tobs = d.tobs := rfl
@[simp] theorem untagged_obsCounts : (untagged d).obsCounts = d.obsCounts := rfl
@[simp] theorem untagged_pcie : (untagged d).pcie = d.pcie := rfl
@[simp] theorem untagged_boot : (untagged d).boot = d.boot := rfl
@[simp] theorem untagged_pins : (untagged d).pins = d.pins := rfl
@[simp] theorem untagged_fatal : (untagged d).fatal = d.fatal := rfl
@[simp] theorem untagged_out : (untagged d).out = d.out := rfl

end Sys2Proof.Machine
end

