-- ==== Sys2Proof/Laws/Ops.lean ====
section
/-!
SUPPORT. What each shared operation can do, said once: what it writes, what it leaves.
-/
namespace Sys2Proof.Machine

/-! ## Commands on the device -/

/-- A command on the device either names no such unit or goes on with its pins settled and the queue as it was. -/
theorem onDev_cases (ok : Bool) (f : Dev → Dev) (s : State) :
    (ok = true ∧ onDev ok f s = .next { s with dev := settle (f s.dev) }) ∨ (ok = false ∧ onDev ok f s = .refused .noSuchUnit) := by
  cases ok <;> simp [onDev]

@[simp] theorem onDev_true (f : Dev → Dev) (s : State) : onDev true f s = .next { s with dev := settle (f s.dev) } := rfl
@[simp] theorem onDev_false (f : Dev → Dev) (s : State) : onDev false f s = .refused .noSuchUnit := rfl

theorem settle_pinsSettled (d : Dev) : PinsSettled (settle d) := by
  simp [PinsSettled, settle, alertLevel]

theorem settle_of_pinsSettled {d : Dev} (h : PinsSettled d) : settle d = d := by
  obtain ⟨h1, h2⟩ := h
  have h3 : (d.clk.frameOut && d.boot.state == 1) = d.clk.frameOut := by
    cases hf : d.clk.frameOut
    · rfl
    · simp [h2 hf]
  unfold settle
  rw [← h1, h3]

@[simp] theorem settle_settle (d : Dev) : settle (settle d) = settle d := settle_of_pinsSettled (settle_pinsSettled d)

/-- A tile command completes where what it does satisfies the claim. -/
theorem completes_onTile {t : Nat} {f : Dev → Dev} {s : State} {P : Dev → Prop} {c : Instr} (ht : t < 128)
    (hc : exec c s = onTile t f s) (h : P (settle (asTile t f s.dev))) : Completes c s P :=
  ⟨_, by rw [hc, onTile]; simp [onDev, ht], h⟩

/-- A command on the device completes where what it does satisfies the claim. -/
theorem completes_onDev {ok : Bool} {f : Dev → Dev} {s : State} {P : Dev → Prop} {c : Instr} (hok : ok = true)
    (hc : exec c s = onDev ok f s) (h : P (settle (f s.dev))) : Completes c s P :=
  ⟨_, by rw [hc, onDev, hok]; rfl, h⟩

/-- What a command answers is what its effect comes to. -/
theorem answers_onDev {ok : Bool} {f : Dev → Dev} {s : State} {d' : Dev} {c : Instr} (hok : ok = true)
    (hc : exec c s = onDev ok f s) (h : f s.dev = d') : Answers c s d' := by
  rw [Answers, hc, onDev, hok, ← h]; rfl

/-- What a tile command answers, its work being tagged while it is done. -/
theorem answers_onTile {t : Nat} {f : Dev → Dev} {s : State} {d' : Dev} {c : Instr} (ht : t < 128)
    (hc : exec c s = onTile t f s) (h : asTile t f s.dev = d') : Answers c s d' := by
  rw [Answers, hc, onTile, onDev, ← h]; simp [ht]

@[simp] theorem getTile_settle (t : Nat) (d : Dev) : getTile t (settle d) = getTile t d := rfl
@[simp] theorem getTile_untagged (t : Nat) (d : Dev) : getTile t (untagged d) = getTile t d := rfl
@[simp] theorem getRun_settle (t : Nat) (d : Dev) : getRun t (settle d) = getRun t d := rfl
@[simp] theorem getRun_untagged (t : Nat) (d : Dev) : getRun t (untagged d) = getRun t d := rfl

/-! ## Runs, tiles, reels and the dictionary -/

theorem getRun_setRun (t u : Nat) (r : Run) (d : Dev) : getRun u (setRun t r d) = if u = t then r else getRun u d :=
  Sparse.get_set (α := Run) {} d.runs t u r
@[simp] theorem getRun_setRun_same (t : Nat) (r : Run) (d : Dev) : getRun t (setRun t r d) = r := by simp [getRun_setRun]
theorem getTile_setTile (t u : Nat) (x : Tile) (d : Dev) : getTile u (setTile t x d) = if u = t then x else getTile u d :=
  Sparse.get_set (α := Tile) {} d.tiles t u x
@[simp] theorem getTile_setTile_same (t : Nat) (x : Tile) (d : Dev) : getTile t (setTile t x d) = x := by
  simp [getTile_setTile]
theorem getTile_modTile (t u : Nat) (f : Tile → Tile) (d : Dev) :
    getTile u (modTile t f d) = if u = t then f (getTile t d) else getTile u d := getTile_setTile t u _ d
@[simp] theorem getTile_modTile_same (t : Nat) (f : Tile → Tile) (d : Dev) : getTile t (modTile t f d) = f (getTile t d) := by
  simp [getTile_modTile]
theorem getRun_modRun (t u : Nat) (f : Run → Run) (d : Dev) :
    getRun u (modRun t f d) = if u = t then f (getRun t d) else getRun u d := getRun_setRun t u _ d
@[simp] theorem getRun_modRun_same (t : Nat) (f : Run → Run) (d : Dev) : getRun t (modRun t f d) = f (getRun t d) := by
  simp [getRun_modRun]
theorem getReel_setReel (t u : Nat) (x : Reel) (d : Dev) : getReel u (setReel t x d) = if u = t then x else getReel u d :=
  Sparse.get_set (α := Reel) {} d.reels t u x
@[simp] theorem getReel_setReel_same (t : Nat) (x : Reel) (d : Dev) : getReel t (setReel t x d) = x := by
  simp [getReel_setReel]
theorem getReel_modReel (t u : Nat) (f : Reel → Reel) (d : Dev) :
    getReel u (modReel t f d) = if u = t then f (getReel t d) else getReel u d := getReel_setReel t u _ d
@[simp] theorem getReel_modReel_same (t : Nat) (f : Reel → Reel) (d : Dev) : getReel t (modReel t f d) = f (getReel t d) := by
  simp [getReel_modReel]

theorem dictGet_dictPut (i j v a b : Nat) (d : Dev) :
    dictGet a b (dictPut i j v d) = if entryKey a b = entryKey i j then v else dictGet a b d := by
  unfold dictGet dictPut
  simp only [Sparse.get_set]
  split <;> rfl
@[simp] theorem dictGet_dictPut_same (i j v : Nat) (d : Dev) : dictGet i j (dictPut i j v d) = v := by
  simp [dictGet_dictPut]

/-! ## Events -/

@[simp] theorem latchAlert_of_not_fatal {e : Event} (d : Dev) (h : e.cls ≠ 3) : latchAlert e d = d := by
  simp [latchAlert, h]

/-- Raising an event below class 3 changes the collector's state and nothing else. -/
theorem raiseEvent_eq {e : Event} (d : Dev) (h : e.cls ≠ 3) : raiseEvent e d = { d with ev := (raiseEvent e d).ev } := by
  simp only [raiseEvent, latchAlert, h, if_false]
  split <;> rfl

theorem raise_eq {cls : Nat} (num src : Nat) (d : Dev) (detail : Nat) (h : cls ≠ 3) :
    raise cls num src d detail = { d with ev := (raise cls num src d detail).ev } := raiseEvent_eq d h
theorem raiseT_eq {cls : Nat} (num src t : Nat) (d : Dev) (detail : Nat) (h : cls ≠ 3) :
    raiseT cls num src t d detail = { d with ev := (raiseT cls num src t d detail).ev } := raiseEvent_eq d h

/-- Whatever its class, it changes the collector's state, the two causes of ALERT_L and the fatal latch at most. -/
theorem raiseEvent_frame (e : Event) (d : Dev) :
    raiseEvent e d = { d with ev := (raiseEvent e d).ev, fatal := (raiseEvent e d).fatal,
                              pins.trip := (raiseEvent e d).pins.trip, pins.fatal3 := (raiseEvent e d).pins.fatal3 } := by
  simp only [raiseEvent, latchAlert]
  split <;> split <;> rfl

/-- A fault of a run below class 3 changes the collector's state and that run. -/
theorem faultRun_eq {cls : Nat} (num src t : Nat) (d : Dev) (detail : Nat) (h : cls ≠ 3) :
    faultRun cls num src t d detail =
      { d with ev := (faultRun cls num src t d detail).ev, runs := (faultRun cls num src t d detail).runs } := by
  simp only [faultRun, raiseEvent, latchAlert, h, if_false]
  split <;> split <;> rfl

/-- A run-contained event of a Running run makes it halt at the next tick. -/
theorem faultRun_haltPending (cls num src t : Nat) (d : Dev) (detail : Nat) (h : (getRun t d).running = true) :
    (getRun t (faultRun cls num src t d detail)).haltPending = true := by
  simp [faultRun, h]

/-- Work that raises nothing is the same for a taken-over rank as for the device's own. -/
theorem forRank_of_quiet (b : Bool) {f : Dev → Dev} {d : Dev} (h : (f d).ev = d.ev) : forRank b f d = f d := by
  cases b
  · rfl
  · simp only [forRank, if_true, h, List.take_length, List.drop_length, List.map_nil, List.append_nil]
    rw [← h]

/-- Marking for a taken-over rank changes the event queue at most. -/
theorem forRank_eq (b : Bool) (f : Dev → Dev) (d : Dev) : forRank b f d = { f d with ev := (forRank b f d).ev } := by
  cases b <;> rfl

end Sys2Proof.Machine
end

