-- ==== Sys2Proof/Laws/Memory.lean ====
section
/-!
SUPPORT. Every operation that writes a memory keeps its canonical form, and reset's memories have it; and a
translation without a cached entry is the walk's.
-/
namespace Sys2Proof.Machine

/-- Physical, instruction and host memory are in their canonical form. -/
def MemoriesWf (d : Dev) : Prop :=
  Memory.wf d.mem.phys = true ∧ Memory.wf d.mem.imem = true ∧ Memory.wf d.mem.host = true

theorem reset_memoriesWf : MemoriesWf State.reset.dev := ⟨rfl, rfl, rfl⟩

/-- The three memories are what they were. -/
def SameMemories (d d' : Dev) : Prop := d'.mem.phys = d.mem.phys ∧ d'.mem.imem = d.mem.imem ∧ d'.mem.host = d.mem.host

theorem SameMemories.wf {d d' : Dev} (h : SameMemories d d') (hd : MemoriesWf d) : MemoriesWf d' := by
  obtain ⟨h1, h2, h3⟩ := h
  unfold MemoriesWf
  rw [h1, h2, h3]
  exact hd

theorem SameMemories.trans {a b c : Dev} (h : SameMemories a b) (g : SameMemories b c) : SameMemories a c :=
  ⟨g.1.trans h.1, g.2.1.trans h.2.1, g.2.2.trans h.2.2⟩

theorem countCorrected_sameMemories (a : Nat) (d : Dev) : SameMemories d (countCorrected a d) := by
  unfold countCorrected
  split <;> rw [raise_eq _ _ _ _ (by decide)] <;> exact ⟨rfl, rfl, rfl⟩

/-- A walk over faulty words that changes no memory at any of them changes none at all. -/
theorem foldl_sameMemories {β : Type} (f : Dev → β → Dev) (h : ∀ d b, SameMemories d (f d b)) (l : List β) (d : Dev) :
    SameMemories d (l.foldl f d) := by
  induction l generalizing d with
  | nil => exact ⟨rfl, rfl, rfl⟩
  | cons b l ih => exact (h d b).trans (ih (f d b))

theorem physRead_sameMemories (a n : Nat) (d : Dev) : SameMemories d (physRead a n d).2.2 := by
  refine foldl_sameMemories _ (fun e p => ?_) _ _
  split
  · exact SameMemories.trans (b := setErr p.1 0 e) ⟨rfl, rfl, rfl⟩ (countCorrected_sameMemories _ _)
  · exact ⟨rfl, rfl, rfl⟩

theorem physRead_memoriesWf (a n : Nat) {d : Dev} (h : MemoriesWf d) : MemoriesWf (physRead a n d).2.2 :=
  (physRead_sameMemories a n d).wf h

theorem physWrite_memoriesWf (a : Nat) (bs : Bytes) {d : Dev} (h : MemoriesWf d) : MemoriesWf (physWrite a bs d).2 := by
  have same : SameMemories d ((errsIn d.mem.err a bs.length).foldl (fun d p =>
      if decide (a ≤ p.1 * 8) && decide (p.1 * 8 + 8 ≤ a + bs.length) then setErr p.1 0 d
      else if p.2 = 1 then countCorrected (p.1 * 8) (setErr p.1 0 d) else d) d) := by
    refine foldl_sameMemories _ (fun e p => ?_) _ _
    split
    · exact ⟨rfl, rfl, rfl⟩
    · split
      · exact SameMemories.trans (b := setErr p.1 0 e) ⟨rfl, rfl, rfl⟩ (countCorrected_sameMemories _ _)
      · exact ⟨rfl, rfl, rfl⟩
  obtain ⟨h1, h2, h3⟩ := same.wf h
  exact ⟨Mem.wf_writeN a bs h1, h2, h3⟩

theorem physFill_memoriesWf (a n : Nat) {d : Dev} (h : MemoriesWf d) : MemoriesWf (physFill a n d) :=
  ⟨Mem.wf_filter _ h.1, h.2⟩

theorem zeroHbm_memoriesWf {d : Dev} (h : MemoriesWf d) : MemoriesWf (zeroHbm d) := ⟨Mem.wf_filter _ h.1, h.2⟩

theorem loadImage_memoriesWf (t ctx x : Nat) (img : Bytes) {d : Dev} (h : MemoriesWf d) : MemoriesWf (loadImage t ctx x img d) :=
  ⟨h.1, Mem.wf_writeN _ img (Mem.wf_filter _ h.2.1), h.2.2⟩

theorem dropImages_memoriesWf (t : Nat) {d : Dev} (h : MemoriesWf d) : MemoriesWf (dropImages t d) :=
  ⟨h.1, Mem.wf_filter _ h.2.1, h.2.2⟩

theorem hostWrite_memoriesWf (fn addr : Nat) (bs : Bytes) {d : Dev} (h : MemoriesWf d) : MemoriesWf (hostWrite fn addr bs d) := by
  unfold hostWrite
  split
  · exact ⟨h.1, h.2.1, Mem.wf_writeN _ bs h.2.2⟩
  · exact h

/-- What a host read delivers is written as it comes (HOST_READ_COMPLETION). -/
theorem delivered_memoriesWf (fn addr : Nat) (data : Bytes) {d : Dev} (h : MemoriesWf d) :
    MemoriesWf { d with mem.host := Mem.writeN d.mem.host (hostKey fn addr) data } :=
  ⟨h.1, h.2.1, Mem.wf_writeN _ data h.2.2⟩

theorem coldReset_memoriesWf {d : Dev} (h : MemoriesWf d) : MemoriesWf (coldReset d) ∧ MemoriesWf (warmState d) :=
  ⟨⟨rfl, rfl, h.2.2⟩, ⟨rfl, rfl, h.2.2⟩⟩

/-- Where no cache holds an entry, an access is placed where the tables put it. -/
theorem translate_uncached (w t va : Nat) (write : Bool) (d : Dev) (h1 : d.mem.tlbs = []) (h2 : d.mem.walks = []) :
    (translate w t va write d).1 = (walk t va write d).1 := by
  have hw : ∀ f, cachedWalk (tlbDie w) t va f d = walk1 t va d := by
    intro f; simp [cachedWalk, walkHit, h2, stillHeld]
  unfold translate walk
  simp only [tlbHit, h1, Sparse.get, List.filter_nil, stillHeld, ite_self, hw]
  split <;> rfl

end Sys2Proof.Machine
end

