-- ==== Sys2Proof/Laws/PerInstr.lean ====
section
/-!
SUPPORT. What each command is: an effect on the device, where the units that it names exist.
-/
namespace Sys2Proof.Laws.Shape
open Sys2Proof.Machine

/-- The command is one effect on the device, guarded by the existence of the units it names. -/
def Statement (i : Instr) : Prop := ∃ f : Dev → Dev, ∀ s, exec i s = onDev i.wellFormed f s

theorem tickSend : Statement (.tickSend) := ⟨_, fun _ => rfl⟩
theorem tickSecondCopy : Statement (.tickSecondCopy) := ⟨_, fun _ => rfl⟩
theorem tickOrderedSet (port set) : Statement (.tickOrderedSet port set) := ⟨_, fun _ => rfl⟩
theorem localTick : Statement (.localTick) := ⟨_, fun _ => rfl⟩
theorem tickMissed : Statement (.tickMissed) := ⟨_, fun _ => rfl⟩
theorem tickLost : Statement (.tickLost) := ⟨_, fun _ => rfl⟩
theorem frameInEdge : Statement (.frameInEdge) := ⟨_, fun _ => rfl⟩
theorem frameInMissing : Statement (.frameInMissing) := ⟨_, fun _ => rfl⟩
theorem guardBand (tenant) : Statement (.guardBand tenant) := ⟨_, fun _ => rfl⟩
theorem stretchRequest : Statement (.stretchRequest) := ⟨_, fun _ => rfl⟩
theorem haltRequestReceipt : Statement (.haltRequestReceipt) := ⟨_, fun _ => rfl⟩
theorem boundaryPreparation : Statement (.boundaryPreparation) := ⟨_, fun _ => rfl⟩
theorem commitEvaluationNoTick : Statement (.commitEvaluationNoTick) := ⟨_, fun _ => rfl⟩
theorem teardownNoTick : Statement (.teardownNoTick) := ⟨_, fun _ => rfl⟩
theorem calibrationOrderedSet (port set) : Statement (.calibrationOrderedSet port set) := ⟨_, fun _ => rfl⟩
theorem alu (tile) : Statement (.alu tile) := ⟨_, fun _ => rfl⟩
theorem addi (tile) : Statement (.addi tile) := ⟨_, fun _ => rfl⟩
theorem andi (tile) : Statement (.andi tile) := ⟨_, fun _ => rfl⟩
theorem ori (tile) : Statement (.ori tile) := ⟨_, fun _ => rfl⟩
theorem xori (tile) : Statement (.xori tile) := ⟨_, fun _ => rfl⟩
theorem shli (tile) : Statement (.shli tile) := ⟨_, fun _ => rfl⟩
theorem shri (tile) : Statement (.shri tile) := ⟨_, fun _ => rfl⟩
theorem sari (tile) : Statement (.sari tile) := ⟨_, fun _ => rfl⟩
theorem ins (tile) : Statement (.ins tile) := ⟨_, fun _ => rfl⟩
theorem slti (tile) : Statement (.slti tile) := ⟨_, fun _ => rfl⟩
theorem ldw (tile) : Statement (.ldw tile) := ⟨_, fun _ => rfl⟩
theorem beq (tile) : Statement (.beq tile) := ⟨_, fun _ => rfl⟩
theorem bne (tile) : Statement (.bne tile) := ⟨_, fun _ => rfl⟩
theorem blt (tile) : Statement (.blt tile) := ⟨_, fun _ => rfl⟩
theorem bge (tile) : Statement (.bge tile) := ⟨_, fun _ => rfl⟩
theorem bltu (tile) : Statement (.bltu tile) := ⟨_, fun _ => rfl⟩
theorem bgeu (tile) : Statement (.bgeu tile) := ⟨_, fun _ => rfl⟩
theorem jal (tile) : Statement (.jal tile) := ⟨_, fun _ => rfl⟩
theorem jalr (tile) : Statement (.jalr tile) := ⟨_, fun _ => rfl⟩
theorem cadd (tile) : Statement (.cadd tile) := ⟨_, fun _ => rfl⟩
theorem cwait (tile) : Statement (.cwait tile) := ⟨_, fun _ => rfl⟩
theorem cwaitt (tile) : Statement (.cwaitt tile) := ⟨_, fun _ => rfl⟩
theorem cread (tile) : Statement (.cread tile) := ⟨_, fun _ => rfl⟩
theorem cwaitRelease (tile) : Statement (.cwaitRelease tile) := ⟨_, fun _ => rfl⟩
theorem cwaittTimeout (tile) : Statement (.cwaittTimeout tile) := ⟨_, fun _ => rfl⟩
theorem issue (tile) : Statement (.issue tile) := ⟨_, fun _ => rfl⟩
theorem issueResume (tile) : Statement (.issueResume tile) := ⟨_, fun _ => rfl⟩
theorem waite (tile) : Statement (.waite tile) := ⟨_, fun _ => rfl⟩
theorem waiteRelease (tile) : Statement (.waiteRelease tile) := ⟨_, fun _ => rfl⟩
theorem rsr (tile) : Statement (.rsr tile) := ⟨_, fun _ => rfl⟩
theorem endSegment (tile) : Statement (.endSegment tile) := ⟨_, fun _ => rfl⟩
theorem illegalInstruction (tile) : Statement (.illegalInstruction tile) := ⟨_, fun _ => rfl⟩
theorem segmentFinished (tile) : Statement (.segmentFinished tile) := ⟨_, fun _ => rfl⟩
theorem contextSwitch (tile) : Statement (.contextSwitch tile) := ⟨_, fun _ => rfl⟩
theorem matrixCompute (tile) : Statement (.matrixCompute tile) := ⟨_, fun _ => rfl⟩
theorem matrixStrideConfig (tile) : Statement (.matrixStrideConfig tile) := ⟨_, fun _ => rfl⟩
theorem matrixScaleConfig (tile) : Statement (.matrixScaleConfig tile) := ⟨_, fun _ => rfl⟩
theorem mvCompute (tile) : Statement (.mvCompute tile) := ⟨_, fun _ => rfl⟩
theorem mvConfig (tile) : Statement (.mvConfig tile) := ⟨_, fun _ => rfl⟩
theorem outputToScratch (tile) : Statement (.outputToScratch tile) := ⟨_, fun _ => rfl⟩
theorem outputFused (tile) : Statement (.outputFused tile) := ⟨_, fun _ => rfl⟩
theorem outputScalars (tile) : Statement (.outputScalars tile) := ⟨_, fun _ => rfl⟩
theorem outputClip (tile) : Statement (.outputClip tile) := ⟨_, fun _ => rfl⟩
theorem outputVectors (tile) : Statement (.outputVectors tile) := ⟨_, fun _ => rfl⟩
theorem vectorLoad (tile) : Statement (.vectorLoad tile) := ⟨_, fun _ => rfl⟩
theorem vectorStore (tile) : Statement (.vectorStore tile) := ⟨_, fun _ => rfl⟩
theorem vectorFp32 (tile) : Statement (.vectorFp32 tile) := ⟨_, fun _ => rfl⟩
theorem vectorPacked16 (tile) : Statement (.vectorPacked16 tile) := ⟨_, fun _ => rfl⟩
theorem vectorInteger (tile) : Statement (.vectorInteger tile) := ⟨_, fun _ => rfl⟩
theorem vectorPermute (tile) : Statement (.vectorPermute tile) := ⟨_, fun _ => rfl⟩
theorem vectorReduction (tile) : Statement (.vectorReduction tile) := ⟨_, fun _ => rfl⟩
theorem vectorFunction (tile) : Statement (.vectorFunction tile) := ⟨_, fun _ => rfl⟩
theorem vectorConvert (tile) : Statement (.vectorConvert tile) := ⟨_, fun _ => rfl⟩
theorem sequencerRun (tile) : Statement (.sequencerRun tile) := ⟨_, fun _ => rfl⟩
theorem sequencerStep (tile) : Statement (.sequencerStep tile) := ⟨_, fun _ => rfl⟩
theorem dmaChain (tile) : Statement (.dmaChain tile) := ⟨_, fun _ => rfl⟩
theorem niPut (tile) : Statement (.niPut tile) := ⟨_, fun _ => rfl⟩
theorem niGet (tile) : Statement (.niGet tile) := ⟨_, fun _ => rfl⟩
theorem niCounterAdd (tile) : Statement (.niCounterAdd tile) := ⟨_, fun _ => rfl⟩
theorem niStartChain (tile) : Statement (.niStartChain tile) := ⟨_, fun _ => rfl⟩
theorem wordRetire (tile eng) : Statement (.wordRetire tile eng) := ⟨_, fun _ => rfl⟩
theorem cueGrant : Statement (.cueGrant) := ⟨_, fun _ => rfl⟩
theorem deferredRampRelease : Statement (.deferredRampRelease) := ⟨_, fun _ => rfl⟩
theorem arrayIdle (tile) : Statement (.arrayIdle tile) := ⟨_, fun _ => rfl⟩
theorem powerMonitorSample (mw) : Statement (.powerMonitorSample mw) := ⟨_, fun _ => rfl⟩
theorem sensorRead (die temps stackTemps) : Statement (.sensorRead die temps stackTemps) := ⟨_, fun _ => rfl⟩
theorem collectorRequest (die tenant record) : Statement (.collectorRequest die tenant record) := ⟨_, fun _ => rfl⟩
theorem collectorEvaluation (die) : Statement (.collectorEvaluation die) := ⟨_, fun _ => rfl⟩
theorem collectorFlush (tr addr secured msg) : Statement (.collectorFlush tr addr secured msg) := ⟨_, fun _ => rfl⟩
theorem dmaCopy (engine) : Statement (.dmaCopy engine) := ⟨_, fun _ => rfl⟩
theorem dmaFill (engine) : Statement (.dmaFill engine) := ⟨_, fun _ => rfl⟩
theorem dmaGuardedCopy (engine) : Statement (.dmaGuardedCopy engine) := ⟨_, fun _ => rfl⟩
theorem dmaGather (engine) : Statement (.dmaGather engine) := ⟨_, fun _ => rfl⟩
theorem dmaDescriptorComplete (engine) : Statement (.dmaDescriptorComplete engine) := ⟨_, fun _ => rfl⟩
theorem patrolScrub (addr) : Statement (.patrolScrub addr) := ⟨_, fun _ => rfl⟩
theorem invalidateRange (fn value) : Statement (.invalidateRange fn value) := ⟨_, fun _ => rfl⟩
theorem invalidateAll (fn value) : Statement (.invalidateAll fn value) := ⟨_, fun _ => rfl⟩
theorem invalidationComplete : Statement (.invalidationComplete) := ⟨_, fun _ => rfl⟩
theorem phasedStep : Statement (.phasedStep) := ⟨_, fun _ => rfl⟩
theorem caddPacket : Statement (.caddPacket) := ⟨_, fun _ => rfl⟩
theorem watchRelease (counter) : Statement (.watchRelease counter) := ⟨_, fun _ => rfl⟩
theorem reelOpen (reel) : Statement (.reelOpen reel) := ⟨_, fun _ => rfl⟩
theorem reelClose (reel) : Statement (.reelClose reel) := ⟨_, fun _ => rfl⟩
theorem reelCloseComplete (reel) : Statement (.reelCloseComplete reel) := ⟨_, fun _ => rfl⟩
theorem reelResume (fn index) : Statement (.reelResume fn index) := ⟨_, fun _ => rfl⟩
theorem doorbell (fn index value spoilt) : Statement (.doorbell fn index value spoilt) := ⟨_, fun _ => rfl⟩
theorem descriptorFetch (reel spoil) : Statement (.descriptorFetch reel spoil) := ⟨_, fun _ => rfl⟩
theorem nop (reel) : Statement (.nop reel) := ⟨_, fun _ => rfl⟩
theorem word (reel) : Statement (.word reel) := ⟨_, fun _ => rfl⟩
theorem transfer (reel) : Statement (.transfer reel) := ⟨_, fun _ => rfl⟩
theorem collect (reel) : Statement (.collect reel) := ⟨_, fun _ => rfl⟩
theorem load (reel) : Statement (.load reel) := ⟨_, fun _ => rfl⟩
theorem arm (reel) : Statement (.arm reel) := ⟨_, fun _ => rfl⟩
theorem teardown (reel) : Statement (.teardown reel) := ⟨_, fun _ => rfl⟩
theorem descriptorWaitTimeout (reel) : Statement (.descriptorWaitTimeout reel) := ⟨_, fun _ => rfl⟩
theorem descriptorComplete (reel) : Statement (.descriptorComplete reel) := ⟨_, fun _ => rfl⟩
theorem interruptModerationExpiry (reel) : Statement (.interruptModerationExpiry reel) := ⟨_, fun _ => rfl⟩
theorem routerUnicast (port vc spoilt) : Statement (.routerUnicast port vc spoilt) := ⟨_, fun _ => rfl⟩
theorem routerMulticast (port vc spoilt) : Statement (.routerMulticast port vc spoilt) := ⟨_, fun _ => rfl⟩
theorem linkFlitTransmit (port spoilt) : Statement (.linkFlitTransmit port spoilt) := ⟨_, fun _ => rfl⟩
theorem pktLifetimeSweep : Statement (.pktLifetimeSweep) := ⟨_, fun _ => rfl⟩
theorem rankCacheFill : Statement (.rankCacheFill) := ⟨_, fun _ => rfl⟩
theorem windowCacheFill : Statement (.windowCacheFill) := ⟨_, fun _ => rfl⟩
theorem drainRound (round) : Statement (.drainRound round) := ⟨_, fun _ => rfl⟩
theorem drainReport (port set) : Statement (.drainReport port set) := ⟨_, fun _ => rfl⟩
theorem drainRelease (port set) : Statement (.drainRelease port set) := ⟨_, fun _ => rfl⟩
theorem slotWindowOpen (tenant cctx) : Statement (.slotWindowOpen tenant cctx) := ⟨_, fun _ => rfl⟩
theorem slotWindowClose (tenant cctx) : Statement (.slotWindowClose tenant cctx) := ⟨_, fun _ => rfl⟩
theorem txreqPut : Statement (.txreqPut) := ⟨_, fun _ => rfl⟩
theorem txreqGet : Statement (.txreqGet) := ⟨_, fun _ => rfl⟩
theorem txreqQuery : Statement (.txreqQuery) := ⟨_, fun _ => rfl⟩
theorem txrsp : Statement (.txrsp) := ⟨_, fun _ => rfl⟩
theorem cack : Statement (.cack) := ⟨_, fun _ => rfl⟩
theorem responseTimeout (tag) : Statement (.responseTimeout tag) := ⟨_, fun _ => rfl⟩
theorem transactionDeadline (tag) : Statement (.transactionDeadline tag) := ⟨_, fun _ => rfl⟩
theorem queryResend (tag) : Statement (.queryResend tag) := ⟨_, fun _ => rfl⟩
theorem resolveTimeout (tag) : Statement (.resolveTimeout tag) := ⟨_, fun _ => rfl⟩
theorem lifetimeHoldExpiry (tag) : Statement (.lifetimeHoldExpiry tag) := ⟨_, fun _ => rfl⟩
theorem quarantineEnd (tag) : Statement (.quarantineEnd tag) := ⟨_, fun _ => rfl⟩
theorem trainNow (tr addr secured msg) : Statement (.trainNow tr addr secured msg) := ⟨_, fun _ => rfl⟩
theorem trainingPhaseTimeout (port phase) : Statement (.trainingPhaseTimeout port phase) := ⟨_, fun _ => rfl⟩
theorem linkHandshake (port coord pcode serial resume held snr t1 t2 t3 t4) : Statement (.linkHandshake port coord pcode serial resume held snr t1 t2 t3 t4) := ⟨_, fun _ => rfl⟩
theorem linkFlitReceive (port bytes errors) : Statement (.linkFlitReceive port bytes errors) := ⟨_, fun _ => rfl⟩
theorem nakReceive (port ack) : Statement (.nakReceive port ack) := ⟨_, fun _ => rfl⟩
theorem replayTimerExpiry (port) : Statement (.replayTimerExpiry port) := ⟨_, fun _ => rfl⟩
theorem retrainRequest (port) : Statement (.retrainRequest port) := ⟨_, fun _ => rfl⟩
theorem lockLoss (port) : Statement (.lockLoss port) := ⟨_, fun _ => rfl⟩
theorem retrainTimeout (port) : Statement (.retrainTimeout port) := ⟨_, fun _ => rfl⟩
theorem downTrainingRetry (port) : Statement (.downTrainingRetry port) := ⟨_, fun _ => rfl⟩
theorem widthChange (port set) : Statement (.widthChange port set) := ⟨_, fun _ => rfl⟩
theorem widthChangeApply (port tx) : Statement (.widthChangeApply port tx) := ⟨_, fun _ => rfl⟩
theorem wakeStart (port) : Statement (.wakeStart port) := ⟨_, fun _ => rfl⟩
theorem sleepStart (port) : Statement (.sleepStart port) := ⟨_, fun _ => rfl⟩
theorem demandWake (port) : Statement (.demandWake port) := ⟨_, fun _ => rfl⟩
theorem laneRampStep (port lane) : Statement (.laneRampStep port lane) := ⟨_, fun _ => rfl⟩
theorem laneEnergyDetect (port lane level) : Statement (.laneEnergyDetect port lane level) := ⟨_, fun _ => rfl⟩
theorem qualifierMatch (port lane q) : Statement (.qualifierMatch port lane q) := ⟨_, fun _ => rfl⟩
theorem qualifierTimeout (port lane) : Statement (.qualifierTimeout port lane) := ⟨_, fun _ => rfl⟩
theorem relockComplete (port lane tx) : Statement (.relockComplete port lane tx) := ⟨_, fun _ => rfl⟩
theorem laneWakeLate (port lane) : Statement (.laneWakeLate port lane) := ⟨_, fun _ => rfl⟩
theorem noiseFloorMeasure (port lane value) : Statement (.noiseFloorMeasure port lane value) := ⟨_, fun _ => rfl⟩
theorem sdata : Statement (.sdata) := ⟨_, fun _ => rfl⟩
theorem collectiveStep (tenant rank cctx cseg fails) : Statement (.collectiveStep tenant rank cctx cseg fails) := ⟨_, fun _ => rfl⟩
theorem collectiveSegmentComplete (tenant rank cctx cseg) : Statement (.collectiveSegmentComplete tenant rank cctx cseg) := ⟨_, fun _ => rfl⟩
theorem chainPut (chain) : Statement (.chainPut chain) := ⟨_, fun _ => rfl⟩
theorem chainAdd (chain) : Statement (.chainAdd chain) := ⟨_, fun _ => rfl⟩
theorem chainHandin (chain) : Statement (.chainHandin chain) := ⟨_, fun _ => rfl⟩
theorem chainSignal (chain) : Statement (.chainSignal chain) := ⟨_, fun _ => rfl⟩
theorem chainMput (chain) : Statement (.chainMput chain) := ⟨_, fun _ => rfl⟩
theorem chainInstanceEnd (chain) : Statement (.chainInstanceEnd chain) := ⟨_, fun _ => rfl⟩
theorem mirrorWrite : Statement (.mirrorWrite) := ⟨_, fun _ => rfl⟩
theorem mirrorCounterAdd : Statement (.mirrorCounterAdd) := ⟨_, fun _ => rfl⟩
theorem mirrorState : Statement (.mirrorState) := ⟨_, fun _ => rfl⟩
theorem mirrorCommit : Statement (.mirrorCommit) := ⟨_, fun _ => rfl⟩
theorem mirrorAck : Statement (.mirrorAck) := ⟨_, fun _ => rfl⟩
theorem repairRequest : Statement (.repairRequest) := ⟨_, fun _ => rfl⟩
theorem repairReply : Statement (.repairReply) := ⟨_, fun _ => rfl⟩
theorem mirrorSeed : Statement (.mirrorSeed) := ⟨_, fun _ => rfl⟩
theorem mirrorDirect : Statement (.mirrorDirect) := ⟨_, fun _ => rfl⟩
theorem heartbeat : Statement (.heartbeat) := ⟨_, fun _ => rfl⟩
theorem mirrorRelease : Statement (.mirrorRelease) := ⟨_, fun _ => rfl⟩
theorem heartbeatSend : Statement (.heartbeatSend) := ⟨_, fun _ => rfl⟩
theorem heartbeatMissed : Statement (.heartbeatMissed) := ⟨_, fun _ => rfl⟩
theorem seedSend : Statement (.seedSend) := ⟨_, fun _ => rfl⟩
theorem commitRecordSend : Statement (.commitRecordSend) := ⟨_, fun _ => rfl⟩
theorem probeReply (count) : Statement (.probeReply count) := ⟨_, fun _ => rfl⟩
theorem probeTimeout : Statement (.probeTimeout) := ⟨_, fun _ => rfl⟩
theorem tenantSwitch (tile) : Statement (.tenantSwitch tile) := ⟨_, fun _ => rfl⟩
theorem windowStart (tile) : Statement (.windowStart tile) := ⟨_, fun _ => rfl⟩
theorem windowEnd (tile) : Statement (.windowEnd tile) := ⟨_, fun _ => rfl⟩
theorem publication : Statement (.publication) := ⟨_, fun _ => rfl⟩
theorem resultExpiry (tenant stream) : Statement (.resultExpiry tenant stream) := ⟨_, fun _ => rfl⟩
theorem tabingRead (tr addr secured msg) : Statement (.tabingRead tr addr secured msg) := ⟨_, fun _ => rfl⟩
theorem tabingWrite (tr addr secured msg) : Statement (.tabingWrite tr addr secured msg) := ⟨_, fun _ => rfl⟩
theorem leaseAcquire (tr addr secured msg) : Statement (.leaseAcquire tr addr secured msg) := ⟨_, fun _ => rfl⟩
theorem leaseRenew (tr addr secured msg) : Statement (.leaseRenew tr addr secured msg) := ⟨_, fun _ => rfl⟩
theorem leaseRelease (tr addr secured msg) : Statement (.leaseRelease tr addr secured msg) := ⟨_, fun _ => rfl⟩
theorem leaseForce (tr addr secured msg) : Statement (.leaseForce tr addr secured msg) := ⟨_, fun _ => rfl⟩
theorem leaseExpiry : Statement (.leaseExpiry) := ⟨_, fun _ => rfl⟩
theorem notifyAck (tr addr secured msg) : Statement (.notifyAck tr addr secured msg) := ⟨_, fun _ => rfl⟩
theorem notifyResend : Statement (.notifyResend) := ⟨_, fun _ => rfl⟩
theorem commit (tr addr secured msg) : Statement (.commit tr addr secured msg) := ⟨_, fun _ => rfl⟩
theorem shadowDiscard (tr addr secured msg) : Statement (.shadowDiscard tr addr secured msg) := ⟨_, fun _ => rfl⟩
theorem haltRequest (tr addr secured msg) : Statement (.haltRequest tr addr secured msg) := ⟨_, fun _ => rfl⟩
theorem managementStretch (tr addr secured msg) : Statement (.managementStretch tr addr secured msg) := ⟨_, fun _ => rfl⟩
theorem smbusBlockWrite (block atOnce) : Statement (.smbusBlockWrite block atOnce) := ⟨_, fun _ => rfl⟩
theorem smbusFragmentTimeout : Statement (.smbusFragmentTimeout) := ⟨_, fun _ => rfl⟩
theorem smbusRetry (lost) : Statement (.smbusRetry lost) := ⟨_, fun _ => rfl⟩
theorem spdmMessage (tr secured msg) : Statement (.spdmMessage tr secured msg) := ⟨_, fun _ => rfl⟩
theorem getMeasurements (tr secured msg) : Statement (.getMeasurements tr secured msg) := ⟨_, fun _ => rfl⟩
theorem setEndpointId (tr id op eid) : Statement (.setEndpointId tr id op eid) := ⟨_, fun _ => rfl⟩
theorem getEndpointId (tr id) : Statement (.getEndpointId tr id) := ⟨_, fun _ => rfl⟩
theorem getEndpointUuid (tr id) : Statement (.getEndpointUuid tr id) := ⟨_, fun _ => rfl⟩
theorem getMctpVersionSupport (tr id typ) : Statement (.getMctpVersionSupport tr id typ) := ⟨_, fun _ => rfl⟩
theorem getMessageTypeSupport (tr id) : Statement (.getMessageTypeSupport tr id) := ⟨_, fun _ => rfl⟩
theorem getVendorDefinedMessageSupport (tr id selector) : Statement (.getVendorDefinedMessageSupport tr id selector) := ⟨_, fun _ => rfl⟩
theorem entdaa (addr) : Statement (.entdaa addr) := ⟨_, fun _ => rfl⟩
theorem imageData (tr addr secured msg) : Statement (.imageData tr addr secured msg) := ⟨_, fun _ => rfl⟩
theorem updateErase (tr addr secured msg) : Statement (.updateErase tr addr secured msg) := ⟨_, fun _ => rfl⟩
theorem eraseComplete : Statement (.eraseComplete) := ⟨_, fun _ => rfl⟩
theorem updateVerify (tr addr secured msg) : Statement (.updateVerify tr addr secured msg) := ⟨_, fun _ => rfl⟩
theorem verifyComplete : Statement (.verifyComplete) := ⟨_, fun _ => rfl⟩
theorem updateSelect (tr addr secured msg) : Statement (.updateSelect tr addr secured msg) := ⟨_, fun _ => rfl⟩
theorem bootControlWarmReset (tr addr secured msg) : Statement (.bootControlWarmReset tr addr secured msg) := ⟨_, fun _ => rfl⟩
theorem bootControlClear (tr addr secured msg) : Statement (.bootControlClear tr addr secured msg) := ⟨_, fun _ => rfl⟩
theorem bootControlColdReset (tr addr secured flash msg) : Statement (.bootControlColdReset tr addr secured flash msg) := ⟨_, fun _ => rfl⟩
theorem bootControlMinimal (tr addr secured msg) : Statement (.bootControlMinimal tr addr secured msg) := ⟨_, fun _ => rfl⟩
theorem bootControlRaiseSvn (tr addr secured msg) : Statement (.bootControlRaiseSvn tr addr secured msg) := ⟨_, fun _ => rfl⟩
theorem clearPersistentRing (tr addr secured msg) : Statement (.clearPersistentRing tr addr secured msg) := ⟨_, fun _ => rfl⟩
theorem diagnosticWindowRead (tr addr secured msg) : Statement (.diagnosticWindowRead tr addr secured msg) := ⟨_, fun _ => rfl⟩
theorem diagnosticWindowWrite (tr addr secured msg) : Statement (.diagnosticWindowWrite tr addr secured msg) := ⟨_, fun _ => rfl⟩
theorem errorInjection (tr addr secured msg) : Statement (.errorInjection tr addr secured msg) := ⟨_, fun _ => rfl⟩
theorem registerWrite (fn off bytes err flash) : Statement (.registerWrite fn off bytes err flash) := ⟨_, fun _ => rfl⟩
theorem vfvecWrite (vf value) : Statement (.vfvecWrite vf value) := ⟨_, fun _ => rfl⟩
theorem eventRingEnable (fn value) : Statement (.eventRingEnable fn value) := ⟨_, fun _ => rfl⟩
theorem overflowClear (fn value) : Statement (.overflowClear fn value) := ⟨_, fun _ => rfl⟩
theorem mailboxSubmit (value flash) : Statement (.mailboxSubmit value flash) := ⟨_, fun _ => rfl⟩
theorem mailboxResponseRelease (flash) : Statement (.mailboxResponseRelease flash) := ⟨_, fun _ => rfl⟩
theorem mailboxNotificationRelease : Statement (.mailboxNotificationRelease) := ⟨_, fun _ => rfl⟩
theorem msixUnmask (fn entry) : Statement (.msixUnmask fn entry) := ⟨_, fun _ => rfl⟩
theorem hostReadCompletion (fn addr data status err) : Statement (.hostReadCompletion fn addr data status err) := ⟨_, fun _ => rfl⟩
theorem flrVf (vf) : Statement (.flrVf vf) := ⟨_, fun _ => rfl⟩
theorem pfReset : Statement (.pfReset) := ⟨_, fun _ => rfl⟩
theorem perstAssert : Statement (.perstAssert) := ⟨_, fun _ => rfl⟩
theorem perstRelease : Statement (.perstRelease) := ⟨_, fun _ => rfl⟩
theorem porAssert (ns) : Statement (.porAssert ns) := ⟨_, fun _ => rfl⟩
theorem porRelease (flash) : Statement (.porRelease flash) := ⟨_, fun _ => rfl⟩
theorem ready (rate) : Statement (.ready rate) := ⟨_, fun _ => rfl⟩
theorem bootWatchdog (flash) : Statement (.bootWatchdog flash) := ⟨_, fun _ => rfl⟩
theorem bootFailure (reason flash) : Statement (.bootFailure reason flash) := ⟨_, fun _ => rfl⟩
theorem warmReset (flash) : Statement (.warmReset flash) := ⟨_, fun _ => rfl⟩
theorem railFault (rail us) : Statement (.railFault rail us) := ⟨_, fun _ => rfl⟩
theorem refclkFabLoss : Statement (.refclkFabLoss) := ⟨_, fun _ => rfl⟩
theorem refclkAonLoss : Statement (.refclkAonLoss) := ⟨_, fun _ => rfl⟩
theorem trst (low) : Statement (.trst low) := ⟨_, fun _ => rfl⟩
theorem bypass (shift) : Statement (.bypass shift) := ⟨_, fun _ => rfl⟩
theorem idcode (shift) : Statement (.idcode shift) := ⟨_, fun _ => rfl⟩
theorem samplePreload (shift) : Statement (.samplePreload shift) := ⟨_, fun _ => rfl⟩
theorem extest (shift) : Statement (.extest shift) := ⟨_, fun _ => rfl⟩
theorem clamp (shift) : Statement (.clamp shift) := ⟨_, fun _ => rfl⟩
theorem highz (shift) : Statement (.highz shift) := ⟨_, fun _ => rfl⟩
theorem pcSample (tile) : Statement (.pcSample tile) := ⟨_, fun _ => rfl⟩
theorem captureComplete (tile) : Statement (.captureComplete tile) := ⟨_, fun _ => rfl⟩
theorem obsDrain (tile) : Statement (.obsDrain tile) := ⟨_, fun _ => rfl⟩
theorem eventCollect : Statement (.eventCollect) := ⟨_, fun _ => rfl⟩
theorem persistentRingWrite : Statement (.persistentRingWrite) := ⟨_, fun _ => rfl⟩
theorem refclkAonReturn (flash) : Statement (.refclkAonReturn flash) := ⟨_, fun _ => rfl⟩
theorem railsInTolerance (flash) : Statement (.railsInTolerance flash) := ⟨_, fun _ => rfl⟩
theorem frameOutFall : Statement (.frameOutFall) := ⟨_, fun _ => rfl⟩
theorem injectionCapRelease (tenant) : Statement (.injectionCapRelease tenant) := ⟨_, fun _ => rfl⟩
theorem persistentValueWrite : Statement (.persistentValueWrite) := ⟨_, fun _ => rfl⟩
theorem configurationWrite (fn field value) : Statement (.configurationWrite fn field value) := ⟨_, fun _ => rfl⟩
theorem registerRead (fn off len) : Statement (.registerRead fn off len) := ⟨_, fun _ => rfl⟩

end Sys2Proof.Laws.Shape
end

