-- ==== Sys2Proof/Laws/TileCore.lean ====
section
/-!
SUPPORT. The tile core: registers, the fetch, and what one core row does.
-/
namespace Sys2Proof.Machine

/-! ## Registers -/

@[simp] theorem readG_zero (t : Nat) (d : Dev) : readG t 0 d = 0 := rfl
@[simp] theorem writeG_zero (t : Nat) (v : BitVec 64) (d : Dev) : writeG t 0 v d = d := rfl

/-- A register of the tile read after a write. -/
theorem readG_writeG (t r j : Nat) (v : BitVec 64) (d : Dev) :
    readG t j (writeG t r v d) = if j = r ∧ r ≠ 0 then v else readG t j d := by
  unfold readG writeG
  by_cases hr : r = 0
  · simp [hr]
  · by_cases hj : j = 0
    · simp [hj, Ne.symm hr]
    · simp only [hj, hr, if_false, getTile_modTile_same, Sparse.get_set]
      by_cases h : j = r <;> simp [h, hr]

theorem readG_of_tile {t : Nat} {d d' : Dev} (h : (getTile t d').g = (getTile t d).g) (j : Nat) : readG t j d' = readG t j d := by
  simp [readG, h]

/-- A register write leaves the rest of its tile. -/
theorem getTile_writeG (t r : Nat) (v : BitVec 64) (d : Dev) :
    getTile t (writeG t r v d) = { getTile t d with g := (getTile t (writeG t r v d)).g } := by
  unfold writeG; split <;> simp

theorem getTile_writeG_other {t u : Nat} (r : Nat) (v : BitVec 64) (d : Dev) (h : u ≠ t) :
    getTile u (writeG t r v d) = getTile u d := by
  unfold writeG; split <;> simp [getTile_modTile, h]

theorem writeG_eq (t r : Nat) (v : BitVec 64) (d : Dev) : writeG t r v d = { d with tiles := (writeG t r v d).tiles } := by
  unfold writeG; split <;> rfl

/-! ## The fetch -/

/-- A readable instruction word: nothing but its correction, the count and the event of it. -/
theorem imemCheck_good {t a : Nat} {d : Dev} (h : Sparse.get 0 d.mem.imemErr (a / 8) ≤ 1) :
    (imemCheck t a d).1 = true ∧
    (imemCheck t a d).2 = { d with tcount := (imemCheck t a d).2.tcount, ev := (imemCheck t a d).2.ev,
                                   mem.imemErr := (imemCheck t a d).2.mem.imemErr } ∧
    ∀ w, Sparse.get 0 (imemCheck t a d).2.mem.imemErr w ≤ Sparse.get 0 d.mem.imemErr w := by
  unfold imemCheck
  by_cases h0 : Sparse.get 0 d.mem.imemErr (a / 8) = 0
  · simp [h0]
  · have h1 : Sparse.get 0 d.mem.imemErr (a / 8) = 1 := by omega
    simp only [h1]
    refine ⟨rfl, ?_, ?_⟩ <;> simp only [if_true, if_neg (show ¬ (1 = 0) by decide)] <;>
      rw [raiseT_eq _ _ _ _ _ (by decide)]
    · rfl
    · intro w
      show Sparse.get 0 (Sparse.set 0 d.mem.imemErr (a / 8) 0) w ≤ _
      rw [Sparse.get_set]; split <;> omega

/-- `e` is `d` with the work of a tile in hand, after the fetch of a readable word. -/
def Fetched (d e : Dev) : Prop :=
  e = { d with twin.tag := e.twin.tag, tcount := e.tcount, ev := e.ev, mem.imemErr := e.mem.imemErr } ∧
    ∀ w, Sparse.get 0 e.mem.imemErr w ≤ Sparse.get 0 d.mem.imemErr w

theorem Fetched.tiles {d e : Dev} (h : Fetched d e) : e.tiles = d.tiles := by rw [h.1]
theorem Fetched.imem {d e : Dev} (h : Fetched d e) : e.mem.imem = d.mem.imem := by rw [h.1]
theorem Fetched.getTile {d e : Dev} (h : Fetched d e) (u : Nat) : getTile u e = Machine.getTile u d := by
  simp [Machine.getTile, h.tiles]
theorem Fetched.readG {d e : Dev} (h : Fetched d e) (u j : Nat) : readG u j e = Machine.readG u j d := by
  simp [Machine.readG, h.getTile]
theorem Fetched.fetchAddr {d e : Dev} (h : Fetched d e) (u : Nat) : fetchAddr u e = Machine.fetchAddr u d := by
  simp [Machine.fetchAddr, h.getTile]

/-- A further readable word. -/
theorem Fetched.check {d e : Dev} (h : Fetched d e) {t a : Nat} (ha : Sparse.get 0 d.mem.imemErr (a / 8) ≤ 1) :
    (imemCheck t a e).1 = true ∧ Fetched d (imemCheck t a e).2 := by
  have hg := imemCheck_good (t := t) (a := a) (d := e) (Nat.le_trans (h.2 _) ha)
  refine ⟨hg.1, ?_, fun w => Nat.le_trans (hg.2.2 w) (h.2 w)⟩
  rw [hg.2.1, h.1]

/-- A core at a readable instruction of the row executes it on the device as the fetch has left it. -/
theorem coreRow_at {α : Type} {t : Nat} {i : CoreInstr} {d : Dev} {sel : Option CoreInstr → Option α} {x : α}
    (h : AtInstr t i d) (hs : sel (some i) = some x) (run : α → Dev → Dev) :
    ∃ e, Fetched d e ∧ ∃ b, asTile t (coreRow t sel run) d = untagged { run x e with ev := b } := by
  obtain ⟨-, h1, h2, h3, h4⟩ := h
  have hg := imemCheck_good (t := t) (a := fetchAddr t d) (d := tagWork (segFrames t d) d) h4
  refine ⟨(imemCheck t (fetchAddr t d) (tagWork (segFrames t d) d)).2, ?_,
    (forRank (onTaken t d) (fun e => run x (imemCheck t (fetchAddr t e) e).2) (tagWork (segFrames t d) d)).ev, ?_⟩
  · refine ⟨?_, hg.2.2⟩
    rw [hg.2.1]; rfl
  · have hr : coreRow t sel run (tagWork (segFrames t d) d) =
        forRank (onTaken t d) (fun e => run x (imemCheck t (fetchAddr t e) e).2) (tagWork (segFrames t d) d) := by
      have e1 : coreRuns t (tagWork (segFrames t d) d) = true := h1
      have e2 : (getTile t (tagWork (segFrames t d) d)).pc < 262144 := h2
      have e3 : CoreInstr.decode (fetchWord t (tagWork (segFrames t d) d)) = some i := h3
      have e4 : (imemCheck t (fetchAddr t (tagWork (segFrames t d) d)) (tagWork (segFrames t d) d)).1 = true := hg.1
      have e5 : onTaken t (tagWork (segFrames t d) d) = onTaken t d := rfl
      simp only [coreRow, e1, e2, e3, hs, if_true, e5, forRank, e4]
    simp only [asTile, hr]
    rw [forRank_eq]
    rfl

/-- A row whose execution writes one register and goes on makes a core step. -/
theorem coreRow_step {α : Type} {t r pc : Nat} {v : BitVec 64} {i : CoreInstr} {d : Dev}
    {sel : Option CoreInstr → Option α} {x : α} {run : α → Dev → Dev} (h : AtInstr t i d) (hs : sel (some i) = some x)
    (hr : ∀ e, Fetched d e → ∃ e', Fetched d e' ∧ run x e = setPc t pc (writeG t r v e')) :
    CoreStep t r v pc d (settle (asTile t (coreRow t sel run) d)) := by
  obtain ⟨e0, he0, ev, hrow⟩ := coreRow_at h hs run
  obtain ⟨e, he, hrun⟩ := hr e0 he0
  rw [hrow, hrun]
  have hg : ∀ u, getTile u (settle (untagged { setPc t pc (writeG t r v e) with ev := ev })) =
      getTile u (setPc t pc (writeG t r v e)) := fun u => rfl
  refine ⟨fun j => ?_, ?_, fun u hu => ?_, ?_⟩
  · rw [readG_of_tile (d := writeG t r v e) (by rw [hg]; simp [setPc]), readG_writeG, he.readG]
  · rw [hg, setPc, getTile_modTile_same, getTile_writeG, he.getTile]
  · rw [hg, setPc, getTile_modTile, if_neg hu, getTile_writeG_other _ _ _ hu, he.getTile]
  · rw [setPc, writeG_eq, he.1]
    rfl

theorem advance_eq (t : Nat) (d : Dev) : advance t d = setPc t ((getTile t d).pc + 4) d := rfl

theorem writeNext_eq (t r : Nat) (v : BitVec 64) (d : Dev) :
    writeNext t r v d = setPc t ((getTile t d).pc + 4) (writeG t r v d) := by
  rw [writeNext, advance_eq, getTile_writeG]

end Sys2Proof.Machine
end

