-- ==== Sys2Proof/Tests/Slice0.lean ====
section
/-!
SUPPORT. The model's own tests: ill-formed commands are refused, words written out from the spec's tables decode to
what they stand for, single steps give what the spec's tables say, and the hypotheses of every statement are met by
some state. Expected values are worked out by hand from the tables named.
-/
namespace Sys2Proof.Tests
open Sys2Proof.Machine

/-! ## Small states -/

/-- A segment of tenant 1 for run frame 5. -/
def seg : Segment :=
  { tenant := 1, ctx := 0, rank := 0, index := 0, runFrame := 5, entry := 0, observed := false, startedAt := 0
    ended := false, slipped := false }

/-- Tile 0 as it stands, of tenant 1, whose run is Running. -/
def tileDev (x : Tile) : Dev := { runs := [(1, { state := .running })], tiles := [(0, { x with owner := 1 })] }

/-- The core of tile 0 at pc 0, where word `w` stands, with registers `g`. -/
def coreDev (w : BitVec 32) (g : Table (BitVec 64)) : Dev :=
  { tileDev { seg := some seg, g := g } with mem.imem := Mem.writeN [] (imemBase 0 1 0) (leBytes 4 w.toNat) }

/-- The device after a command; as it was where the command is refused. -/
def after (c : Instr) (d : Dev) : Dev :=
  match exec c { pending := [], dev := d } with
  | .next s => s.dev
  | _ => d

/-! ## Ill-formed commands, one for each check -/

theorem test_ill_formed :
    (Instr.alu 128).wellFormed = false ∧ (Instr.niPut 129).wellFormed = false ∧ (Instr.wordRetire 0 7).wellFormed = false ∧
    (Instr.dmaCopy 130).wellFormed = false ∧ (Instr.lockLoss 9).wellFormed = false ∧ (Instr.routerUnicast 10 0 false).wellFormed = false ∧
    (Instr.routerUnicast 0 8 false).wellFormed = false ∧ (Instr.trainingPhaseTimeout 0 6).wellFormed = false ∧
    (Instr.trainingPhaseTimeout 0 0).wellFormed = false ∧ (Instr.collectorEvaluation 2).wellFormed = false ∧
    (Instr.guardBand 1024).wellFormed = false ∧ (Instr.resultExpiry 0 16).wellFormed = false ∧
    (Instr.nop 1152).wellFormed = false ∧ (Instr.doorbell 1 64 0 false).wellFormed = false ∧ (Instr.doorbell 0 1152 0 false).wellFormed = false ∧
    (Instr.doorbell 1025 0 0 false).wellFormed = false ∧ (Instr.invalidateAll 1025 0).wellFormed = false ∧
    (Instr.msixUnmask 0 64).wellFormed = false ∧ (Instr.flrVf 1024).wellFormed = false ∧
    (Instr.watchRelease 16384).wellFormed = false ∧ (Instr.responseTimeout 16384).wellFormed = false ∧
    (Instr.laneRampStep 0 16).wellFormed = false ∧ (Instr.laneRampStep 4 8).wellFormed = false ∧
    (Instr.laneRampStep 8 32).wellFormed = false ∧ (Instr.railFault 5 0).wellFormed = false ∧
    (Instr.tabingRead 5 0 false []).wellFormed = false ∧ (Instr.getEndpointId 0 0).wellFormed = false ∧
    (Instr.patrolScrub 0x4800000000).wellFormed = false := by decide

/-- The same units at the highest number they have. -/
theorem test_well_formed :
    (Instr.alu 127).wellFormed = true ∧ (Instr.niPut 128).wellFormed = true ∧ (Instr.wordRetire 128 6).wellFormed = true ∧
    (Instr.dmaCopy 129).wellFormed = true ∧ (Instr.lockLoss 8).wellFormed = true ∧ (Instr.routerUnicast 9 7 true).wellFormed = true ∧
    (Instr.trainingPhaseTimeout 8 5).wellFormed = true ∧ (Instr.nop 1151).wellFormed = true ∧
    (Instr.doorbell 1024 63 0 false).wellFormed = true ∧ (Instr.laneRampStep 8 31).wellFormed = true ∧
    (Instr.tabingRead 4 0 false []).wellFormed = true ∧ (Instr.patrolScrub 0x47FFFFFFFF).wellFormed = true := by decide

theorem test_refused_unit : exec (.alu 128) { pending := [], dev := {} } = .refused .noSuchUnit := rfl

/-! ## Words of the tile core, written out bit by bit from Tables 6.2 and 6.3 -/

theorem test_decode_core :
    CoreInstr.decode 0b000000_00001_00010_00011_00000000001#32 = some (.alu .sub 1 2 3) ∧
    CoreInstr.decode 0b000001_00001_00010_1111111111111111#32 = some (.addi 1 2 0xFFFF) ∧
    CoreInstr.decode 0b000011_00001_00010_0000000000000101#32 = some (.logic .or_ 1 2 5) ∧
    CoreInstr.decode 0b000111_00001_00010_0000000000_111111#32 = some (.shift .sar 1 2 63) ∧
    CoreInstr.decode 0b001010_00001_00010_0000000000000111#32 = some (.ins 2 1 2 7) ∧
    CoreInstr.decode 0b010000_00100_00101_0000000000000010#32 = some (.ldw 4 5 2) ∧
    CoreInstr.decode 0b010110_00100_00101_1111111111111110#32 = some (.branch .lt 4 5 0xFFFE) ∧
    CoreInstr.decode 0b011010_00001_000000000000000000011#32 = some (.jal 1 3) ∧
    CoreInstr.decode 0b011011_00001_00010_0000000000000100#32 = some (.jalr 1 2 4) ∧
    CoreInstr.decode 0b100000_00000_00001_1_000000000010000#32 = some (.cadd 0 1 true 16) ∧
    CoreInstr.decode 0b100010_00011_00001_0_000000000101111#32 = some (.cwaitt 3 1 false 47) ∧
    CoreInstr.decode 0b101000_00000_00100_0000000000000000#32 = some (.issue 4) ∧
    CoreInstr.decode 0b101001_00000_00000_000000000_1111111#32 = some (.waite 0 127) ∧
    CoreInstr.decode 0b110000_00001_00000_0000000000_000010#32 = some (.rsr 1 2) ∧
    CoreInstr.decode 0b111110_00000000000000000000000000#32 = some .end_ := by decide

/-- A reserved field, an unlisted FN and an unlisted opcode make an illegal instruction (R136). -/
theorem test_decode_illegal :
    CoreInstr.decode 0b000101_00001_00010_0000000001_000001#32 = none ∧
    CoreInstr.decode 0b000000_00001_00010_00011_00000001011#32 = none ∧
    CoreInstr.decode 0b111111_00000000000000000000000000#32 = none ∧
    CoreInstr.decode 0b111110_00000000000000000000000001#32 = none := by decide

/-! ## Steps of the tile core -/

/-- ADDI with IMM = -1: 5 - 1, and the pc goes on by 4. -/
theorem test_addi : readG 0 1 (after (.addi 0) (coreDev (CoreInstr.encode (.addi 1 2 0xFFFF)) [(2, 5)])) = 4 ∧
    (getTile 0 (after (.addi 0) (coreDev (CoreInstr.encode (.addi 1 2 0xFFFF)) [(2, 5)]))).pc = 4 := by decide

/-- A row for another instruction does nothing. -/
theorem test_other_row : (getTile 0 (after (.jal 0) (coreDev (CoreInstr.encode (.addi 1 2 0xFFFF)) [(2, 5)]))).pc = 0 := by decide

/-- BLT of -1 and 1 with OFF = 3 goes to 12; JAL writes the link. -/
theorem test_branch : (getTile 0 (after (.blt 0) (coreDev (CoreInstr.encode (.branch .lt 1 2 3)) [(1, -1), (2, 1)]))).pc = 12 ∧
    readG 0 7 (after (.jal 0) (coreDev (CoreInstr.encode (.jal 7 2)) [])) = 4 := by decide

/-- A branch to a negative pc ends the segment and the run halts at the next tick. -/
theorem test_bad_target :
    (getRun 1 (after (.jal 0) (coreDev (CoreInstr.encode (.jal 7 0x1FFFFF)) []))).haltPending = true := by decide

/-- An illegal word raises CORE_ILLEGAL. -/
theorem test_illegal : ((after (.illegalInstruction 0) (coreDev 0xFFFFFFFF []))).ev.queue.map (·.num) = [evCoreIllegal] := by decide

/-! ## The hypotheses of the statements, met -/

/-- CoreArithmetic, CoreControlFlow, CoreCounters, CoreIssue: a core at an instruction of each row. -/
theorem witness_AtInstr : ∀ i ∈ ([.alu .add 1 2 3, .addi 1 2 3, .logic .and_ 1 2 3, .logic .or_ 1 2 3, .logic .xor 1 2 3,
      .shift .shl 1 2 3, .shift .shr 1 2 3, .shift .sar 1 2 3, .ins 1 2 3 4, .slti 1 2 3, .rsr 1 2, .ldw 1 2 3,
      .branch .eq 0 0 1, .branch .ne 1 0 1, .branch .lt 0 1 1, .branch .ge 0 0 1, .branch .ltu 0 1 1, .branch .geu 0 0 1,
      .jal 1 1, .jalr 1 0 4, .cadd 0 1 false 0, .cread 1 0 false 47, .cwait 0 1 false 0, .cwaitt 2 1 false 0,
      .issue 2, .waite 0 1, .end_] : List CoreInstr), AtInstr 0 i (coreDev i.encode [(1, 1)]) := by
  simp only [AtInstr]; decide

/-- CoreArithmetic: a special register that is listed, and a good LDW address. -/
theorem witness_CoreArithmetic : specialReg 0 2 (coreDev 0 []) = some 0 ∧ specialReg 0 10 (coreDev 0 []) = none ∧
    (let d := coreDev 0 [(1, 262136)]
     (readG 0 1 d).toNat % 8 = 0 ∧ (readG 0 1 d).toNat < 262144 ∧
     Sparse.get 0 d.mem.imemErr ((fetchAddr 0 d - (getTile 0 d).pc + 262136) / 8) ≤ 1) := by decide

/-- CoreControlFlow: targets at both ends of what is good, and past them. -/
theorem witness_CoreControlFlow : targetGood 0 = true ∧ targetGood 262140 = true ∧ targetGood 262144 = false ∧
    targetGood (-4) = false ∧ targetGood 2 = false := by decide

/-- CoreCounters: counters that may be named, a met wait, and one that is not. -/
theorem witness_CoreCounters :
    let d := { coreDev 0 [(1, 1)] with ctr.blockOwner := [(1, 2)], ctr.pool := [(16, 1)] }
    counterNamed 0 false 47 d = true ∧ counterNamed 0 true 16 d = true ∧ counterNamed 0 false 48 d = false ∧
    counterNamed 0 true 0 d = false ∧ Sparse.get 0 d.ctr.err 47 = 0 ∧ 0 < (readG 0 1 d).toInt ∧
    (readG 0 1 d).toNat ≤ poolValue 16 d ∧ localValue 0 0 d < (readG 0 1 d).toNat ∧ watching (.core 0) d = false ∧
    (readG 0 2 d).toNat = 0 ∧ 0 < (readG 0 1 d).toNat ∧ poolPoisoned 16 { d with ctr.poison := [(16, true)] } = true := by decide

/-- CoreReleases: held cores of each kind whose wait is over. -/
theorem witness_CoreReleases :
    let w (x : CoreWait) := tileDev { seg := some seg, wait := x, g := [(2, 7)] }
    (∀ x ∈ ([.counter false 0 0, .timed false 0 0 3 0, .engines 0x7F, .issueFull 2] : List CoreWait), coreLive 0 (w x) = true ∧
      tracing 0 (w x) = false) ∧ waitMet 0 false 0 0 (w (.counter false 0 0)) = true ∧
    waitMet 0 false 0 1 (w (.timed false 0 1 3 0)) = false ∧ 0 ≤ ccNow (w .free) ∧ enginesDone 0 0x7F (w .free) = true ∧
    headerGood (BitVec.ofNat 128 (63 * 2 ^ 12 + 63 * 2 ^ 23 + 7)) = false := by decide
/-- A word of engine `e` and OP `o` with no counters (WCTR = SCTR = 63) and fields `f` above the header. -/
def hdr (e o f : Nat) : BitVec 128 := BitVec.ofNat 128 (e + o * 2 ^ 4 + 63 * 2 ^ 12 + 63 * 2 ^ 23 + f * 2 ^ 32)

/-- Word `w` of tenant 1, waiting with a snapshot of 0. -/
def qw (w : BitVec 128) (ph : WordPhase) : QWord :=
  { word := w, snap := 0, tenant := 1, ctx := 0, reel := none, local2 := 0, number := 0, phase := ph, status := 0 }

/-- Word `w` at the head of engine `e`'s queue of tile 0. -/
def headDev (e : Nat) (w : BitVec 128) : Dev := tileDev { queues := [(e, [qw w .queued])], issued := 1 }

/-- Word `w` in execution by engine `e` of tile 0. -/
def execDev (e : Nat) (w : BitVec 128) (ph : WordPhase) : Dev := tileDev { exec := [(e, [qw w ph])], issued := 1 }

/-- CoreIssue: a good word with room for it, a full queue, and engines with and without work. -/
theorem witness_CoreIssue :
    let d := coreDev (CoreInstr.encode (.issue 2)) [(2, (hdr 0 1 0).extractLsb' 0 64)]
    AtInstr 0 (.issue 2) d ∧ headerGood (readG 0 3 d ++ readG 0 2 d) = true ∧ wEng (readG 0 3 d ++ readG 0 2 d) = 0 ∧
    (queueOf 0 0 d).length < queueDepth 0 ∧
    queueDepth 0 ≤ (queueOf 0 0 (setQueue 0 0 (List.replicate 8 (qw 0 .queued)) d)).length ∧
    enginesDone 0 0x7F d = true ∧ enginesDone 0 1 (setQueue 0 0 [qw 0 .queued] d) = false := by
  simp only [AtInstr]; decide

/-- CoreTraps: a state for each trap. -/
theorem witness_CoreTraps :
    let at_ (i : CoreInstr) : Dev := { coreDev i.encode [(1, 3), (2, -1), (3, 1)] with ctr.blockOwner := [(1, 2)] }
    let ok (d : Dev) : Bool := coreRuns 0 d && decide ((getTile 0 d).pc < 262144) && d.mem.imemErr.isEmpty
    (∀ i ∈ ([.rsr 1 10, .jal 1 0x1FFFFF, .jalr 1 1 0, .ldw 1 1 0, .cadd 0 1 false 48, .cadd 0 0 false 47, .cadd 0 3 false 47,
       .cwait 0 1 true 15, .cwaitt 1 1 true 0, .cread 1 0 false 48] : List CoreInstr),
       ok (at_ i) = true ∧ CoreInstr.decode (fetchWord 0 (at_ i)) = some i) ∧
    CoreInstr.decode (fetchWord 0 (coreDev 0xFFFFFFFF [])) = none ∧ ok (coreDev 0xFFFFFFFF []) = true ∧
    targetGood (-4) = false ∧ targetGood ((readG 0 1 (at_ .end_)) + (0 : BitVec 16).signExtend 64 * 4).toNat = false ∧
    (readG 0 1 (at_ .end_)).toNat % 8 ≠ 0 ∧ counterNamed 0 false 48 (at_ .end_) = false ∧
    counterNamed 0 true 15 (at_ .end_) = false ∧ counterNamed 0 false 47 (at_ .end_) = true ∧
    (readG 0 0 (at_ .end_)).toInt ≤ 0 ∧
    2 ^ 64 ≤ localValue 0 47 (modTile 0 (fun x => { x with lc := [(47, -1)] }) (at_ .end_)) + (readG 0 3 (at_ .end_)).toNat ∧
    (getRun (coreTenant 0 (at_ .end_)) (at_ .end_)).running = true := by decide

/-- A ready device in clapper role `r` whose last tick was number 7, at time `now`. -/
def clkDev (r now : Nat) : Dev :=
  let d : Dev := { now := now, boot := { state := 1 }, ports := [(0, { state := 2 }), (8, { state := 2 })]
                   clk := { frame := 7, placed := true, lastTick := 1000 } }
  dictPut 0x2000 5 0 (dictPut 0x2000 2 r d)

/-- TickSets: a clapper near its next tick and one with a second copy due; a follower that hears a first copy in time,
one late, one of a known tick; a bad copy; a copy off the tree. -/
theorem witness_TickSets :
    let d := clkDev 2 (framePeriod {})
    let f := clkDev 0 1000
    let good (n lead : Nat) : BitVec 128 := tickSet n 10 false 56 lead
    (clapperRole d ≠ 0 ∧ lastAnnounced d = false ∧ (nextOwn d).2.1 ≤ d.now + dictGet 0x2000 4 d * tUs ∧ d.clk.lastTick + tUs ≤ d.now) ∧
    (clapperRole f = 0 ∧ crc16Good (good 8 0) = true ∧ bitsOf (good 8 0).toNat 56 8 = 56 ∧ parentPort f < 9 ∧
      knownTick 8 f = false ∧ knownTick 7 f = true ∧ (getPort 0 f).state = 2) ∧
    (let t (v : BitVec 128) : Int := (f.now : Int) + bitsOf v.toNat 64 32 - delayUnits 0 f
     (f.now : Int) + tUs ≤ t (good 8 (20000 + 1000)) ∧ t (good 8 0) < (f.now : Int) + tUs) ∧
    crc16Good (good 8 0 ^^^ 1) = false ∧ 8 ≠ parentPort f := by decide +kernel

/-- TickFaults: a missed tick, sixteen of them with and without a run, edges within 20 ns, within 1 us and further, a
fourth missing edge, and calibration sets of each kind. -/
theorem witness_TickFaults :
    let d := clkDev 0 (framePeriod {} + 1000)
    let c (e : Nat) : Dev := { clkDev 2 100000 with clk := { edges := [(e, 0)], edgeMissing := 3, edgeLocked := true } }
    (clapperRole d = 0 ∧ d.clk.lastTick + framePeriod d ≤ d.now + tUs ∧ d.clk.planned = []) ∧
    (let l := { d with clk.missed := 16 }
     l.clk.lost = false ∧ runningTenants l = [] ∧ runningTenants { l with runs := [(1, { state := .running })] } ≠ []) ∧
    nearestEdge (clkDev 2 0) = none ∧
    (nearestEdge (c 100400) = some (100400, 0) ∧ ((c 0).now - (100400 : Int)).natAbs ≤ 20 * tNs ∧ (c 0).clk.phaseError = 0) ∧
    (20 * tNs < ((c 0).now - (80000 : Int)).natAbs ∧ ((c 0).now - (80000 : Int)).natAbs ≤ tUs) ∧
    (tUs < ((c 0).now - (79999 : Int)).natAbs ∧ nearestEdge (c 79999) = some (79999, 0)) ∧
    (4 ≤ (c 0).clk.edgeMissing + ((c 79999).clk.edges.filter fun e => decide (e.1 + tUs < (c 0).now)).length ∧
      (c 0).clk.edgeHold = false) ∧
    (crc16Good (calibrationSet 0 0 0) = true ∧ bitsOf (calibrationSet 0 0 0).toNat 0 2 = 0 ∧
      bitsOf (calibrationSet 1 5 6).toNat 0 2 = 1 ∧ crc16Good (calibrationSet 1 5 6 ^^^ 1) = false ∧ (getPort 8 d).state = 2) := by decide +kernel

/-- GuardBandSlips: a run at its guard band with nothing unfinished, before it, and with one segment late. -/
theorem witness_GuardBandSlips :
    let r : Run := { state := .running, spanLeft := 1, index := 5, con := { guard := 4, policy := 1 } }
    let d (now : Nat) : Dev := { clkDev 0 now with runs := [(1, r)] }
    let at_ := guardTime 1 (d 0)
    (getRun 1 (d at_)).guarded ≠ 5 + 1 ∧ guardTime 1 (d at_) ≤ (d at_).now ∧ (d at_).tiles = [] ∧ (d at_).coll.insts = [] ∧
    (d at_).coll.chains = [] ∧ (d (at_ - 1)).now < guardTime 1 (d (at_ - 1)) ∧
    (unfinished 0 1 (tileDev { seg := some seg }) = [seg] ∧ seg.runFrame = (getRun 1 (d 0)).index) ∧
    r.con.policy = 1 ∧ 0 < ({ policy := 2, notice := 1 } : Container).notice := by decide

/-- Stretches: request packets that R48 keeps and discards, for runs in each state, in time and late. -/
theorem witness_Stretches :
    let pay (target source logf : Nat) : Nat := target + source * 2 ^ 48 + logf * 2 ^ 52 + 1 * 2 ^ 56
    let pk (b : Nat) : Packet := { typ := 5, payload := leBytes 16 b }
    let d (b : Nat) : Dev := { clkDev 0 0 with net.local_ := [pk b] }
    parseStretch (pay 9 5 0) = none ∧ parseStretch (pay 9 1 6) = none ∧ parseStretch (pay 9 4 1) = none ∧
    parseStretch (pay 9 3 5) = some { target := 9, source := 3, logf := 5, fin := false } ∧
    parseStretch (pay 9 4 0) = some { target := 9, source := 4, logf := 0, fin := false } ∧
    targetPassed 8 (d 0) = false ∧ targetPassed 7 (d 0) = true ∧ bitsOf (pay 9 3 5) 56 10 = 1 ∧
    (takeStretchPacket false (d (pay 9 3 5))).isSome = true ∧ (takeStretchPacket true (d (pay 9 4 0))).isSome = true ∧
    blockOf (pk (pay 9 3 5)) = pay 9 3 5 := by decide

/-- BoundaryWork: a prepared boundary with and without a waiting commit, one without a tick, and a teardown. -/
theorem witness_BoundaryWork :
    let b := clkDev 0 (1000 + framePeriod {} - tUs)
    let c : Dev := { b with mgmt.commit.state := 1 }
    let n : Dev := { c with now := 1000 + tMs }
    let bad (d : Dev) : Dev := { d with mgmt.shadow := [(entryKey 0x2801 1, some 2)], mem.refreshDone := 7 }
    (b.clk.placed = true ∧ b.clk.prepared = false ∧ b.boot.state = 1 ∧ b.clk.lastTick + framePeriod b ≤ b.now + tUs) ∧
    commitWaits b = false ∧ (commitWaits c = true ∧ c.mgmt.commit.first ≤ c.clk.frame) ∧
    setRefusal 8 c = none ∧ notQuiet c = none ∧ (setRefusal 8 (bad c)).isSome = true ∧
    (noTick n = true ∧ n.mgmt.commit.polledAt + tMs ≤ n.now ∧ n.mgmt.commit.decided = none) ∧ noTick b = false ∧
    ({ b with mem.refreshDone := 7, clk.ticksPlaced := 1 } : Dev).mem.refreshAt < 1 := by decide +kernel

/-- RejectedWord, ConfigurationWords, OutputAndVectorWords: a word at the head of each queue, with its counter met and
short. -/
theorem witness_heads :
    (∀ p ∈ [(0, 1), (0, 2), (1, 1), (2, 2), (2, 3), (2, 4), (3, 0), (3, 8), (4, 0), (5, 0)],
      let w := hdr p.1 p.2 0
      AtHead 0 p.1 (qw w .queued) (headDev p.1 w) ∧ wOp w = p.2 ∧ wField w 82 46 = 0 ∧ cueBad w = false ∧
      CounterMet 0 (qw w .queued) (headDev p.1 w)) ∧
    (let w : BitVec 128 := hdr 0 1 0 ^^^ BitVec.ofNat 128 (63 * 2 ^ 12)
     CounterShort 0 { qw w .queued with snap := 1 } (headDev 0 w)) ∧
    wField (hdr 0 1 (2 ^ 95)) 82 46 ≠ 0 ∧ cueBad (hdr 0 1 0 ^^^ 0x100) = true ∧ (qw 0 .queued).reel = none := by
  simp only [AtHead, CounterMet, CounterShort]; decide +kernel

/-- An array word of one element of FP16 by FP16, and a matrix-vector word. -/
def arrayWord : BitVec 128 := hdr 0 0 (2 ^ 76 + 2 ^ 80)
def mvWord : BitVec 128 := hdr 1 0 (2 ^ 71 + 2 ^ 75)

/-- ComputeWords: words that pass their checks, one of a reserved OP, one that fails, and granted ones. -/
theorem witness_ComputeWords :
    arrayCheck 0 (qw arrayWord .queued) (headDev 0 arrayWord) = none ∧ mvCheck 0 (qw mvWord .queued) (headDev 1 mvWord) = none ∧
    (arrayCheck 0 (qw (hdr 0 0 0) .queued) (headDev 0 (hdr 0 0 0))).isSome = true ∧ 3 ≤ wOp (hdr 0 3 0) ∧ 2 ≤ wOp (hdr 1 2 0) ∧
    AtHead 0 0 (qw arrayWord .queued) (headDev 0 arrayWord) ∧ AtHead 0 1 (qw mvWord .queued) (headDev 1 mvWord) ∧
    CounterMet 0 (qw arrayWord .queued) (headDev 0 arrayWord) ∧
    (execOf 0 0 (execDev 0 arrayWord .granted)).find? (fun x => x.phase == .granted) = some (qw arrayWord .granted) ∧
    rowsHeld 0 [1, 2] (qw arrayWord .granted) (execDev 0 arrayWord .granted) = false ∧
    rowsHeld 0 [1, 2] { qw arrayWord .granted with number := 1 }
      (setExec 0 1 [qw mvWord .running] (execDev 0 arrayWord .granted)) = true := by
  simp only [AtHead, CounterMet]; decide +kernel

/-- OutputAndVectorWords: words that are good, and ones that fail each condition in turn. -/
theorem witness_OutputAndVectorWords :
    let d := headDev 2 (hdr 2 0 0)
    let run : SeqRun := { number := 0, record := leBytes 128 (2 ^ 32 + 128 * 2 ^ 48), base := 0, step := 0, left := 1, signalDue := false }
    let r := modTile 0 (fun x => { x with seqs := [(0, some run)] }) d
    (execOf 0 2 d).find? (fun x => x.phase == .running) = none ∧
    outputBad 0 (qw (hdr 2 0 0) .queued) d = false ∧ outputBad 0 (qw (hdr 2 0 (10 * 2 ^ 29)) .queued) d = true ∧
    conflict 0 (outRanges 0 (qw (hdr 2 0 0) .queued) d).flatten [(0, 1)] d = false ∧
    conflict 0 (outRanges 0 (qw (hdr 2 0 0) .queued) d).flatten [(0, 1)] r = true ∧
    rowsHeld 0 [0, 1] { qw (hdr 2 0 0) .queued with number := 1 } (setExec 0 0 [qw arrayWord .running] d) = true ∧
    rowsHeld 0 [0, 1] (qw (hdr 2 0 0) .queued) d = false ∧
    (∀ p ∈ [(0, 0), (1, 0), (2, 0), (3, 2 ^ 26), (4, 0), (5, 0), (6, 0), (7, 0), (8, 0)],
      vectorBad (hdr 3 p.1 p.2) = false ∧ conflict 0 (vecRanges (hdr 3 p.1 p.2)) [] d = false) ∧
    vectorBad (hdr 3 2 10) = true ∧ conflict 0 (vecRanges (hdr 3 0 0)) [] r = true ∧ (getTile 0 d).vrErr = [] := by decide +kernel

/-- WordRetirement: a finished word with and without a signal, a failed one, and a reel's on the network interface. -/
theorem witness_WordRetirement :
    let w : BitVec 128 := BitVec.ofNat 128 (47 * 2 ^ 23 + 7 * 2 ^ 29)
    let d := execDev 0 w .done
    let first (t e : Nat) (d : Dev) := (execOf t e d).find? fun q => q.phase == .done || q.phase == .failed
    first 0 0 d = some (qw w .done) ∧ first 0 1 d = none ∧ first 0 0 (execDev 0 w .failed) = some (qw w .failed) ∧
    wSctr w ≠ 63 ∧ localPoisoned 0 (wSctr w) d = false ∧ localValue 0 (wSctr w) d + wSadd w + 1 < 2 ^ 64 ∧
    wSctr (hdr 0 1 0) = 63 ∧
    first 128 6 (setExec 128 6 [{ qw w .done with reel := some (0, 0) }] {}) = some { qw w .done with reel := some (0, 0) } := by
  decide +kernel

/-- A cell record of one LSTM step on prepared inputs, of B = 1 and H = 128. -/
def cellRecord : Bytes := leBytes 128 (2 ^ 8 + 2 ^ 16 + 4 * 2 ^ 24 + 2 ^ 32 + 128 * 2 ^ 48)

/-- SequencerWords: a good record, a bad one, one past the end of scratch, a busy context, and granted steps. -/
theorem witness_SequencerWords :
    let w := hdr 4 0 0
    let d : Dev := { headDev 4 w with mem.phys := Mem.writeN [] (scratchAddr 0 0) cellRecord }
    let run : SeqRun := { number := 0, record := cellRecord, base := 0, step := 0, left := 1, signalDue := false }
    let r (k : Nat) := modTile 0 (fun x => { x with seqs := [(k, some run)] }) (execDev 4 w .granted)
    headOf 0 4 d = some (qw w .queued) ∧ wField w 94 34 = 0 ∧ chargeBad w = false ∧ seqRuns 0 d = [] ∧
    sBase w + 128 ≤ scratchSize ∧ recordBad 1 0 (Mem.readN d.mem.phys (scratchAddr 0 0) 128) d = false ∧
    conflict 0 (rRanges 0 cellRecord) [rRows cellRecord] d = false ∧ recordBad 1 0 (leBytes 128 0) d = true ∧
    scratchSize < sBase (hdr 4 0 (scratchSize / 64)) + 128 ∧
    (seqRuns 0 (r 0)).any (fun p => p.1 == sCtx w) = true ∧
    (seqRuns 0 (r 0)).find? (fun p => p.1 == 0) = some (0, run) ∧
    wordOf 0 4 0 (r 0) = some (qw w .granted) ∧ rWaits cellRecord = false := by decide +kernel

/-- A copy descriptor of `n` bytes from 0 to 64 of the tile's scratch. -/
def copyDesc (k flags n : Nat) : Bytes := leBytes 64 (k + 0x11 * 2 ^ 8 + flags * 2 ^ 32 + 64 * 2 ^ 128 + n * 2 ^ 192)

/-- DmaRows, PhysicalMemory: chains with a next descriptor, one in flight, a bad one and one that is written. -/
theorem witness_DmaRows :
    let x : Chain := { tile := 0, tenant := 1, ctx := 0, base := 0, count := 1, nextIndex := 0, flight := [], reel := none
                       number := 0, failed := 0 }
    let b := copyDesc 0 1 4
    let f : DmaRun := { index := 0, desc := b, started := true, written := true, failed := false, waitMseq := 0, chain := 0
                        row := 0, held := none }
    let d : Dev := { headDev 5 (hdr 5 0 0) with mem.phys := Mem.writeN [] (scratchAddr 0 0) b, chains := [x] }
    let going := { x with nextIndex := 1, flight := [{ f with written := false }] }
    let done_ := { x with nextIndex := 1, flight := [f] }
    AtHead 0 5 (qw (hdr 5 0 0) .queued) d ∧ chainConflict 0 0 1 d = false ∧ CounterMet 0 (qw (hdr 5 0 0) .queued) d ∧
    (({} : Dev).chains.any (fun x => x.tile == 0) = false ∧ d.chains.any (fun x => x.tile == 0) = true) ∧
    (d.chains.find? fun y => y.tile == 0) = some x ∧ x.nextIndex < x.count ∧
    dKind (Mem.readN d.mem.phys (scratchAddr 0 (x.base + 64 * x.nextIndex)) 64) = 0 ∧ configBad 0 1 b d = false ∧
    dDstSp b ≠ 6 ∧ configBad 0 1 (copyDesc 0 0 3) d = true ∧ (going.flight.find? fun f => !f.written && dKind f.desc == 0).isSome = true ∧
    writesMet done_ f d = true ∧ bitOf (dFlags b) 0 = true ∧ bitOf (dCounter b) 15 = false ∧ bitOf (dFlags b) 1 = false ∧
    localValue 0 (bitsOf (dCounter b) 0 14) d + dAmount b < 2 ^ 64 ∧
    (ownedBy 0 1 d = true ∧ d.mem.err = [] ∧ dSrcSp b = 1 ∧ dDstSp b = 1 ∧ dLen b % 4 = 0 ∧ Sparse.wf 0 d.mem.err = true ∧
      Memory.wf d.mem.phys = true) := by
  simp only [AtHead, CounterMet]; decide +kernel

/-- A device whose tenants' virtual addresses up to 2 MB lie at physical 0x200000 (one writable 2 MB page), with run `r`
of tenant 1. -/
def vmDev (r : Run) : Dev :=
  let phys := Mem.writeN (Mem.writeN [] 0 (leBytes 8 0x10001)) 0x10000 (leBytes 8 0x200007)
  dictPut 0x5001 0x0A 1 { tileDev {} with runs := [(1, r)], mem.phys := phys }

/-- A read of tile 70 fills its TLB and die 1's (R171); a tenant's entry leaves with its range, and a second access finds
the first one's leaf. -/
theorem test_tlb :
    let d := (vaRead 70 1 0 0x1000 64 (vmDev {})).2.2
    let x : Cached := ⟨1, 21, 0, 0x200007⟩
    d.mem.tlbs = [(70, [x]), (129, [x])] ∧ d.mem.walks = [(1, [⟨1, 34, 0, 0x10001⟩])] ∧
    (vaRead 71 1 0 0x1000 64 d).2.2.mem.tlbs = [(70, [x]), (71, [x]), (129, [x])] ∧
    (dropCached 1 0x10000 0x20000 d).mem.tlbs = [] ∧ (dropCached 1 0x200000 0x400000 d).mem.tlbs = d.mem.tlbs := by decide +kernel

/-- NetworkWords: operations that are sent, not sent and held back, and programs with and without the chain named. -/
theorem witness_NetworkWords :
    let w := hdr 6 0 0
    let d : Dev := { vmDev { state := .running, con := { rankCount := 1, prologue := 1, frameTable := 0x1000, ifOff := 0x2000 } } with
      net.rankCache := [(rankKey 1 0, 2 ^ 18)], rem.windowCache := [(windowKey 1 0 0, true)] }
    let x : Track := { tenant := 1, kind := 2, tile := 0, origin := .word 0 0 }
    let open_ : Track := { x with state := .send, kind := 0 }
    let prog (n : Nat) : Dev := { d with
      mem.phys := Mem.writeN (Mem.writeN d.mem.phys 0x202000 (leBytes 16 (0x100 + 32 * 2 ^ 64))) 0x202100 (leBytes 16 (n * 2 ^ 16)) }
    let chains (d : Dev) : Option Nat := (programAt 1 0 0 d).map fun p => bodyChains p.2 p.1.slots
    (niFieldBad w = false ∧ niFieldBad (hdr 6 4 0) = true ∧ niFieldBad (hdr 6 3 0) = false) ∧
    (dispatchOp x 0 d).1 = .sent ∧ (rankLookup 1 0 d).1 = .coord 0 ∧
    (rankLookup 1 1 d).1 = .invalid ∧ (dispatchOp { x with rank := 1 } 0 d).1 = .notSent 7 ∧
    (rankLookup 1 0 (vmDev { con := { rankCount := 1 } })).1 = .miss ∧
    putsOpen x.origin 1 0 d = false ∧ putsOpen x.origin 1 0 (setTrack 0 open_ d) = true ∧
    putFailed x.origin 1 0 { d with rem.failedPuts := [(x.origin.source, 1, 0)] } = true ∧
    tenantGet 1 0x33 (dictPut 0x5001 0x33 1 (setTrack 0 open_ d)) ≤ tenantEntries 1 (setTrack 0 open_ d) ∧
    chains (prog 1) = some 1 ∧ chains (prog 0) = some 0 ∧ programAt 1 0 0 { d with mem.phys := Mem.writeN d.mem.phys 0x201000 (leBytes 16 (0xFFFF * 2 ^ 16)) } = none := by decide +kernel

/-- SegmentsFinish: an ended segment with nothing left, and a stalled core whose other context can go on. -/
theorem witness_SegmentsFinish :
    let g : Segment := { seg with ended := true }
    let d := tileDev { seg := some g }
    let o : Dev := { tileDev { seg := some seg, wait := .engines 1, other := { seg := some { seg with ctx := 1 } } } with twin.state := 5 }
    g.ctx = (getTile 0 d).runCtx ∧ ctxDone 0 0 127 d = true ∧ mirroring d = false ∧ (getTile 0 d).nextSegs = [] ∧
    ctxStalled 0 o = true ∧ ctxReady 0 o = true ∧ o.fatal = false := by decide +kernel

/-- TileWindows: a waiting segment whose window is open, and one that runs past its window's end. -/
theorem witness_TileWindows :
    let d (now : Nat) (x : Tile) : Dev := dictPut 0x5001 9 (10 + 9 * 2 ^ 8) { tileDev x with now := now, clk.placed := true }
    let open_ (d : Dev) : Bool := decide (windowAt (windowOf 1 d).1 d ≤ d.now) && decide (d.now < windowAt (windowOf 1 d).2 d)
    let s := d 200000 { windowSegs := [seg] }
    let e := d 200001 { seg := some seg }
    windowOf 1 s = (10, 10) ∧ open_ s = false ∧
    (let w : Dev := dictPut 0x5001 9 (9 + 9 * 2 ^ 8) s
     open_ { w with now := 199999 } = true ∧ captureHolds 0 w = false ∧ obsEnabled 1 2 w = false ∧ (getTile 0 w).owner = seg.tenant) ∧
    windowTenant 0 (dictPut 0x5001 9 (1 + 9 * 2 ^ 8) e) = some 1 ∧ windowTenant 0 {} = none ∧
    windowAt (windowOf 1 e).2 e ≤ e.now ∧ e.now - 1000 < windowAt (windowOf 1 e).2 e ∧ (getRun 1 e).running = true := by decide +kernel

/-- TenantSwitches: a switch that may begin, one that may not, one that ends, and a save and restore that succeed (with
the context in host memory). -/
theorem witness_TenantSwitches :
    let d (x : Tile) : Dev := { vmDev { state := .running } with
      tiles := [(0, x)], mem.phys := Mem.writeN (vmDev {}).mem.phys 0x10000 [0x0F], pcie.busMaster := [(tenantFn 1 {}, true)]
      pcie.reads := [{ fn := tenantFn 1 {}, addr := 0x200000, len := 4096, done := some true }] }
    let w := d { owner := 1, switchTo := some seg }
    let q : QWord := { qw 0 .queued with reel := some (0, 0) }
    let a : Met × Dev := vaWrite 0 1 0 (contextVa 1 0 w) false (savedContext 0 w) w
    switchReady 0 w = true ∧ switchReady 0 (setQueue 0 0 [q] w) = false ∧ (getTile 0 w).owner ≠ 0xFFFF ∧
    ccNow { w with now := 100 } < 1 + 3344 ∧ 0 + 3344 ≤ ccNow { w with now := 400000 } ∧
    a.1 = .ok ∧ (vaFetch 0 1 0 (contextVa 1 0 a.2) 4096 a.2).1 = .ok := by decide +kernel

/-- Observation: a cycle that is sampled and one that is not; a written record whose ring takes it. -/
theorem witness_Observation :
    let d : Dev := dictPut 0x7800 2 1 { vmDev { state := .running } with
      obs := [(1, { on := true, enables := 7, area := 0x1000, rings := [(0, { base := 0x2000, log2 := 12 })] })] }
    let o (on : Bool) : Dev := { d with obs := [(1, { on := on })] }
    (bitOf (dictGet 0x7800 2 d) 0 = true ∧ ccNow d % 2 ^ dictGet 0x7800 1 d = 0 ∧ (getTObs 0 d).sampledAt ≠ ccNow d + 1) ∧
    bitOf (dictGet 0x7800 2 d) 1 = false ∧ obsEnabled (getTile 0 d).owner 1 (o false) = false ∧
    ringSettled 1 0 128 d = true ∧ (ringAdvance 1 0 128 (tagWork (segFrames 0 d) d)).1 = .written ∧
    (getObs 1 d).on = true ∧ (getObs 1 (o false)).on = false := by decide +kernel

/-- PowerCues: requests in each queue, a grant that the headroom covers to the last, and a ramp that may be released. -/
theorem witness_PowerCues :
    let r : CueReq := { tile := 0, eng := 0, number := 0, tenant := 1, charge := 5 }
    let p (h : Int) : Dev := { execDev 0 arrayWord .waitCue with now := 8 * tFc, pow := { urgent := [r], headroom := h, lastGrant := some 0 } }
    let busy (d : Dev) : Dev := modTile 0 (fun x => { x with arrayBusy := true }) d
    let q : Dev := { p 0 with runs := [(1, { state := .running, account := credit })] }
    headroomHead (p 5).pow = some (r, { (p 5).pow with urgent := [] }) ∧ headroomHead {} = none ∧ (p 4).pow.headroom < r.charge ∧
    (r.charge : Int) ≤ (p 5).pow.headroom ∧ engineIdle 0 0 (busy (p 5)) = false ∧ 0 + 8 * tFc ≤ (p 5).now ∧
    lotsFor (Sparse.get 0 q.pow.floats (floatKey 0 1)) r.charge ≤ (getRun 1 q).account ∧ (getRun 1 q).running = true ∧
    recentRamps 0 (p 5) < 4 ∧ 4 ≤ recentRamps 0 { p 5 with pow.ramps := List.replicate 4 (0, 0) } := by decide +kernel

/-- PowerMonitor: samples at the limit, above each threshold, and a calm of 10 us. -/
theorem witness_PowerMonitor :
    let pl := dictGet 0x3000 1 {} * 1000
    let d : Dev := { now := 10 * tUs, pow.belowSince := some 0 }
    (decide (pl * 105 < pl * 100) = false) ∧ pl * 105 < (pl * 2) * 100 ∧ pl * 110 < (pl * 2) * 100 ∧ pl - 1 < pl ∧
    (∃ b, d.pow.belowSince = some b ∧ b + 10 * tUs ≤ d.now) :=
  ⟨by decide, by decide, by decide, by decide, 0, by decide⟩

/-- SensorReadings: sixteen fair readings, one too far off the median, and one that is hot for 10 us. -/
theorem witness_SensorReadings :
    let d (h : Nat) : Dev := { now := 10 * tUs, pow.hotSince := [(3, h)] }
    let t (v : Int) : List Int := List.replicate 3 1119 ++ [v] ++ List.replicate 12 1119
    let med (v : Int) := medianTwice ((dieSensors 0 (d 1)).map fun k => (t v).getD k 0)
    (∀ k, k < 16 → k ∈ dieSensors 0 (d 1) ∧ -400 ≤ (t 1119).getD k 0 ∧ (2 * (t 1119).getD k 0 - med 1119).natAbs ≤ 300) ∧
    300 < (2 * (968 : Int) - med 968).natAbs ∧ (2 * (1120 : Int) - med 1120).natAbs ≤ 300 ∧
    Sparse.get 0 (d 1).pow.hotSince 3 ≠ 0 ∧ Sparse.get 0 (d 1).pow.hotSince 3 + 10 * tUs ≤ (d 1).now + 1 := by decide +kernel

/-- BatchCollectors: streams that refuse, take and release a request, and one whose slots are all in use. -/
theorem witness_BatchCollectors :
    let v (mx slots : Nat) : Nat := 1 + mx * 2 ^ 24 + slots * 2 ^ 80 + 2 ^ 88
    let d (mx slots : Nat) (x : Stream) : Dev := dictPut 0x2440 1 (v mx slots) { tileDev {} with streams := [(0, x)] }
    let r : Request := { row := 0, tag := 0, at_ := 0, frame := 0, offset := 0 }
    let one := d 1 1 { pending := [r] }
    stEnable (streamRec 0 one) = true ∧ stTenant (streamRec 0 one) = 1 ∧ stEnable (streamRec 1 one) = false ∧
    stClass (streamRec 0 one) ≤ 2 ∧ (∀ i, i < 64 → i ≠ 0 → stEnable (streamRec i one) = false) ∧
    (getStream 0 (d 2 1 { pending := [r] })).pending.length < stMax (streamRec 0 (d 2 1 {})) ∧
    releaseReason 0 one = 1 ∧ releaseReason 0 (d 1 1 {}) = 0 ∧ slotFree 0 one = true ∧ slotFree 0 (d 1 0 { pending := [r] }) = false ∧
    localPoisoned 0 (stRelease (streamRec 0 one)) one = false ∧ localValue 0 (stRelease (streamRec 0 one)) one + 1 < 2 ^ 64 := by
  decide +kernel

/-- A device that a host reaches through the PF and VF 0, and whose memory space is not enabled for VF 1. -/
def pcieDev : Dev :=
  { pcie := { linkUp := true, vfEnable := true, numVfs := 2, memEnable := [(0, true), (1, true)] }, boot := { started := true } }

/-- RegisterAccesses: accesses inside one register, narrow, reserved and crossing; a function without memory space; a
retried one; and an outstanding host read. -/
theorem witness_RegisterAccesses :
    let one (fn off n w : Nat) : Bool := match meets fn off n with
      | .one r => r.width == w && (match r.reg with | .buffer _ => false | _ => true)
      | _ => false
    let h : HostRead := { fn := 1, addr := 64, len := 4, done := none }
    Reaches 0 pcieDev ∧ Reaches 1 pcieDev ∧ one 0 0x1000 8 8 = true ∧ one 0 0x1000 4 8 = true ∧ one 0 0x1028 4 4 = true ∧
    meets 0 0x1FFF00 8 = .reserved ∧ meets 0 0x1004 8 = .crosses ∧
    (fnExists 2 pcieDev = true ∧ Sparse.get false pcieDev.pcie.memEnable 2 = false) ∧ fnExists 3 pcieDev = false ∧
    pcieDev.now < Sparse.get 0 { pcieDev with pcie.flrUntil := [(1, 5)] }.pcie.flrUntil 1 ∧
    [h].any (readFor 1 64 4) = true ∧ pcieDev.pcie.reads.any (readFor 1 64 4) = false ∧
    (∀ t, (getRun t pcieDev).framesDue = []) :=
  ⟨⟨rfl, rfl, rfl⟩, ⟨rfl, rfl, rfl⟩, by decide +kernel, by decide +kernel, by decide +kernel, by decide +kernel, by decide +kernel,
    by decide, by decide, by decide, by decide, by decide, fun _ => rfl⟩

/-- FunctionBlocks: requests at the ends of their ranges, the queue at 64 and below, ring sizes at both ends and past
them, and vector counts that add up to 1,984 and past it. -/
theorem witness_FunctionBlocks :
    let inv (addr : Nat) : Dev := { pcieDev with pcie.blocks := [(0, { invAddr := addr })] }
    let i : Invalidation := { fn := 0, tenant := 0, va := 0, pages := 1, all := false, intr := true }
    let sum (t c : Nat) (d : Dev) : Nat := (List.range 1024).foldl (fun n u => n + if u = t then c else vfCount u d) 0
    let x : Cached := ⟨5, 16, 3, 0⟩
    let held : Dev := { pcieDev with mem.tlbs := [(7, [x, ⟨5, 16, 2, 0⟩]), (9, [x])], mem.invalidations := [i] }
    let off : Dev := { pcieDev with pcie.vfEnable := false, pcie.vfvec := (List.range 15).map fun k => (k, 64) }
    (getBlock' 0 (inv (2 ^ 48 - 65536))).invAddr + bitsOf (1 * 2 ^ 16) 16 32 * 65536 ≤ 2 ^ 48 ∧
    2 ^ 48 < (getBlock' 0 (inv (2 ^ 48 - 65535))).invAddr + bitsOf (1 * 2 ^ 16) 16 32 * 65536 ∧
    pcieDev.mem.invalidations.length < 64 ∧ 64 ≤ (List.replicate 64 i).length ∧ bitOf (2 ^ 10) 10 = true ∧
    (bitOf (6 + 2 ^ 8) 8 = true ∧ bitOf (getBlock' 0 pcieDev).evrCtl 8 = false ∧ 6 ≤ bitsOf (6 + 2 ^ 8) 0 5 ∧
      bitsOf (16 + 2 ^ 8) 0 5 ≤ 16 ∧ bitsOf (5 + 2 ^ 8) 0 5 < 6 ∧ 16 < bitsOf (17 + 2 ^ 8) 0 5) ∧
    (off.pcie.vfEnable = false ∧ sum 15 16 off ≤ 1984 ∧ 1984 < sum 15 17 off) ∧
    held.mem.invalidations = [i] ∧ (dropCached 5 0x30000 0x40000 held).mem.tlbs = [(7, [⟨5, 16, 2, 0⟩])] ∧
    msixEntryOk 0 63 pcieDev = true ∧ msixEntryOk 1 0 pcieDev = true := by decide +kernel

/-- HostMailbox: a busy and a free request buffer, an open and a closed transport, a lease elsewhere. -/
theorem witness_HostMailbox :
    let busy : Dev := { pcieDev with pcie.reqBusy := true }
    Reaches 0 busy ∧ transportOpen 0 pcieDev = true ∧ transportOpen 0 { pcieDev with pcie.rspValid := true } = false ∧
    busy.boot.started = true ∧ pcieDev.pcie.reqBusy = false ∧ pcieDev.mgmt.lease.role = 0 := by
  simp only [Reaches]; decide

/-- FunctionResets, ResetSources: a VF that exists and one that does not, a run that is present, each reason for a reset and
each thing that holds the device in it. -/
theorem witness_ResetSources :
    let b (n : Nat) : Dev := { boot := { started := true, romAt := 0 }, now := n, pins := { porLow := false } }
    fnExists 1 pcieDev = true ∧ fnExists 3 pcieDev = false ∧ (getRun 1 (tileDev {})).present = true ∧
    (b 0).pins.porLow = false ∧ ({} : Dev).pins.porLow = true ∧ ({} : Dev).boot.holdAon = false ∧ ({} : Dev).boot.holdRail = false ∧
    ((b 0).boot.state = 0 ∧ (b (10000 * tMs)).boot.romAt + 10000 * tMs ≤ (b (10000 * tMs)).now) ∧
    (b (10000 * tMs - 1)).now < (b 0).boot.romAt + 10000 * tMs ∧
    failureReason 0x0300 (b 0) = true ∧ failureReason 0x0307 (b 0) = true ∧ failureReason 0x0308 (b 0) = false := by decide +kernel

/-- A boot record in copy 0. -/
def bootDev (r : BootRec) : Dev := { boot.flash := (List.range 64).zip r.bytes }

/-- BootRom: a record in use with an attempt left, with none and with MINLATCH, and slots that do not verify. (What the
signature check accepts is an open function of Config, so no slot can be shown to pass it.) -/
theorem witness_BootRom :
    (copyInUse (bootDev { count := 2 })).isSome = true ∧ (bootRec (bootDev { count := 2 })).inprog = false ∧
    (bootRec (bootDev { count := 2 })).count = 2 ∧ (bootRec (bootDev { count := 3 })).count = 3 ∧
    (bootRec (bootDev { flags := 2 })).minlatch = true ∧ verifySlot 0 (bootDev {}) = 1 ∧ verifySlot 1 (bootDev {}) = 1 := by decide +kernel

/-- A device whose slot A holds an empty runtime section with its digest. -/
def runtimeDev : Dev :=
  { boot := { started := true, flash := (List.range 8).map (fun i => (0x0100028 + i, 0)) ++
      (List.range 48).map (fun i => (0x0100060 + i, (leBytes 48 (Config.sha384 [])).getD i 0)) } }

set_option maxRecDepth 20000 in
/-- ReadyAndUpdate: a runtime image that matches its digest, and a slot that does not verify. -/
theorem witness_ReadyAndUpdate : runtimeGood runtimeDev.boot.slot runtimeDev = true ∧ runtimeDev.boot.state = 0 ∧
    runtimeDev.boot.romAt ≤ runtimeDev.now ∧ verifySlot (targetSlot runtimeDev) runtimeDev ≠ 0 := by
  have h : slotRead 0 (fieldAt (slotRead 0 0 256 runtimeDev) 0x28 4) (fieldAt (slotRead 0 0 256 runtimeDev) 0x2C 4) runtimeDev = [] := by
    rw [show fieldAt (slotRead 0 0 256 runtimeDev) 0x2C 4 = 0 by decide +kernel]; rfl
  refine ⟨?_, rfl, by decide, by decide +kernel⟩
  change (digest (slotRead 0 (fieldAt (slotRead 0 0 256 runtimeDev) 0x28 4) (fieldAt (slotRead 0 0 256 runtimeDev) 0x2C 4) runtimeDev) ==
    ((slotRead 0 0 256 runtimeDev).drop 0x60).take 48) = true
  rw [h, beq_iff_eq]
  rfl

/-- EventCollection: queues with a record to take, a ring with room and a full one, and a notification that is due. -/
theorem witness_EventCollection :
    let e : Event := { cls := 4, num := evTickLate, raisedAt := 5 }
    let d : Dev := dictPut 0x1200 3 0 { ev := { queue := [e, { e with raisedAt := 4 }] }, now := 100 * tMs }
    let b (tail : Nat) : FnBlock := { evrCtl := 2 ^ 8, ringLog2 := 6, tail := tail }
    let n : Notice := { seq := 1, value := [], sentAt := some 0 }
    pickEvent d.ev.queue = some ({ e with raisedAt := 4 }, [e]) ∧ d.ev.lastMc ≠ some (d.now / tMc) ∧
    bitOf (dictGet 0x1200 3 d) e.cls = false ∧ e.num ≠ evCommitDone ∧ d.pcie.blocks = [] ∧
    ((b 64).tail + 2 ^ 32 - (b 64).head) % 2 ^ 32 = 2 ^ (b 64).ringLog2 ∧
    ((b 63).tail + 2 ^ 32 - (b 63).head) % 2 ^ 32 ≠ 2 ^ (b 63).ringLog2 ∧ bitOf (b 63).evrCtl 9 = false ∧
    busMaster 0 { d with pcie.busMaster := [(0, true)] } = true ∧ n.sentAt = some 0 ∧ 0 + 100 * tMs ≤ d.now := by decide +kernel

/-- A device with a deadline stream of tenant 1 that counter 16 publishes: linked, policy 0, limit 5 ns. -/
def dlDev (x : DeadlineRun) : Dev :=
  dictPut 0x5001 0x40 (5 + 5 * 2 ^ 32 + 16 * 2 ^ 64)
    { vmDev { state := .running, deadline := [(0, x)] } with ctr.blockOwner := [(1, 2)], ctr.pool := [(16, 1)] }

/-- WatchesAndResults: a watch that is satisfied, published and unpublished adds, results on time, late and dropped, and
words of each kind for the scrubber. -/
theorem witness_WatchesAndResults :
    let d := dlDev { pending := [(0, 0, 0)] }
    let w : Watch := { counter := 16, expected := 1, waiter := .core 0 }
    let late : Dev := { d with now := 6 * tNs }
    watchReady d w = true ∧ watchReady d { w with expected := 2 } = false ∧ publishStreams 16 d = [16 * 1 + 0] ∧
    publishStreams 17 d = [] ∧ 1 = (getDl 1 0 d).base + (getDl 1 0 d).judged + 1 ∧ (publishOne 1 0 0 0 d).1 = true ∧
    0 ∈ (getDl 1 0 (dlDev { dropped := [0] })).dropped ∧ (dlReady 1 0 d).1 = true ∧ dlLinked (dlRec 1 0 d) = true ∧
    clockNs (5 * tNs) d ≤ ((0 * periodNs d + 0 + dlLimit (dlRec 1 0 d) : Nat) : Int) ∧
    dlOn 1 0 d = true ∧ ((0 * periodNs d + 0 + dlLimit (dlRec 1 0 d) : Nat) : Int) < clockNs late.now late ∧
    dlPolicy (dlRec 1 0 d) = 0 ∧ (hbmEnd - 8) / 8 * 8 + 8 = hbmEnd ∧
    (∀ e ∈ [1, 2], Sparse.get 0 (setErr 0 e d).mem.err 0 = e) ∧ inStore 0 d = false ∧ mirroredPlace 0 d = none := by decide +kernel

/-- Tenant 1's program has one window of context 2, of [10, 20) ns of the run frame. -/
def slotDev (now : Nat) : Dev :=
  let d := vmDev { state := .running, con := { prologue := 1, frameTable := 0x1000, ifOff := 0x2000 } }
  let table := Mem.writeN d.mem.phys 0x202000 (leBytes 16 (0x100 + 32 * 2 ^ 64 + 2 ^ 96))
  { d with now := now * tNs, mem.phys := Mem.writeN table 0x202100 (leBytes 16 (10 + 10 * 2 ^ 32 + 2 * 2 ^ 64)) }

/-- WatchesAndResults: a slot window before, in and after its times. -/
theorem witness_SlotWindows :
    slotNow 1 2 (slotDev 9) = false ∧ slotLeft 1 2 (slotDev 9) = true ∧ slotNow 1 2 (slotDev 10) = true ∧
    slotNow 1 2 (slotDev 19) = true ∧ slotNow 1 2 (slotDev 20) = false ∧ slotLeft 1 2 (slotDev 20) = false := by decide +kernel

/-- QuietTick: a tick that is due on a ready device with nothing else, and one that is not yet. -/
theorem witness_QuietTick :
    let p : PlannedTick := { frame := 8, time := 50, period := periodK {}, hold := false, hops := 0, late := false }
    let d (now : Nat) : Dev := { now := now, clk := { frame := 7, placed := true, planned := [p] }, boot := { state := 1 } }
    dueTick (d 50) = some p ∧ dueTick (d 49) = none ∧ aliasTo (ownCoord (d 50)) (d 50) = none ∧ p.period = periodK (d 50) ∧
    p.frame = ((d 50).clk.frame + 1) % 2 ^ 48 ∧ (d 50).coll.waitingStarts = [] := by decide +kernel

/-- Tenant 1's reel 0 over a ring at 0x1000 of the tenant's memory, which the host reaches. -/
def reelDev (x : Reel) : Dev :=
  { vmDev { state := .running, con := { rankCount := 2, prologue := 1, frameTable := 0x1000, ifOff := 0x2000 } } with
    reels := [(0, { x with tenant := 1, ring := 0x1000, size := 4 })], pcie := pcieDev.pcie, ctr.blockOwner := [(1, 2)] }

/-- ReelAccesses: opens that pass and fail, doorbells of each kind, a halted reel, and slots that are fetched. -/
theorem witness_ReelAccesses :
    let o (size : Nat) : Dev := reelDev { regs := [(0, 1 + size * 2 ^ 16 + 65 * 2 ^ 21)] }
    let d := reelDev { state := 1, key := 7, tail := 3, head := 1 }
    let x := getReel 0 d
    let v (k t : Nat) : Nat := k * 2 ^ 32 + t
    let step (t : Nat) : Nat := (v 7 t % 2 ^ 32 + 2 ^ 32 - x.tail % 2 ^ 32) % 2 ^ 32
    let ahead (t : Nat) : Nat := (v 7 t % 2 ^ 32 + 2 ^ 32 - x.head % 2 ^ 32) % 2 ^ 32
    let f := vaFetch (reelTlb 0) 1 0 (x.ring + 64 * (x.head % 2 ^ x.size)) 64 d
    openCheck (getReel 0 (o 4)) (o 4) = 0 ∧ openCheck (getReel 0 (o 16)) (o 16) = 0 ∧ openCheck (getReel 0 (o 3)) (o 3) = 3 ∧
    (accessOk 0 1151 = true ∧ accessReel 0 0 d = some 0 ∧ accessReel 1 0 d = none) ∧
    (v 7 4 / 2 ^ 32 % 256 = x.key ∧ v 8 4 / 2 ^ 32 % 256 ≠ x.key) ∧
    (0 < step 17 ∧ step 17 < 2 ^ 31 ∧ ahead 17 ≤ 2 ^ x.size ∧ 2 ^ x.size < ahead 18 ∧ 2 ^ 31 ≤ step 2 ∧ step 3 = 0) ∧
    (x.head < x.tail ∧ x.descs = [] ∧ x.closing = false) ∧ f.1 = .ok ∧
    (vaFetch (reelTlb 0) 1 0 0x1040 64 (setErr (0x201040 / 8) 2 d)).1 = .ue ∧ (getReel 0 (reelDev { state := 2 })).state = 2 ∧
    (getReel 0 (reelDev { state := 1 })).descs = [] := by decide +kernel

/-- ReelDescriptors: descriptors of each TYPE that pass their checks and may start, ones that fail, are held, wait and
are met, and a finished one. -/
theorem witness_ReelDescriptors :
    let y (b : Bytes) (st : Option Nat) : Desc := { seq := 5, bytes := b, atHead := 0, started := false, status := st, code := 0 }
    let d (b : Bytes) : Dev := { reelDev { state := 1, waitto := 1, descs := [y b none] } with now := tUs }
    let nop := leBytes 64 0
    let word := leBytes 64 (1 + (hdr 0 1 0).toNat * 2 ^ 128)
    let waits := leBytes 64 (2 ^ 8 + (2 ^ 15 + 16) * 2 ^ 16 + 1 * 2 ^ 64)
    headDesc (getReel 0 (d nop)) = some (y nop none) ∧ (d nop).fatal = false ∧ staticCheck 0 nop (d nop) = 0 ∧ reelGate 0 nop (d nop) = .go ∧
    (testWait 0 nop (d nop)).1 = true ∧ startFree 0 (getReel 0 (d nop)) nop (d nop) = true ∧ granted 0 (d nop) = some 0 ∧
    startCheck 0 nop (d nop) = 0 ∧
    (rdType word = 1 ∧ rdFlag word 4 = false ∧ headerGood (rdWord word) = true ∧ staticCheck 0 word (d word) = 0 ∧
      startCheck 0 word (d word) = 0 ∧ granted 0 (d word) = some 0) ∧
    (∀ ty ∈ [3, 6], staticCheck 1024 (leBytes 64 ty) (d nop) = 0) ∧
    staticCheck 0 (leBytes 64 7) (d nop) = 0x01 ∧
    (rdFlag waits 0 = true ∧ staticCheck 0 waits (d waits) = 0 ∧ (testWait 0 waits (d waits)).1 = false ∧
      waitNamed 0 waits (d waits) = true ∧ waitMetNow 0 waits (d waits) = false ∧ 0 + 1 * tUs ≤ (d waits).now) ∧
    (let h : Dev := setRun 1 { state := .halted } (d word)
     reelGate 0 word h = .aborted ∧ reelGate 0 word (setRun 1 { state := .armed } (d word)) = .held) ∧
    rdFlag nop 1 = false ∧ rdFlag nop 3 = false ∧ busMaster (tenantFn 1 (d nop)) { d nop with pcie.busMaster := [(2, true)] } = true := by
  decide +kernel

/-- RemoteTransactions: packets of each kind for a rank that is held, one that is not, one that is malformed, and entries in
each state at the ends of their times. -/
theorem witness_RemoteTransactions :
    let p (typ opc : Nat) : Packet := { typ := typ, tenant := 1, payload := leBytes 16 (1 + opc * 2 ^ 50 + 2 ^ 52) ++ fillBytes 64 0 }
    let d (q : Packet) (g : Track) : Dev := { reelDev {} with net.local_ := [q], rem.track := [(0, g)], now := 4000 * tUs }
    let w : Track := { state := .wait, tenant := 1, seq := 1, firstTx := 2000 * tUs, attemptTx := 4000 * tUs }
    let e := dictPut 0x5001 0x34 10 (d (p 0 0) { w with attemptTx := 3990 * tUs })
    (requestBad (p 0 0) = false ∧ requestBad { p 0 0 with payload := [] } = true ∧ opcOf (p 0 2) = 2) ∧
    (takeLocal (fun p => p.typ == 0) (d (p 0 0) w)).isSome = true ∧ heldRanks 1 (d (p 0 0) w) = [0] ∧ heldRanks 2 (d (p 0 0) w) = [] ∧
    takenRank 1 0 (d (p 0 0) w) = false ∧ (readPeer 1 0 0 (d (p 0 0) w)).1 = .ok ∧
    (let r : PeerRec := { next := 1, h := 0, applied := 0, fenced := 0 }
     (r.classify 1).1 = .apply ∧ (r.classify 5000).1 = .apply ∧ r.place 1 < 4096 + 2 ^ 32) ∧
    (getTrack 0 e).attemptTx + respTime (getTrack 0 e) e ≤ e.now ∧ e.now < deadlineAt (getTrack 0 e) e ∧
    deadlineAt (getTrack 0 e) { e with now := 4010 * tUs } ≤ 4010 * tUs ∧
    (getTrack 0 (d (p 1 0) w)).open_ = true ∧ ({} : Track).open_ = false ∧
    bitsOf (blockOf (p 1 0)) 46 4 = 0 ∧ bitsOf (blockOf (p 1 0)) 32 14 = 0 ∧ bitsOf (blockOf (p 1 0)) 0 32 = (getTrack 0 e).seq := by
  decide +kernel

/-- A device in a canvas of 2 by 1 by 1 by 1 at coordinate 0. -/
def canvasDev (p : Packet) : Dev :=
  dictPut 0x4800 2 1 { reelDev {} with net.inQ := [(2, [p])], net.inject := [p], ports := [(0, { state := 2 }), (1, { state := 2 })] }

/-- Routing, SpliceDrain: packets that are delivered, go on, and are discarded for each reason; a report of each kind. -/
theorem witness_Routing :
    let p : Packet := { typ := 3, cls := 0, dst := 1, tenant := 1, payload := leBytes 16 0 }
    let d := canvasDev p
    p.dst ≠ ownCoord d ∧ headerKept p d = true ∧ headerKept { p with dst := 2 } d = false ∧ packetAge p d < 2 ∧ 2 ≤ packetAge { p with injf := 14 } d ∧
    bankState 0 d ≠ 0 ∧ bankState 1 d = 0 ∧ dimOf p.dst 0 ≠ dimOf (ownCoord d) 0 ∧ (∀ k, k < 4 → dimOf 0 k = dimOf (ownCoord d) k) ∧
    direction 0 0 1 (dictPut 0x4801 1 0 d) = 0 ∧ direction 0 0 1 (dictPut 0x4801 1 (2 * 2 ^ 2) d) = 2 ∧
    portDown (getPort 0 d) = false ∧ 0 ∈ heldRanks 1 d ∧ 1 ∉ heldRanks 1 d ∧ injectionHeld d = false ∧
    injectionHeld { d with net.bank0 := 0 } = true ∧ (passCap p { d with now := 16 * 20000 * 16 }).isSome = true ∧ retiringEpoch d = none ∧
    retiringEpoch { d with net.bank0 := 2 } = some 0 ∧
    (crc16Good (drainSet false 0 1 0 0) = true ∧ bitsOf (drainSet false 0 1 0 0).toNat 1 1 = 0 ∧
      bitOf (drainSet true 0 1 0 0).toNat 0 = true) := by decide +kernel

/-- The CRC-32C of 76 zero bytes, taken in two parts. -/
theorem crc_of_zeros : crc32c (fillBytes 76 0) = 3426124901 := by
  unfold crc32c
  rw [show fillBytes 76 0 = fillBytes 40 0 ++ fillBytes 36 0 by decide +kernel, List.foldl_append,
    show (fillBytes 40 0).foldl crc32cByte 0xFFFFFFFF#32 = 0xa6a04822#32 by decide +kernel]
  decide +kernel

/-- LinkFlits: a received flit whose CRC is right, and one whose CRC is not. -/
theorem witness_flitGood : flitGood (fillBytes 76 0 ++ leBytes 4 3426124901) = true ∧ flitGood (padTo 80 []) = false := by
  have h (bs : Bytes) (e : bs.take 76 = fillBytes 76 0) : crc32c (bs.take 76) = 3426124901 := e ▸ crc_of_zeros
  simp only [flitGood, h _ (show (fillBytes 76 0 ++ leBytes 4 3426124901).take 76 = _ by decide +kernel),
    h (padTo 80 []) (by decide +kernel)]
  decide +kernel

/-- LinkFlits: a flit to send again, one of a channel that is ready, a null flit, good and bad flits received, and a replay
timer at its time. -/
theorem witness_LinkFlits :
    let f : HeldFlit := { fseq := 4, vc := 2, sop := true, eop := true, body := fillBytes 64 0, retakes := 0 }
    let d (x : Port) : Dev := { ports := [(8, { x with state := 2 })], now := 10 * tUs }
    let s : Dev := { d {} with net.outQ := [(66, [(0, fillBytes 40 0)])], net.credits := [(66, 4)] }
    (getPort 8 (d { resend := 1, replay := [f] })).replay[1 - 1]? = some f ∧
    (pickChannel 8 (d {})).1 = none ∧ (waitingFlits 8 2 s).2.1.length = 1 ∧ isOptical 8 = false ∧ isOptical 7 = true ∧
    coveredFlits 3 [f] = 0 ∧ coveredFlits 4 [f] = 1 ∧ coveredFlits 0xFFFF [f] < [f].length ∧
    2 * filteredDelay 8 (d {}) + 2000 * (fecDelay 8 : Int) + 96000 ≤ (((d {}).now - 0) * 50 : Nat) ∧
    carriesRecords 8 f.vc = false ∧ (∀ g ∈ [{ f with fseq := 5 }], g.fseq ≠ f.fseq ∧ g.sop = true) := by decide +kernel

/-- R248, R288: an uncorrectable word in a router buffer, and one in a replay buffer, loses its packet with FABRIC_UE. -/
theorem test_fabric_ue :
    let p : Packet := { typ := 3, cls := 0, dst := 1, tenant := 1, payload := leBytes 16 0 }
    let d := routerUnicast 0 2 true (canvasDev p)
    let f : HeldFlit := { fseq := 4, vc := 2, sop := true, eop := true, body := fillBytes 64 0, retakes := 0 }
    let e := dropReplayed 8 { ports := [(8, { state := 2, resend := 2, replay := [f, { f with fseq := 5 }] })] }
    d.ev.queue.map (·.num) = [evFabricUe] ∧ d.net.inQ = [] ∧ Sparse.get 0 d.net.delivered 0 = 1 ∧
    e.ev.queue.map (·.num) = [evFabricUe] ∧ (getPort 8 e).replay = [{ f with fseq := 5 }] ∧ (getPort 8 e).resend = 1 := by
  decide +kernel

/-- TrainingAndLanes: ports in each state at the ends of their times, and lanes in each state. -/
theorem witness_TrainingAndLanes :
    let d (x : Port) : Dev := { ports := [(4, x)], now := 1000 * tMs }
    let w (l : Lane) (wide : Bool) : Port := { state := 2, wide := wide, lanes := (List.range 8).map fun i => (i, l) }
    let narrow := d (w { tx := 4, rx := 4 } false)
    (getPort 4 (d { state := 1 })).startAt + phaseLimit 5 * tUs ≤ (d {}).now ∧ 0 + 2000 * tUs ≤ (d {}).now ∧
    0 + 1000 * tMs ≤ (d {}).now ∧ peerExpected 4 0 5 (d {}) = true ∧ peerExpected 4 0 4 (d {}) = false ∧
    canWake 4 narrow = true ∧ demandWithin 4 (4 * tUs) narrow = false ∧
    demandWithin 4 (4 * tUs) (dictPut 0x4004 7 1 narrow) = true ∧ dictGet 0x4004 5 narrow * 10 * tNs <
      longestWait 4 { narrow with net.outQ := [(32, [(0, fillBytes 40 0)])] } ∧
    ((getPort 4 (d (w {} true))).wide = true ∧ wakeHeld 4 (d (w {} true)) = false) ∧
    ((getLane 4 7 (d (w { tx := 5, step := 15 } true))).tx = 5 ∧ 0 + (15 + 1) * rampStep ≤ (d {}).now) ∧ 7 < laneCount 4 ∧
    signedOf 32 (dictGet 0x4004 4 (d {})) < 32767 ∧ crc16Good (withCrc16 2) = true ∧
    (d {}).clk.lastTick + framePeriod (d {}) ≤ (d {}).now + 2 * tUs := by decide +kernel

/-- Tenant 1's program has one context, number 2: an all-gather of two ranks over segments of 64 bytes. -/
def collDev : Dev :=
  let d := vmDev { state := .running, con := { rankCount := 2, prologue := 1, frameTable := 0x1000, ifOff := 0x2000, cycle := 1 } }
  let ctx := 2 + 2 * 2 ^ 32 + 1 * 2 ^ 96 + 1 * 2 ^ 160 + 64 * 2 ^ 192 + 0x8000 * 2 ^ 256 + 0x9000 * 2 ^ 320 + 16 * 2 ^ 384
  let table := Mem.writeN d.mem.phys 0x202000 (leBytes 16 (0x100 + 0x50 * 2 ^ 64))
  { d with mem.phys := Mem.writeN (Mem.writeN table 0x202100 (leBytes 16 1)) 0x202110 (leBytes 64 ctx), ctr.blockOwner := [(1, 2)] }

/-- ScheduledData: a context that lives, arrivals for its member and for none, a step that is ready and one that is not, a
segment that is complete, and units fenced one by one. -/
theorem witness_ScheduledData :
    let b (cctx cseg off : Nat) : Nat := cctx + cseg * 2 ^ 12 + off * 2 ^ 28
    let p (cctx cseg off : Nat) : Packet := { typ := 4, tenant := 1, srank := 1, drank := 0, payload := leBytes 16 (b cctx cseg off) ++ fillBytes 64 0 }
    let c := (liveCtx 1 2 collDev).getD (parseCtx [])
    let x : CollInst := { tenant := 1, rank := 0, pos := 0, cctx := 2, cseg := 0 }
    (liveCtx 1 2 collDev).isSome = true ∧ liveCtx 1 3 collDev = none ∧ c.posOf 1 = some 1 ∧ c.posOf 0 = some 0 ∧ c.posOf 2 = none ∧
    c.nseg = 1 ∧ c.kind ≠ 5 ∧ 0 + 64 ≤ c.psz + c.rsz ∧ c.psz + c.rsz < c.psz + c.rsz + 1 + 64 ∧ blockOf (p 2 0 0) = b 2 0 0 ∧
    heldRanks 1 collDev = [0] ∧ (takeLocal (fun p => p.typ == 4) { collDev with net.local_ := [p 2 0 0] }).isSome = true ∧
    (writeExchange 1 0 c 0 0 (fillBytes 64 0) collDev).1 = .ok ∧
    (stepPlan c 0 0 0).isSome = true ∧ stepReady { x with begun := true, arrived := [(0, 4096)] } ((stepPlan c 0 0 0).getD {}) = true ∧
    stepReady x ((stepPlan c 0 0 0).getD {}) = false ∧ segmentDone x c collDev = false ∧ ownsPool 1 c.doneCtr collDev = true ∧
    ({} : Coll).fence = 0 := by decide +kernel

/-- ChainOperations: an instance at an operation of each kind whose trigger is met, and one that is not. -/
theorem witness_ChainOperations :
    let x : ChainInst := { number := 9, tenant := 1, rank := 0, body := 0x3000, first := 0, count := 1, window := 0, op := 0
                           r := 5, auto := false, word := none, waiting := [], late := false }
    let b (act trig : Nat) : Bytes := leBytes 32 (act + trig * 2 ^ 16 + 1 * 2 ^ 64 + 16 * 2 ^ 128 + 1 * 2 ^ 192)
    let d (act trig : Nat) : Dev := { collDev with coll.chains := [x], mem.phys := Mem.writeN collDev.mem.phys 0x203000 (b act trig) }
    (∀ act, act ≤ 4 → (chainOpBytes x 0 (d act 0)).1 = .ok ∧ (chainOpBytes x 0 (d act 0)).2.1 = b act 0) ∧
    (∀ act ∈ [0, 1, 3, 4], chainOpGood 1 (b act 0) (d act 0) = true) ∧ chainOpGood 1 (b 5 0) (d 5 0) = false ∧
    chainOpGood 1 (b 3 (2 ^ 15 + 16)) (d 3 0) = true ∧ (poolWait (.chain 9) 16 1 (d 3 0)).1 = false ∧
    (poolWait (.chain 9) 16 0 (d 3 0)).1 = true ∧ (poolAdd 16 1 (d 3 0)).1 = .applied ∧ x.op < x.count ∧
    ((d 0 0).coll.chains.find? fun y => y.number == 9) = some x ∧ rankCtx 1 0 (d 0 0) = 0 := by decide +kernel

/-- MirrorRecords: a next record of every kind, the opening record, and an arm that is released. -/
theorem witness_MirrorRecords :
    let r (k : Nat) : MirrorRec := { kind := k, tenant := 1, data := fillBytes 64 0 }
    let d (x : MirrorRec) : Dev := { vmDev { state := .armed } with twin.inQ := [x], twin.state := 2 }
    let x : Extent := { unit := 1, units := 1, tenant := 1, region := 0, first := 0 }
    (∀ k, k ≤ 10 → ((nextRecord k (d (r k))).map (·.1)) = some (r k)) ∧ nextRecord 0 (d (r 1)) = none ∧
    isOpening { kind := 2, addr := 5, data := fillBytes 8 0 } = true ∧ isOpening (r 2) = false ∧
    storeAddr 1 0 0 { d (r 5) with twin.extents := [x] } = some unitSize ∧ storeAddr 1 0 0 (d (r 5)) = none ∧
    (physRead unitSize 64 (d (r 5))).2.1 = false ∧ (physRead 64 64 (setErr 8 2 (d (r 5)))).2.1 = true ∧
    (place niTlb 1 0 0 true (d (r 6))).1 = .dev 0x200000 ∧ ((regions 1 (dictPut 0x5001 0x20 1 (d (r 6)))).map (·.index)) = [] ∧
    (vaWrite niTlb 1 0 0 true (r 8).data (d (r 8))).1 = .ok ∧ bitOf (fieldAt (r 9).data 0 8) 4 = false ∧
    tPortUp { d (r 9) with ports := [(8, { state := 2 })] } = true ∧ (getRun 1 (d (r 10))).state = .armed ∧
    (getRun 1 (d (r 10))).con.tileMask = 0 := by decide +kernel

/-- TwinWatch: a heartbeat that is due and one that is missing, a seed, a commit whose frame has ended, and a probe. -/
theorem witness_TwinWatch :
    let d (now : Nat) : Dev := { clkDev 0 now with twin.state := 2, twin.upAt := some 0 }
    let x : Seeding := { tenant := 1, region := 0, target := 1, next := 0, size := 256 }
    let p : Dev := { d 0 with twin.probeAt := some 0, twin.lastBeat := 3 }
    let c : Dev := { collDev with twin.state := 2, ports := [(8, { state := 2 })], twin.commitsDue := [(1, 0, 0)] }
    (tPortUp (d 21000) = true ∧ (d 21000).clk.lastTick + tUs ≤ (d 21000).now ∧ (d 21000).twin.sentBeat ≠ some 7) ∧
    (let m := d (1000 + framePeriod {} - tUs)
     m.clk.lastTick + framePeriod m ≤ m.now + tUs ∧ (0 : Nat) ≤ m.clk.lastTick ∧ m.twin.gotBeat ≠ some m.clk.frame) ∧
    ([x].find? fun x => x.target != 2 && decide (x.next < x.size)) = some x ∧ mirroring c = true ∧
    snapshotsSent 1 0 0 c = true ∧ programsEnded 1 0 0 c = true ∧ c.twin.seeds = [] ∧
    (3 % 2 ^ 56 = p.twin.lastBeat ∧ 4 % 2 ^ 56 ≠ p.twin.lastBeat ∧ p.twin.probeFailed = false) ∧
    0 + dictGet 0x6000 5 p * tUs ≤ 1000 * tUs ∧ openSuspicion (d 0) ≠ d 0 := by decide +kernel

/-- TabingMessages: a read, a write and a lease message that are well formed, from a holder and from another. -/
theorem witness_TabingMessages :
    let b (kind idx sub len lease : Nat) (v : Bytes) : Bytes :=
      leBytes 20 (1 + kind * 2 ^ 8 + 5 * 2 ^ 16 + idx * 2 ^ 32 + sub * 2 ^ 48 + lease * 2 ^ 64 + len * 2 ^ 96) ++ v
    let d : Dev := dictPut 0x1200 2 2 { pcieDev with
      boot.state := 1, mgmt.lease := { role := 1, transport := 2, address := 8, epoch := 1, expiry := 6000 * tMs } }
    let w := parseMsg (b 2 0x2001 1 1 1 [3])
    transportOpen 2 d = true ∧ wellFormedMsg 2 (b 1 0x1000 1 0 0 []) = true ∧ wellFormedMsg 2 (b 2 0x2001 1 1 1 [3]) = true ∧
    wellFormedMsg 2 [] = false ∧ requestOf (parseMsg (b 1 0x1000 1 0 0 [])) = .read ∧ requestOf w = .write ∧
    rightAbort .manager false (parseMsg (b 1 0x1000 1 0 0 [])) d = 0 ∧ rightAbort .manager false (parseMsg (b 1 0x0999 1 0 0 [])) d = 0x01 ∧
    rightAbort .manager false (parseMsg (b 1 0x1000 99 0 0 [])) d = 0x02 ∧
    rightAbort .manager false (parseMsg (b 1 0xF000 2 4 0 [])) d = 0x0B ∧
    rightAbort (roleOf 2) false w d = 0 ∧ holdsLease 2 8 d = true ∧ holdsLease 3 8 d = false ∧
    ((entryOf 0x2001 1).map fun r => (writeAbort 2 8 r w d, writeAbort 2 9 r w d, r.staged)) = some (0, 0x07, true) ∧
    remembered 2 8 5 d = none ∧ mayForce 2 d = true := by decide +kernel

/-- ManagementTransports: blocks that are taken, refused and passed over, one that ends at 35 ms, and messages lost. -/
theorem witness_ManagementTransports :
    let d : Dev := dictPut 0x6000 1 1 { pcieDev with mgmt.lease := { role := 1, transport := 2 } }
    let blk (ctl : Nat) : Bytes := let b := leBytes 6 (0x94 + 0x54 * 2 ^ 8 + 3 * 2 ^ 16 + ctl * 2 ^ 24 + 5 * 2 ^ 32); b ++ [pec b]
    twinCoord d ≠ none ∧ ownAddress d = 0x4A ∧ ownAddress (dictPut 0x4800 1 2 d) = 0x4B ∧
    fieldAt (blk 0x80) 0 1 = ownAddress d * 2 ∧ fieldAt (blk 0x80) 1 1 = 0x54 ∧
    pec ((blk 0x80).take 6) = (blk 0x80).getD 6 0 ∧ fieldAt (blk 0x80) 2 1 = 7 - 4 ∧
    d.mgmt.lease.expiry ≤ d.now ∧ 0 + 35 * tMs ≤ ({ d with now := 35 * tMs } : Dev).now ∧
    d.mgmt.smbusIdleAt + (50 + 50) * tUs ≤ ({ d with now := 100 * tUs } : Dev).now := by decide +kernel

/-- OutcomeShape, PinsInvariant: every idle state and every command at it; a state whose pins agree, and a step from it. -/
theorem witness_PinsInvariant : PinsSettled State.reset.dev ∧ (∃ s', step State.reset = .next s') ∧
    (∃ s', exec .localTick State.reset = .next s') :=
  ⟨⟨rfl, by decide⟩, ⟨_, rfl⟩, ⟨_, rfl⟩⟩

end Sys2Proof.Tests
end

section
/-!
PROOFS. Run-wide stretch and halt requests (R47 to R50): a request that arrives, and the merge at a boundary.
-/
namespace Sys2Proof.Machine

/-! ## Runs and events -/

/-- Raising an event counts it in its class, whether it is recorded or not. -/
theorem raiseEvent_counts (e : Event) (d : Dev) : (raiseEvent e d).ev.counts = bumpTable d.ev.counts e.cls 1 := by
  have latch : (latchAlert e d).ev = d.ev := by unfold latchAlert; split <;> rfl
  simp only [raiseEvent, latch]
  split <;> split <;> rfl

theorem bumpTable_get_same (m : Table Nat) (i : Nat) : Sparse.get 0 (bumpTable m i 1) i = satAdd 64 (Sparse.get 0 m i) 1 := by
  rw [bumpTable, Sparse.get_modify_same, satAdd, satAdd, Nat.add_comm]

theorem raiseT_counts (cls num src t : Nat) (d : Dev) :
    Sparse.get 0 (raiseT cls num src t d).ev.counts cls = satAdd 64 (Sparse.get 0 d.ev.counts cls) 1 :=
  (congrArg (Sparse.get 0 · cls) (raiseEvent_counts _ d)).trans (bumpTable_get_same _ cls)

theorem getRun_raiseT {cls : Nat} (num src t u : Nat) (d : Dev) (h : cls ≠ 3) :
    getRun u (raiseT cls num src t d) = getRun u d := by rw [raiseT_eq num src t d 0 h]; rfl

/-! ## Stretch and halt requests that arrive (R48 to R50) -/

variable {t n : Nat} {q : Stretch} {p : Packet} {halt : Bool} {s : State} {d e : Dev}

theorem takeStretch_of_ahead (hr : (getRun t d).state = .armed ∨ (getRun t d).state = .running)
    (hq : targetPassed q.target d = false) :
    takeStretch t q d = setRun t { getRun t d with requests := (getRun t d).requests ++ [q] } d := by
  simp [takeStretch, hr, hq]

theorem takeStretch_of_late_running (hr : (getRun t d).state = .running) (hq : targetPassed q.target d = true) :
    takeStretch t q d = faultRun 2 evStretchLate 0 t d := by
  simp [takeStretch, hr, hq, Run.running]

theorem takeStretch_of_late_armed (hr : (getRun t d).state = .armed) (hq : targetPassed q.target d = true) :
    takeStretch t q d = d := by
  simp [takeStretch, hr, hq, Run.running]

theorem takeStretch_of_no_frames (ha : (getRun t d).state ≠ .armed) (hr : (getRun t d).state ≠ .running) :
    takeStretch t q d = d := by
  simp [takeStretch, ha, hr]

theorem takeHaltRequest_of_ahead (hr : (getRun t d).state = .running) (hq : targetPassed q.target d = false) :
    takeHaltRequest t q d = setRun t { getRun t d with requests := (getRun t d).requests ++ [q] } d := by
  simp [takeHaltRequest, Run.running, hr, hq]

theorem takeHaltRequest_of_late (hr : (getRun t d).state = .running) (hq : targetPassed q.target d = true) :
    takeHaltRequest t q d = setRun t { getRun t d with haltAt := some (d.clk.frame + 1) } d := by
  simp [takeHaltRequest, Run.running, hr, hq]

theorem takeHaltRequest_of_not_running (hr : (getRun t d).state ≠ .running) : takeHaltRequest t q d = d := by
  simp [takeHaltRequest, Run.running, hr]

section
variable (hp : takeStretchPacket halt d = some (p, e))
include hp

theorem receiveStretch_of_bad (hq : parseStretch (blockOf p) = none) :
    receiveStretch halt d = modRun (bitsOf (blockOf p) 56 10) (fun r => { r with discarded := r.discarded + 1 }) e := by
  simp [receiveStretch, hp, hq]

theorem receiveStretch_of_stretch (hq : parseStretch (blockOf p) = some q) (h4 : q.source ≠ 4) :
    receiveStretch halt d = takeStretch (bitsOf (blockOf p) 56 10) q e := by
  simp [receiveStretch, hp, hq, h4]

theorem receiveStretch_of_halt (hq : parseStretch (blockOf p) = some q) (h4 : q.source = 4) :
    receiveStretch halt d = takeHaltRequest (bitsOf (blockOf p) 56 10) q e := by
  simp [receiveStretch, hp, hq, h4]

end

/-- STRETCH_REQUEST and HALT_REQUEST_RECEIPT both take a waiting packet, each of its own kind. -/
theorem answers_receiveStretch {d' : Dev} (h : receiveStretch halt s.dev = d') :
    Answers (if halt then .haltRequestReceipt else .stretchRequest) s d' := by
  cases halt
  · exact answers_onDev rfl rfl h
  · exact answers_onDev rfl rfl h

/-! ## Requests merged at a boundary (R47, R48) -/

theorem Sparse.erase_above {α : Type} {m : Table α} {k : Nat} (h : ∀ x ∈ m, x.1 < k) : Sparse.erase m k = m := by
  induction m with
  | nil => rfl
  | cons x m ih =>
    have hx : x.1 ≠ k := Nat.ne_of_lt (h x (by simp))
    simp [Sparse.erase, hx, ih fun y hy => h y (by simp [hy])]

theorem Sparse.insert_above {α : Type} {m : Table α} {k : Nat} (v : α) (h : ∀ x ∈ m, x.1 < k) :
    Sparse.insert m k v = m ++ [(k, v)] := by
  induction m with
  | nil => rfl
  | cons x m ih =>
    have hx : x.1 < k := h x (by simp)
    simp [Sparse.insert, Nat.ne_of_lt hx, Nat.not_lt.2 (Nat.le_of_lt hx), ih fun y hy => h y (by simp [hy])]

/-- Above every listed item, an item is written at the end of its table. -/
theorem Sparse.set_above {α : Type} [DecidableEq α] {dflt : α} {m : Table α} {k : Nat} (v : α) (h : ∀ x ∈ m, x.1 < k) :
    Sparse.set dflt m k v = if v = dflt then m else m ++ [(k, v)] := by
  rw [Sparse.set, Sparse.erase_above h, Sparse.insert_above v h]

/-- The sum of the items of a table of numbers. -/
def tableSum (m : Table Nat) : Nat := m.foldl (fun n x => n + x.2) 0

theorem tableSum_set_above {m : Table Nat} {k : Nat} (v : Nat) (h : ∀ x ∈ m, x.1 < k) :
    tableSum (Sparse.set 0 m k v) = tableSum m + v := by
  rw [Sparse.set_above v h]
  split <;> simp [tableSum, *]

theorem mem_set_above {m : Table Nat} {k : Nat} (v : Nat) (h : ∀ x ∈ m, x.1 < k) :
    ∀ x ∈ Sparse.set 0 m k v, x.1 < k + 1 := by
  intro x hx
  rw [Sparse.set_above v h] at hx
  split at hx
  · exact Nat.lt_succ_of_lt (h x hx)
  · rcases List.mem_append.1 hx with hx | hx
    · exact Nat.lt_succ_of_lt (h x hx)
    · simp_all

/-- The requests of a run that are due at tick `n`. -/
def dueRequests (n : Nat) (r : Run) : List Stretch := r.requests.filter fun q => decide (q.target ≤ n)

/-- The largest LOGF of the slip requests among those due. -/
def slipDue (due : List Stretch) : Nat := (due.filter fun q => q.source == 0).foldl (fun m q => max m q.logf) 0

/-- What sources 1 to 3 hold after the requests due. -/
def heldTable (due : List Stretch) (old : Table Nat) : Table Nat :=
  [1, 2, 3].foldl (fun m s => Sparse.set 0 m s (heldAfter due old s)) []

theorem heldTable_get (due : List Stretch) (old : Table Nat) {k : Nat} (hk : k = 1 ∨ k = 2 ∨ k = 3) :
    Sparse.get 0 (heldTable due old) k = heldAfter due old k := by
  rcases hk with rfl | rfl | rfl <;> simp [heldTable, Sparse.get_set]

theorem heldTable_sum (due : List Stretch) (old : Table Nat) :
    tableSum (heldTable due old) = heldAfter due old 1 + heldAfter due old 2 + heldAfter due old 3 := by
  have above1 : ∀ x ∈ ([] : Table Nat), x.1 < 1 := by simp
  have above2 := mem_set_above (heldAfter due old 1) above1
  have above3 := mem_set_above (heldAfter due old 2) above2
  simp only [heldTable, List.foldl_cons, List.foldl_nil]
  rw [tableSum_set_above _ above3, tableSum_set_above _ above2, tableSum_set_above _ above1]
  simp [tableSum]

/-- The LOGFs in force after the boundary at tick `n`, summed over the sources. -/
def mergedSum (n : Nat) (r : Run) : Nat :=
  slipDue (dueRequests n r) + tableSum (heldTable (dueRequests n r) r.inForce)

/-- A run after the merge of its requests at tick `n`. -/
def mergedRun (n : Nat) (r : Run) : Run :=
  { r with
    requests := r.requests.filter fun q => !decide (q.target ≤ n)
    slipLog := slipDue (dueRequests n r)
    inForce := heldTable (dueRequests n r) r.inForce
    factor := 2 ^ min 5 (mergedSum n r) }

theorem applyStretches_eq (t n : Nat) (d : Dev) :
    applyStretches t n d =
      if 5 < mergedSum n (getRun t d) then raiseT 4 evStretchLimit 0 t (setRun t (mergedRun n (getRun t d)) d)
      else setRun t (mergedRun n (getRun t d)) d := rfl

/-- STRETCH_APPLY changes its run to the merged one, and no other run. -/
theorem getRun_applyStretches (t u n : Nat) (d : Dev) :
    getRun u (applyStretches t n d) = if u = t then mergedRun n (getRun t d) else getRun u d := by
  rw [applyStretches_eq]
  split
  · rw [getRun_raiseT _ _ _ _ _ (by decide), getRun_setRun]
  · rw [getRun_setRun]

theorem applyStretches_ev_of_le (h : mergedSum n (getRun t d) ≤ 5) : (applyStretches t n d).ev = d.ev := by
  rw [applyStretches_eq, if_neg (Nat.not_lt.2 h), setRun_ev]

theorem applyStretches_counts_of_lt (h : 5 < mergedSum n (getRun t d)) :
    Sparse.get 0 (applyStretches t n d).ev.counts 4 = satAdd 64 (Sparse.get 0 d.ev.counts 4) 1 := by
  rw [applyStretches_eq, if_pos h, raiseT_counts, setRun_ev]

end Sys2Proof.Machine

namespace Sys2Proof.Proofs
open Sys2Proof.Machine

/-- Settles O12: a request packet by the case of its payload and of its run, a boundary by the merged run. -/
theorem stretches : Obligations.Stretches := by
  unfold Obligations.Stretches
  refine ⟨?received, ?boundary⟩
  case received =>
    rintro s _ e p halt rfl hp
    refine ⟨fun hq => answers_receiveStretch (receiveStretch_of_bad hp hq), fun q hq h4 => ?_, fun q hq h4 => ?_⟩
    · have take := receiveStretch_of_stretch hp hq h4
      exact ⟨fun hr hk => answers_receiveStretch (take.trans (takeStretch_of_ahead hr hk)),
        fun hr hk => answers_receiveStretch (take.trans (takeStretch_of_late_running hr hk)),
        fun ha hk => answers_receiveStretch (take.trans (takeStretch_of_late_armed ha hk)),
        fun ha hr => answers_receiveStretch (take.trans (takeStretch_of_no_frames ha hr))⟩
    · have take := receiveStretch_of_halt hp hq h4
      exact ⟨fun hr hk => answers_receiveStretch (take.trans (takeHaltRequest_of_ahead hr hk)),
        fun hr hk => answers_receiveStretch (take.trans (takeHaltRequest_of_late hr hk)),
        fun hr => answers_receiveStretch (take.trans (takeHaltRequest_of_not_running hr))⟩
  case boundary =>
    intro t n d r due slip sum x
    have hx : x = mergedRun n r := by rw [show x = _ from getRun_applyStretches t t n d, if_pos rfl]
    have hsum : mergedSum n r = sum := by
      show slip + tableSum (heldTable due r.inForce) = sum
      rw [heldTable_sum, ← Nat.add_assoc, ← Nat.add_assoc]
    have hfactor : x.factor = 2 ^ min 5 sum := by rw [hx, ← hsum]; rfl
    refine ⟨hfactor, ?_, fun k hk => ?_, by rw [hx]; rfl, by rw [hx]; rfl, fun u hu => ?_, fun h => ?_, fun h => ?_⟩
    · rw [hfactor]
      exact Nat.pow_le_pow_right (by decide) (Nat.min_le_left 5 sum)
    · rw [hx]
      exact heldTable_get due r.inForce hk
    · rw [getRun_applyStretches, if_neg hu]
    · exact applyStretches_ev_of_le (by rwa [hsum])
    · exact applyStretches_counts_of_lt (by rwa [hsum])

end Sys2Proof.Proofs
end

section
/-!
PROOFS. The local tick (Table 2.7): which tick is due, and what each step of the tick does on a device that holds no
run, tile or stream.
-/
namespace Sys2Proof.Machine

variable {d : Dev} {p : PlannedTick}

/-! ## The tick that is due -/

/-- The earlier of a tick found so far and another. -/
def earlier (b : Option PlannedTick) (p : PlannedTick) : Option PlannedTick :=
  match b with
  | none => some p
  | some x => if p.time < x.time then some p else some x

/-- One step of the search finds one of the two, the earlier. -/
theorem earlier_spec (b : Option PlannedTick) (q : PlannedTick) :
    ∃ x, earlier b q = some x ∧ (x = q ∨ b = some x) ∧ x.time ≤ q.time ∧ ∀ y, b = some y → x.time ≤ y.time := by
  cases b with
  | none => exact ⟨q, rfl, by simp⟩
  | some y =>
    by_cases h : q.time < y.time
    · exact ⟨q, if_pos h, by simpa using Nat.le_of_lt h⟩
    · exact ⟨y, if_neg h, by simpa using h⟩

/-- What a search for the earliest tick finds is one of those it has seen, and none of them is earlier. -/
theorem foldl_earlier {l : List PlannedTick} {b : Option PlannedTick} (h : l.foldl earlier b = some p) :
    (p ∈ l ∨ b = some p) ∧ (∀ q ∈ l, p.time ≤ q.time) ∧ ∀ y, b = some y → p.time ≤ y.time := by
  induction l generalizing b with
  | nil => subst h; simp
  | cons q l ih =>
    obtain ⟨x, hx, hfrom, hxq, hxb⟩ := earlier_spec b q
    obtain ⟨hmem, hle, hb⟩ := ih h
    have hpx : p.time ≤ x.time := hb x hx
    refine ⟨?_, by simpa using ⟨Nat.le_trans hpx hxq, hle⟩, fun y hy => Nat.le_trans hpx (hxb y hy)⟩
    rcases hmem with hmem | hmem
    · exact .inl (List.mem_cons_of_mem q hmem)
    · obtain rfl : x = p := Option.some.inj (hx.symm.trans hmem)
      exact hfrom.imp_left fun hq => by simp [hq]

theorem dueTick_eq (d : Dev) :
    dueTick d = (d.clk.planned.filter fun p => decide (p.time ≤ d.now)).foldl earlier none := rfl

/-- The tick due is planned, its time has come, and no other planned tick whose time has come is earlier. -/
theorem dueTick_spec (h : dueTick d = some p) :
    p ∈ d.clk.planned ∧ p.time ≤ d.now ∧ ∀ q ∈ d.clk.planned, q.time ≤ d.now → p.time ≤ q.time := by
  obtain ⟨hmem, hle, -⟩ := foldl_earlier ((dueTick_eq d).symm.trans h)
  simp only [List.mem_filter, decide_eq_true_eq, reduceCtorEq, or_false] at hmem hle
  exact ⟨hmem.1, hmem.2, fun q hq hnow => hle q ⟨hq, hnow⟩⟩

/-! ## The steps of a tick where their objects are absent -/

theorem runTenants_of_no_runs (h : d.runs = []) : runTenants d = [] := by simp [runTenants, h]

theorem runningTenants_of_no_runs (h : d.runs = []) : runningTenants d = [] := by
  simp [runningTenants, runTenants_of_no_runs h]

theorem closeWindows_of_no_tiles (h : d.tiles = []) : closeWindows d = d := by simp [closeWindows, h]

theorem applyDecided_of_undecided (n : Nat) (h : d.mgmt.commit.decided = none) : applyDecided n d = d := by
  simp [applyDecided, h]

theorem stepTeardowns_of_no_runs (h : d.runs = []) : stepTeardowns d = d := by
  simp [stepTeardowns, runTenants_of_no_runs h]

theorem handoverTick_of_none (h : d.twin.reintegrateAt = none) : handoverTick d = d := by simp [handoverTick, h]

theorem deposeTick_of_no_alias (h : aliasTo (ownCoord d) d = none) :
    deposeTick d = { d with twin.deposed := false } := by simp [deposeTick, h]

theorem twinTick_of_unpaired (h : d.twin.state = 0) :
    twinTick d = { d with
      twin.partnerFatal := false, twin.fullRaised := false
      twin.downAtTick := (Sparse.get {} d.ports 8).state == 4 } := by simp [twinTick, lossDeclared, h]

theorem resumeTick_of_unpaired (h : d.twin.state = 0) : resumeTick d = d := by simp [resumeTick, h]

theorem readyTick_of_unpaired (h : d.twin.state = 0) : readyTick d = d := by simp [readyTick, h]

theorem countStretched_of_no_runs (h : d.runs = []) : countStretched d = d := by simp [countStretched, h]

theorem lateSlips_of_no_runs (h : d.runs = []) : lateSlips d = d := by
  simp [lateSlips, runningTenants_of_no_runs h]

theorem autoStarts_of_none_waiting (h : d.coll.waitingStarts = []) : autoStarts d = d := by simp [autoStarts, h]

theorem collectorTick_of_no_streams (h : d.streams = []) : collectorTick d = d := by simp [collectorTick, h]

theorem source1Requests_of_no_runs (h : d.runs = []) :
    source1Requests d = { d with pow.source1 := sourceLevel d } := by
  have none_running := runningTenants_of_no_runs (d := { d with pow.source1 := sourceLevel d }) h
  simp only [source1Requests, none_running, List.foldl_nil, ite_self]

/-- With no run the pool is free: no reservation, and no power level. -/
theorem powerLevel_of_no_runs (h : d.runs = []) :
    powerLevel d = { d with
      pow.pool := poolNow d, pow.reserved := 0, pow.powerLevel := 0
      pow.headroom := (((poolNow d - 0) * credit : Nat) : Int) - d.pow.haltCharge
      pow.haltCharge := 0, pow.holdRaised := false } := by
  have res : reservations d = 0 := by simp [reservations, runTenants_of_no_runs h]
  have fit : powerFit d = some 0 := by simp [powerFit, h, List.range_succ_eq_map]
  simp [powerLevel, res, fit]

/-- A retiring bank becomes idle, bank 0 before bank 1. -/
theorem retireEnds_eq (d : Dev) :
    retireEnds d = { d with
      net.bank0 := if d.net.bank0 = 2 then 0 else d.net.bank0
      net.bank1 := if d.net.bank0 ≠ 2 ∧ d.net.bank1 = 2 then 0 else d.net.bank1 } := by
  by_cases h0 : d.net.bank0 = 2
  · simp [retireEnds, retiringEpoch, setBank, h0]
  · by_cases h1 : d.net.bank1 = 2 <;> simp [retireEnds, retiringEpoch, setBank, h0, h1]

/-! ## The thermal level (Table 16.3) -/

/-- The temperatures of the frame are an emergency. -/
abbrev thermalHot (d : Dev) : Prop :=
  (dictGet 0x3000 4 d : Int) * 10 ≤ d.pow.tj.getD (-400) ∨ 950 ≤ d.pow.thbm.getD (-400)

/-- The frames that have stayed cool, with the one that ends. -/
def coolFramesNow (d : Dev) : Nat :=
  if d.pow.tj.getD (-400) < (dictGet 0x3000 3 d : Int) * 10 - 30 then d.pow.coolFrames + 1 else 0

/-- The level that Table 16.3 gives. -/
def thermalNext (d : Dev) : Nat :=
  if thermalHot d then min 5 (d.pow.thermal + 1)
  else if (dictGet 0x3000 3 d : Int) * 10 ≤ d.pow.tj.getD (-400) then max d.pow.thermal 1
  else if dictGet 0x3000 5 d ≤ coolFramesNow d then d.pow.thermal - 1
  else d.pow.thermal

theorem thermalNext_of_hot (h : thermalHot d) : thermalNext d = min 5 (d.pow.thermal + 1) := if_pos h

theorem thermalNext_of_warm (h : ¬ thermalHot d) (hw : (dictGet 0x3000 3 d : Int) * 10 ≤ d.pow.tj.getD (-400)) :
    thermalNext d = max d.pow.thermal 1 := by rw [thermalNext, if_neg h, if_pos hw]

theorem thermalNext_of_cool (h : ¬ thermalHot d) (hc : d.pow.tj.getD (-400) < (dictGet 0x3000 3 d : Int) * 10 - 30)
    (hn : dictGet 0x3000 5 d ≤ d.pow.coolFrames + 1) : thermalNext d = d.pow.thermal - 1 := by
  rw [thermalNext, if_neg h, if_neg (by omega), coolFramesNow, if_pos hc, if_pos hn]

theorem thermalNext_of_mild (h : ¬ thermalHot d) (hw : d.pow.tj.getD (-400) < (dictGet 0x3000 3 d : Int) * 10)
    (hc : ¬ (d.pow.tj.getD (-400) < (dictGet 0x3000 3 d : Int) * 10 - 30 ∧ dictGet 0x3000 5 d ≤ d.pow.coolFrames + 1))
    (hn : 0 < dictGet 0x3000 5 d) : thermalNext d = d.pow.thermal := by
  have held : ¬ dictGet 0x3000 5 d ≤ coolFramesNow d := by
    unfold coolFramesNow
    split
    · exact fun hle => hc ⟨‹_›, hle⟩
    · omega
  rw [thermalNext, if_neg h, if_neg (by omega), if_neg held]

/-- The thermal level changes the power state, and the collector's where it raises an event. -/
theorem thermalLevel_spec (d : Dev) : ∃ pow ev, thermalLevel d = { d with pow := pow, ev := ev } ∧
    pow.thermal = thermalNext d ∧ pow.tj = none ∧ pow.thbm = none := by
  unfold thermalLevel
  extract_lets thr emg old tj th cool release new _ d1
  have level : new = thermalNext d := by simp only [new, release, decide_eq_true_eq]; rfl
  split
  · rw [raise_eq _ _ _ _ (by decide)]
    exact ⟨_, _, rfl, level, rfl, rfl⟩
  · split
    · exact ⟨_, _, rfl, level, rfl, rfl⟩
    · exact ⟨_, _, rfl, level, rfl, rfl⟩

/-! ## A quiet device -/

/-- Nothing stands on the device that a tick begins, ends or tells of: no run, tile, stream or automatic start, no
commit fixed, no twin, and no coordinate that stands for its own. -/
structure Quiet (d : Dev) : Prop where
  runs : d.runs = []
  tiles : d.tiles = []
  streams : d.streams = []
  starts : d.coll.waitingStarts = []
  decided : d.mgmt.commit.decided = none
  twin : d.twin.state = 0
  reintegrate : d.twin.reintegrateAt = none
  unaliased : aliasTo (ownCoord d) d = none

/-- The device after step a of a tick that follows the last one with the same period. -/
def tickPlaced (p : PlannedTick) (d : Dev) : Dev :=
  { d with
    clk := { d.clk with
      frame := p.frame, placed := true, lastTick := p.time, frameOut := true, prepared := false
      ticksPlaced := satAdd 64 d.clk.ticksPlaced 1, planned := d.clk.planned.filter (· != p) }
    pow.haltCharge := 0 }

/-- The device after steps a to d of a tick, all but the thermal level, where it is quiet. -/
def tickSettled (p : PlannedTick) (d : Dev) : Dev :=
  { tickPlaced p d with
    net.bank0 := if d.net.bank0 = 2 then 0 else d.net.bank0
    net.bank1 := if d.net.bank0 ≠ 2 ∧ d.net.bank1 = 2 then 0 else d.net.bank1
    twin := { d.twin with
      partnerFatal := false, fullRaised := false, deposed := false, downAtTick := (Sparse.get {} d.ports 8).state == 4 } }

theorem placeTick_same_period (h : p.period = periodK d) : placeTick p d = tickPlaced p d := by
  simp only [placeTick, h, if_true, tickPlaced]

/-- A device stays quiet while its clock, banks, levels, events and the twin's flags change alone. -/
theorem Quiet.update {e : Dev} (h : Quiet d)
    (he : e = { d with
      clk := e.clk, net := e.net, pow := e.pow, ev := e.ev
      twin := { d.twin with
        partnerFatal := e.twin.partnerFatal, fullRaised := e.twin.fullRaised, deposed := e.twin.deposed
        downAtTick := e.twin.downAtTick } }) : Quiet e := by
  rw [he]
  exact ⟨h.runs, h.tiles, h.streams, h.starts, h.decided, h.twin, h.reintegrate, h.unaliased⟩

theorem Quiet.tickPlaced (h : Quiet d) : Quiet (tickPlaced p d) := h.update rfl

theorem Quiet.tickSettled (h : Quiet d) : Quiet (tickSettled p d) := h.update rfl

theorem Quiet.twinTick (h : Quiet d) : Quiet (twinTick d) := h.update (by rw [twinTick_of_unpaired h.twin])

theorem Quiet.retireEnds (h : Quiet d) : Quiet (retireEnds d) := h.update (by rw [retireEnds_eq])

theorem Quiet.thermalLevel (h : Quiet d) : Quiet (thermalLevel d) := by
  obtain ⟨pow, ev, heq, -⟩ := thermalLevel_spec d
  exact h.update (by rw [heq])

theorem Quiet.powerLevel (h : Quiet d) : Quiet (powerLevel d) := h.update (by rw [powerLevel_of_no_runs h.runs])

theorem Quiet.source1Requests (h : Quiet d) : Quiet (source1Requests d) :=
  h.update (by rw [source1Requests_of_no_runs h.runs])

/-- Steps a and b on a quiet device place the tick, in sequence and with the same period. -/
theorem tickFaults_placeTick (h : Quiet d) (hk : p.period = periodK d) :
    tickFaults false false (placeTick p (closeWindows d)) = tickPlaced p d := by
  rw [closeWindows_of_no_tiles h.tiles, placeTick_same_period hk]; rfl

/-- Steps b to d on a quiet device, all but the levels. -/
theorem stepsBToD_of_quiet (h : Quiet d) (n : Nat) :
    handoverTick (deposeTick (stepTeardowns (applyDecided n (retireEnds (twinTick (tickPlaced p d)))))) =
      tickSettled p d := by
  have q := (h.tickPlaced (p := p)).twinTick.retireEnds
  rw [applyDecided_of_undecided n q.decided, stepTeardowns_of_no_runs q.runs, deposeTick_of_no_alias q.unaliased,
    handoverTick_of_none]
  · rw [retireEnds_eq, twinTick_of_unpaired (h.tickPlaced (p := p)).twin]; rfl
  · exact q.reintegrate

/-- On a quiet device a tick in sequence places the tick, settles the banks and the twin's flags, and sets the
levels. -/
theorem applyTick_of_quiet (h : Quiet d) (hk : p.period = periodK d)
    (hseq : (clapperRole d == 0 && d.clk.placed && p.frame != (d.clk.frame + 1) % 2 ^ 48) = false) :
    applyTick p d = source1Requests (powerLevel (thermalLevel (tickSettled p d))) := by
  have hnew : (p.period != periodK d) = false := by simp [hk]
  have qA : Quiet (tickPlaced p d) := h.tickPlaced
  have qB : Quiet (twinTick (tickPlaced p d)) := qA.twinTick
  have qD : Quiet (thermalLevel (tickSettled p d)) := h.tickSettled.thermalLevel
  have qE : Quiet (powerLevel (thermalLevel (tickSettled p d))) := qD.powerLevel
  have qF : Quiet (source1Requests (powerLevel (thermalLevel (tickSettled p d)))) := qE.source1Requests
  unfold applyTick
  simp only [hseq, hnew, tickFaults_placeTick h hk, runTenants_of_no_runs qA.runs, runningTenants_of_no_runs qA.runs,
    runTenants_of_no_runs qB.runs, List.filter_nil, List.foldl_nil, List.map_nil, stepsBToD_of_quiet h,
    runTenants_of_no_runs qD.runs, resumeTick_of_unpaired qD.twin, countStretched_of_no_runs qE.runs,
    lateSlips_of_no_runs qE.runs, ite_self, autoStarts_of_none_waiting qF.starts, collectorTick_of_no_streams qF.streams,
    readyTick_of_unpaired qF.twin]

theorem localTick_of_not_due (h : dueTick d = none ∨ d.boot.state ≠ 1) : localTick d = d := by
  rcases h with h | h
  · simp [localTick, h]
  · unfold localTick
    split
    · rfl
    · exact if_neg h

/-- On a ready device only ALERT_L follows the state: FRAME_OUT is as the tick has it. -/
theorem settle_of_ready (h : d.boot.state = 1) : settle d = { d with pins.alert := alertLevel d } := by
  simp [settle, h]

/-- What LOCAL_TICK leaves on a ready and quiet device: the settled tick, with the levels of Table 16.3. -/
theorem settle_localTick_of_quiet (h : Quiet d) (hdue : dueTick d = some p) (hready : d.boot.state = 1)
    (hk : p.period = periodK d)
    (hseq : (clapperRole d == 0 && d.clk.placed && p.frame != (d.clk.frame + 1) % 2 ^ 48) = false) :
    ∃ pow ev, settle (localTick d) = { tickSettled p d with pow := pow, ev := ev, pins.alert := alertLevel d } ∧
      pow.thermal = thermalNext d ∧ pow.source1 = pow.thermal ∧ pow.powerLevel = 0 ∧ pow.tj = none ∧ pow.thbm = none := by
  have htick : localTick d = source1Requests (powerLevel (thermalLevel (tickSettled p d))) := by
    simp only [localTick, hdue, hready, if_true, applyTick_of_quiet h hk hseq]
  obtain ⟨pow, ev, hlevel, hthermal, htj, hthbm⟩ := thermalLevel_spec (tickSettled p d)
  have quiet := (h.tickSettled (p := p)).thermalLevel
  rw [htick, source1Requests_of_no_runs quiet.powerLevel.runs, powerLevel_of_no_runs quiet.runs, hlevel]
  exact ⟨_, ev, settle_of_ready hready, hthermal, Nat.max_zero pow.thermal, rfl, htj, hthbm⟩

end Sys2Proof.Machine

namespace Sys2Proof.Proofs
open Sys2Proof.Machine

/-- Settles O43: the tick due is the earliest found, and on a quiet device it is one settled tick with its levels. -/
theorem quietTick : Obligations.QuietTick := by
  unfold Obligations.QuietTick
  rintro s d p rfl
  refine ⟨fun h => answers_onDev rfl rfl (localTick_of_not_due h), dueTick_spec, ?_⟩
  intro hdue hready hruns htiles hstreams hstarts hdecided htwin _ hback halias hk hnext
  have quiet : Quiet s.dev := ⟨hruns, htiles, hstreams, hstarts, hdecided, htwin, hback, halias⟩
  have hseq : (clapperRole s.dev == 0 && s.dev.clk.placed && p.frame != (s.dev.clk.frame + 1) % 2 ^ 48) = false := by
    rcases hnext with h | h | h <;> simp [h]
  obtain ⟨pow, ev, hsettle, hthermal, hsource, hpower, htj, hthbm⟩ := settle_localTick_of_quiet quiet hdue hready hk hseq
  refine completes_onDev rfl rfl (hsettle ▸ ?_)
  refine ⟨rfl, rfl, ⟨fun hot => ?_, fun hot warm => ?_, fun hot cool => ?_, fun hot mild cool pos => ?_⟩,
    hsource, hpower, htj, hthbm, rfl⟩
  · exact hthermal.trans (thermalNext_of_hot hot)
  · exact hthermal.trans (thermalNext_of_warm hot warm)
  · exact hthermal.trans (thermalNext_of_cool hot cool.1 cool.2)
  · exact hthermal.trans (thermalNext_of_mild hot mild cool pos)

end Sys2Proof.Proofs
end

section
/-!
PROOFS. Tick sets of a clapper and of a follower (R32, R34, R36 to R38, R40, R51).
-/
namespace Sys2Proof.Machine

variable {d : Dev} {port v : Nat} {set : BitVec 128}

/-- TICK_SEND announces a tick that is no more than L away. -/
theorem tickSend_of_near (hrole : clapperRole d ≠ 0) (hready : d.boot.state = 1) (hlast : lastAnnounced d = false)
    (hnear : (nextOwn d).2.1 ≤ d.now + dictGet 0x2000 4 d * tUs) :
    tickSend d =
      let n := (nextOwn d).1
      let at_ := max d.now (nextOwn d).2.1
      let e := takeStep (nextOwn d).2.2
      announceTick { frame := n, time := at_, period := periodK d, hold := ownHold d, hops := 0, late := false }
        (if clapperRole d = 2 ∧ n % 2 ^ dictGet 0x2000 7 d = 0 then { e with clk.edges := e.clk.edges ++ [(at_, e.clk.phase)] }
         else e) := by
  rw [tickSend, if_pos ⟨hrole, hready, hlast⟩]
  exact if_pos hnear

/-- Where the oldest second copy alone is due, it alone leaves. -/
theorem tickSecondCopy_of_first {x : SecondCopy} {xs : List SecondCopy} (hs : d.clk.seconds = x :: xs)
    (hx : x.due ≤ d.now) (hxs : ∀ y ∈ xs, d.now < y.due) :
    tickSecondCopy d = tickOut (tickSet x.frame x.period x.hold x.hops x.lead) { d with clk.seconds := xs } := by
  have due : xs.filter (fun y => decide (y.due ≤ d.now)) = [] :=
    List.filter_eq_nil_iff.2 fun y hy => by simpa using hxs y hy
  have later : xs.filter (fun y => !decide (y.due ≤ d.now)) = xs :=
    List.filter_eq_self.2 fun y hy => by simpa using hxs y hy
  simp [tickSecondCopy, hs, hx, due, later]

theorem frameOutFall_of_passed (h : d.clk.lastTick + tUs ≤ d.now) : frameOutFall d = { d with clk.frameOut := false } :=
  if_pos h

/-! ## A copy that arrives -/

/-- A copy off the tree, or at a clapper, is discarded and counted. -/
theorem tickReceive_off_tree (hup : (getPort port d).state = 2) (hready : d.boot.state = 1)
    (hoff : clapperRole d ≠ 0 ∨ port ≠ parentPort d) :
    tickReceive port set d = raise 4 evTickOffTree (srcPort port) { d with clk.offTree := d.clk.offTree + 1 } := by
  rw [tickReceive, if_neg (by simp [hup, hready]), if_pos hoff]

section
variable (hup : (getPort port d).state = 2) (hready : d.boot.state = 1) (hrole : clapperRole d = 0)
  (hparent : port = parentPort d)
include hup hready hrole hparent

theorem tickReceive_bad (hcrc : crc16Good set = false) : tickReceive port set d = d := by
  rw [tickReceive, if_neg (by simp [hup, hready]), if_neg (by simp [hrole, hparent]), if_neg (by simp [hcrc])]

theorem tickReceive_good (hcrc : crc16Good set = true) : tickReceive port set d = goodCopy port set.toNat d := by
  rw [tickReceive, if_neg (by simp [hup, hready]), if_neg (by simp [hrole, hparent]), if_pos hcrc]

end

/-- Holdover for missed ticks ends. -/
def heard (d : Dev) : Dev := { d with clk.missed := 0, clk.lost := false }

/-- The tick that a good copy tells of, at a time. -/
def toldTick (v at_ : Nat) (late : Bool) (d : Dev) : PlannedTick :=
  { frame := bitsOf v 0 48, time := at_, period := bitsOf v 48 3 + 5, hold := bitOf v 51 || ownHold (heard d)
    hops := bitsOf v 56 8 + 1, late := late }

/-- The time that a good copy fixes: its arrival and its LEAD, less the link delay (R36). -/
def toldTime (port v : Nat) (d : Dev) : Int := (d.now : Int) + bitsOf v 64 32 - delayUnits port d

section
variable (hhops : bitsOf v 56 8 ≤ 56)
include hhops

theorem goodCopy_of_known (hknown : knownTick (bitsOf v 0 48) d = true) : goodCopy port v d = heard d := by
  have shallow : ¬ (56 < bitsOf v 56 8 ∧ d.clk.depthRaised = false) := fun h => by omega
  simp only [goodCopy, if_neg shallow]
  exact if_pos hknown

variable (hfirst : knownTick (bitsOf v 0 48) d = false)
include hfirst

theorem goodCopy_of_first :
    goodCopy port v d =
      let late := decide (toldTime port v d < (d.now : Int) + tUs)
      let e := announceTick (toldTick v (if late then d.now + tUs else (toldTime port v d).toNat) late d)
        { heard d with clk.lastHops := bitsOf v 56 8 }
      if late then raise 4 evTickLate (srcPort port) e else e := by
  have shallow : ¬ (56 < bitsOf v 56 8 ∧ d.clk.depthRaised = false) := fun h => by omega
  have first : knownTick (bitsOf v 0 48) (heard d) ≠ true := Bool.eq_false_iff.1 hfirst
  simp only [goodCopy, if_neg shallow]
  exact if_neg first

theorem goodCopy_in_time (htime : (d.now : Int) + tUs ≤ toldTime port v d) :
    goodCopy port v d =
      announceTick (toldTick v (toldTime port v d).toNat false d) { heard d with clk.lastHops := bitsOf v 56 8 } := by
  simp [goodCopy_of_first hhops hfirst, Int.not_lt.2 htime]

theorem goodCopy_late (hlate : toldTime port v d < (d.now : Int) + tUs) :
    goodCopy port v d = raise 4 evTickLate (srcPort port)
      (announceTick (toldTick v (d.now + tUs) true d) { heard d with clk.lastHops := bitsOf v 56 8 }) := by
  simp [goodCopy_of_first hhops hfirst, hlate]

end

end Sys2Proof.Machine

namespace Sys2Proof.Proofs
open Sys2Proof.Machine

/-- Settles O9: what a clapper sends, and a copy that arrives by its port, its CRC and its tick. -/
theorem tickSets : Obligations.TickSets := by
  unfold Obligations.TickSets
  refine ⟨?sent, ?received⟩
  case sent =>
    rintro s d rfl
    exact ⟨fun hrole hready hlast hnear => answers_onDev rfl rfl (tickSend_of_near hrole hready hlast hnear),
      fun x xs hs hx hxs => answers_onDev rfl rfl (tickSecondCopy_of_first hs hx hxs),
      fun h => answers_onDev rfl rfl (frameOutFall_of_passed h)⟩
  case received =>
    rintro s d port set rfl n hops t e plan hport hup hready
    have answers {d'} (h : tickReceive port set s.dev = d') : Answers (.tickOrderedSet port set) s d' :=
      answers_onDev (decide_eq_true hport) rfl h
    refine ⟨fun hrole hparent hcrc hhops => ?_, fun hrole hparent hcrc => ?_, fun hoff => ?_⟩
    · have good := tickReceive_good hup hready hrole hparent hcrc
      exact ⟨fun hfirst htime => answers (good.trans (goodCopy_in_time hhops hfirst htime)),
        fun hfirst hlate => answers (good.trans (goodCopy_late hhops hfirst hlate)),
        fun hknown => answers (good.trans (goodCopy_of_known hhops hknown))⟩
    · exact answers (tickReceive_bad hup hready hrole hparent hcrc)
    · exact answers (tickReceive_off_tree hup hready hoff)

end Sys2Proof.Proofs
end

section
/-!
PROOFS. Missed and lost ticks (R39), FRAME_IN (R32, R475) and the calibration exchange (R35).
-/
namespace Sys2Proof.Machine

variable {d : Dev} {port : Nat} {set : BitVec 128}

/-! ## Ticks that do not come -/

theorem tickMissed_of_none_near (hrole : clapperRole d = 0) (hready : d.boot.state = 1) (hplaced : d.clk.placed = true)
    (hpred : d.clk.lastTick + framePeriod d ≤ d.now + tUs)
    (hfar : ∀ p ∈ d.clk.planned, framePeriod d < 2 * ((p.time : Int) - (d.clk.lastTick + framePeriod d : Nat)).natAbs) :
    tickMissed d = announceTick
      { frame := (d.clk.frame + 1) % 2 ^ 48, time := max (d.clk.lastTick + framePeriod d) d.now, period := periodK d
        hold := true, hops := d.clk.lastHops + 1, late := false }
      (raise 4 evTickMissed (tickSource d) { d with clk.missed := d.clk.missed + 1 }) := by
  have none_near : (d.clk.planned.any fun p =>
      decide (2 * ((p.time : Int) - (d.clk.lastTick + framePeriod d : Nat)).natAbs ≤ framePeriod d)) = false :=
    List.any_eq_false.2 fun p hp => by simpa using hfar p hp
  exact if_pos ⟨hrole, hready, hplaced, hpred, none_near⟩

section
variable (hrole : clapperRole d = 0) (hlost : d.clk.lost = false) (hmissed : 16 ≤ d.clk.missed)
include hrole hlost hmissed

theorem tickLost_of_missed :
    tickLost d = clockFault evTickLost 0 (runningTenants d) (faultRun 2 evTickLost 0) { d with clk.lost := true } := by
  rw [tickLost, if_neg (by simp [hlost]), if_pos ⟨hrole, hmissed⟩]

theorem tickLost_of_none_running (h : runningTenants d = []) :
    tickLost d = raise 2 evTickLost 0 { d with clk.lost := true } := by
  rw [tickLost_of_missed hrole hlost hmissed, h]; rfl

theorem tickLost_of_running (h : runningTenants d ≠ []) :
    tickLost d = (runningTenants d).foldl (fun e t => faultRun 2 evTickLost 0 t e) { d with clk.lost := true } := by
  rw [tickLost_of_missed hrole hlost hmissed, clockFault, if_neg (by simpa using h)]

end

/-! ## FRAME_IN -/

/-- The device after an edge that is not used. -/
def edgeMissed (d : Dev) : Dev := { d with clk.edgeIgnored := d.clk.edgeIgnored + 1 }

/-- The device after the expected edge `e` has come. -/
def edgeSeen (e : Nat × Int) (d : Dev) : Dev :=
  { d with clk.edges := d.clk.edges.filter (· != e), clk.edgeMissing := 0, clk.edgeHold := false }

theorem frameInEdge_other_role (h : clapperRole d ≠ 2) : frameInEdge d = d := if_pos h

section
variable (hrole : clapperRole d = 2)
include hrole

theorem frameInEdge_unexpected (h : nearestEdge d = none) : frameInEdge d = edgeMissed d := by
  simp [frameInEdge, hrole, h, edgeMissed]

variable {e : Nat × Int} (hedge : nearestEdge d = some e)
include hedge

theorem frameInEdge_far (h : tUs < ((d.now : Int) - e.1).natAbs) : frameInEdge d = edgeMissed d := by
  simp [frameInEdge, hrole, hedge, h, edgeMissed]

theorem frameInEdge_close (h : ((d.now : Int) - e.1).natAbs ≤ 20 * tNs) (hlocked : d.clk.edgeLocked = true)
    (herror : d.clk.phaseError = 0) : frameInEdge d = edgeSeen e d := by
  have near : ¬ tUs < ((d.now : Int) - e.1).natAbs := Nat.not_lt.2 (Nat.le_trans h (by decide))
  simp [frameInEdge, hrole, hedge, near, Nat.not_lt.2 h, hlocked, herror, edgeSeen]

theorem frameInEdge_off (hoff : 20 * tNs < ((d.now : Int) - e.1).natAbs) (h : ((d.now : Int) - e.1).natAbs ≤ tUs)
    (hleft : 20 ≤ ((d.now : Int) - e.1 - (d.clk.phase - e.2)).natAbs) :
    frameInEdge d = { edgeSeen e d with clk.phaseError := (d.now : Int) - e.1 - (d.clk.phase - e.2) } := by
  have left : ¬ ((d.now : Int) - e.1 - (d.clk.phase - e.2)).natAbs < phaseLocked.natAbs := Nat.not_lt.2 hleft
  simp [frameInEdge, hrole, hedge, Nat.not_lt.2 h, hoff, left, edgeSeen]

end

/-- Whether an expected edge has not come. -/
def edgeGone (d : Dev) (e : Nat × Int) : Bool := decide (e.1 + tUs < d.now)

/-- The edges in a row that have not come. -/
def edgesGone (d : Dev) : Nat := d.clk.edgeMissing + (d.clk.edges.filter (edgeGone d)).length

/-- The device once the edges that have not come are counted. -/
def edgesCounted (d : Dev) : Dev :=
  { d with clk.edges := d.clk.edges.filter fun x => !edgeGone d x, clk.edgeMissing := edgesGone d }

theorem frameInMissing_eq (d : Dev) :
    frameInMissing d =
      if clapperRole d = 2 ∧ 4 ≤ edgesGone d ∧ d.clk.edgeHold = false then
        raise 4 evFrameInMissing 0 { edgesCounted d with clk.edgeHold := true }
      else edgesCounted d := rfl

/-! ## Calibration -/

theorem calibrationReceive_unused (h : (getPort port d).state ≠ 2 ∨ crc16Good set = false) :
    calibrationReceive port set d = d := if_pos h

section
variable (hup : (getPort port d).state = 2) (hcrc : crc16Good set = true)
include hup hcrc

theorem calibrationReceive_request (h : bitsOf set.toNat 0 2 = 0) :
    calibrationReceive port set d = emit (.orderedSet port 1 (calibrationSet 1 d.now d.now)) d := by
  have reply : sendSet port 1 (calibrationSet 1 d.now d.now) d = _ := if_pos hup
  simp [calibrationReceive, hup, hcrc, h, reply]

theorem calibrationReceive_reply (h : bitsOf set.toNat 0 2 = 1) (hsent : Sparse.get 0 d.clk.calSent port ≠ 0) :
    calibrationReceive port set d =
      delaySample port
        (exchangeDelay port (Sparse.get 0 d.clk.calSent port - 1) (bitsOf set.toNat 8 48) (bitsOf set.toNat 56 48) d.now d)
        { d with clk.calSent := Sparse.set 0 d.clk.calSent port 0 } := by
  simp [calibrationReceive, hup, hcrc, h, hsent]

theorem calibrationReceive_unasked (h : bitsOf set.toNat 0 2 = 1) (hsent : Sparse.get 0 d.clk.calSent port = 0) :
    calibrationReceive port set d = d := by
  simp [calibrationReceive, hup, hcrc, h, hsent]

end

end Sys2Proof.Machine

namespace Sys2Proof.Proofs
open Sys2Proof.Machine

/-- Settles O10: each timer and edge by its case, and a calibration set by its port, its CRC and its phase. -/
theorem tickFaults : Obligations.TickFaults := by
  unfold Obligations.TickFaults
  refine ⟨?clock, ?calibration⟩
  case clock =>
    rintro s d rfl
    refine ⟨fun hrole hready hplaced hpred hfar => ?_, fun hrole hlost hmissed => ⟨fun h => ?_, fun h => ?_⟩,
      fun h => ?_, fun hrole h => ?_, fun e hrole hedge h => ?_, fun e hrole hedge h hlocked herror => ?_,
      fun e hrole hedge hoff h hleft => ?_, fun h => ?_, fun hrole h hhold => ?_⟩
    · exact answers_onDev rfl rfl (tickMissed_of_none_near hrole hready hplaced hpred hfar)
    · exact answers_onDev rfl rfl (tickLost_of_none_running hrole hlost hmissed h)
    · exact answers_onDev rfl rfl (tickLost_of_running hrole hlost hmissed h)
    · exact answers_onDev rfl rfl (frameInEdge_other_role h)
    · exact answers_onDev rfl rfl (frameInEdge_unexpected hrole h)
    · exact answers_onDev rfl rfl (frameInEdge_far hrole hedge h)
    · exact answers_onDev rfl rfl (frameInEdge_close hrole hedge h hlocked herror)
    · exact answers_onDev rfl rfl (frameInEdge_off hrole hedge hoff h hleft)
    · exact answers_onDev rfl rfl ((frameInMissing_eq s.dev).trans (if_neg fun hn => Nat.not_le.2 h hn.2.1))
    · exact answers_onDev rfl rfl ((frameInMissing_eq s.dev).trans (if_pos ⟨hrole, h, hhold⟩))
  case calibration =>
    rintro s d port set rfl v sent hport
    have answers {d'} (h : calibrationReceive port set s.dev = d') : Answers (.calibrationOrderedSet port set) s d' :=
      answers_onDev (decide_eq_true hport) rfl h
    exact ⟨fun hup hcrc => ⟨fun h => answers (calibrationReceive_request hup hcrc h),
        fun h hsent => answers (calibrationReceive_reply hup hcrc h hsent),
        fun h hsent => answers (calibrationReceive_unasked hup hcrc h hsent)⟩,
      fun h => answers (calibrationReceive_unused h)⟩

end Sys2Proof.Proofs
end

section
/-!
PROOFS. The boundary preparation, and what is done in the absence of ticks (R24, R35, R44, R388, R404).
-/
namespace Sys2Proof.Machine

variable {d : Dev} {n : Nat}

/-! ## The evaluation of a commit -/

theorem evaluateCommit_of_refused {o : Nat × Nat × Nat} (h : setRefusal n d = some o) :
    evaluateCommit n d = { d with mgmt.commit.decided := some o } := by simp [evaluateCommit, h]

section
variable (hset : setRefusal n d = none)
include hset

theorem evaluateCommit_of_quiet (h : notQuiet d = none) :
    evaluateCommit n d = { d with mgmt.commit.decided := some (0, 0, 0) } := by simp [evaluateCommit, hset, h]

theorem evaluateCommit_of_waiting {i : Nat × Nat} (h : notQuiet d = some i) (hexact : d.mgmt.commit.exact_ = false)
    (htime : d.now < d.mgmt.commit.arrived + setTimeout d * tMs) : evaluateCommit n d = d := by
  simp [evaluateCommit, hset, h, hexact, Nat.not_le.2 htime]

end

theorem frameEvaluation_of_not_waiting (h : commitWaits d = false) : frameEvaluation d = d := by
  simp [frameEvaluation, h]

theorem frameEvaluation_of_waiting (h : commitWaits d = true) (hfirst : d.mgmt.commit.first ≤ d.clk.frame) :
    frameEvaluation d = evaluateCommit (d.clk.frame + 1) d := by simp [frameEvaluation, h, hfirst]

/-! ## The boundary preparation -/

/-- A calibration request changes the open exchanges and what has been sent, and nothing else. -/
theorem calibrationRequest_frame (p : Nat) (d : Dev) :
    ∃ sent out, calibrationRequest p d = { d with clk.calSent := sent, out := out } := by
  unfold calibrationRequest sendSet emit
  split
  · split <;> exact ⟨_, _, rfl⟩
  · exact ⟨_, _, rfl⟩

theorem calibrationRequests_frame (l : List Nat) (d : Dev) :
    ∃ sent out, l.foldl (fun e p => calibrationRequest p e) d = { d with clk.calSent := sent, out := out } := by
  induction l generalizing d with
  | nil => exact ⟨_, _, rfl⟩
  | cons p l ih =>
    obtain ⟨sent, out, hp⟩ := calibrationRequest_frame p d
    obtain ⟨sent', out', hl⟩ := ih { d with clk.calSent := sent, out := out }
    exact ⟨sent', out', by rw [List.foldl_cons, hp, hl]⟩

/-- The device once every port that is up has begun a calibration exchange. -/
def calibrated (d : Dev) : Dev := (List.range 9).foldl (fun e p => calibrationRequest p e) { d with clk.prepared := true }

theorem calibrated_frame (d : Dev) :
    ∃ sent out, calibrated d = { d with clk.prepared := true, clk.calSent := sent, out := out } := by
  obtain ⟨sent, out, h⟩ := calibrationRequests_frame (List.range 9) { d with clk.prepared := true }
  exact ⟨sent, out, h⟩

@[simp] theorem calibrated_mgmt (d : Dev) : (calibrated d).mgmt = d.mgmt := by
  obtain ⟨sent, out, h⟩ := calibrated_frame d
  rw [h]

@[simp] theorem calibrated_clk_frame (d : Dev) : (calibrated d).clk.frame = d.clk.frame := by
  obtain ⟨sent, out, h⟩ := calibrated_frame d
  rw [h]

@[simp] theorem commitWaits_calibrated (d : Dev) : commitWaits (calibrated d) = commitWaits d := by simp [commitWaits]

theorem boundaryPreparation_of_due (hplaced : d.clk.placed = true) (hprepared : d.clk.prepared = false)
    (hready : d.boot.state = 1) (htime : d.clk.lastTick + framePeriod d ≤ d.now + tUs) :
    boundaryPreparation d = rampVcore (frameEvaluation (calibrated d)) := if_pos ⟨hplaced, hprepared, hready, htime⟩

theorem frameEvaluation_calibrated (h : commitWaits d = true) (hfirst : d.mgmt.commit.first ≤ d.clk.frame) :
    frameEvaluation (calibrated d) = evaluateCommit (d.clk.frame + 1) (calibrated d) := by
  have first : (calibrated d).mgmt.commit.first ≤ (calibrated d).clk.frame := by simpa using hfirst
  rw [frameEvaluation_of_waiting (by simpa using h) first, calibrated_clk_frame]

/-! ## Without ticks -/

/-- A commit that is polled with its outcome open is evaluated, and an outcome takes effect at once. -/
theorem commitNoTick_of_due (hstate : d.mgmt.commit.state = 1) (hno : noTick d = true ∨ d.boot.state = 2)
    (htime : d.mgmt.commit.polledAt + tMs ≤ d.now) (hopen : d.mgmt.commit.decided = none) :
    commitNoTick d =
      applyDecided d.clk.frame (evaluateCommit (d.clk.frame + 1) { d with mgmt.commit.polledAt := d.now }) := by
  rw [commitNoTick, if_pos ⟨hstate, hno, htime⟩]
  simp [hopen]

theorem applyDecided_of_refused {code idx sub : Nat} (h : d.mgmt.commit.decided = some (code, idx, sub)) (hc : code ≠ 0) :
    applyDecided n d = commitOutcome code idx sub 0 3 d := by simp [applyDecided, h, hc]

theorem phasedStep_of_due (hdone : d.mem.refreshDone < 8) (hat : d.mem.refreshAt < d.clk.ticksPlaced) :
    phasedStep d = { d with
      mem.refreshDone := d.mem.refreshDone + 1, mem.refreshAt := d.clk.ticksPlaced
      mgmt.commit.state := if d.mem.refreshDone = 7 ∧ d.mgmt.commit.state = 4 then 2 else d.mgmt.commit.state } := by
  have last : d.mem.refreshDone + 1 = 8 ↔ d.mem.refreshDone = 7 := by omega
  simp only [phasedStep, if_pos (And.intro hdone hat), last]

end Sys2Proof.Machine

namespace Sys2Proof.Proofs
open Sys2Proof.Machine

/-- Settles O13: each piece of work by the outcome of the evaluation that it makes. -/
theorem boundaryWork : Obligations.BoundaryWork := by
  unfold Obligations.BoundaryWork
  rintro s d rfl
  refine ⟨?prepared, ?polled, ?torn, ?kept, ?phased⟩
  case prepared =>
    intro hplaced hprepared hready htime e n
    have he : calibrated s.dev = e := rfl
    clear_value e
    have answers {e'} (h : frameEvaluation e = e') : Answers .boundaryPreparation s (rampVcore e') := by
      have prep := boundaryPreparation_of_due hplaced hprepared hready htime
      exact answers_onDev rfl rfl (by rw [prep, he, h])
    refine ⟨fun h => ?_, fun h hfirst => ?_⟩
    · exact answers (frameEvaluation_of_not_waiting (by rw [← he, commitWaits_calibrated, h]))
    · have evaluated : frameEvaluation e = evaluateCommit n e := by rw [← he, frameEvaluation_calibrated h hfirst]
      exact ⟨fun o ho => answers (evaluated.trans (evaluateCommit_of_refused ho)),
        fun hset hquiet => answers (evaluated.trans (evaluateCommit_of_quiet hset hquiet))⟩
  case polled =>
    intro hstate hno htime hopen e
    have answers {d' e'} (h : evaluateCommit (s.dev.clk.frame + 1) e = e') (ha : applyDecided s.dev.clk.frame e' = d') :
        Answers .commitEvaluationNoTick s d' :=
      answers_onDev rfl rfl ((commitNoTick_of_due hstate hno htime hopen).trans ((congrArg _ h).trans ha))
    exact ⟨fun c i k hset hc => answers (evaluateCommit_of_refused hset) (applyDecided_of_refused rfl hc),
      fun hset hquiet => answers (evaluateCommit_of_quiet hset hquiet) rfl,
      fun i hset hi hexact hwait =>
        answers (evaluateCommit_of_waiting hset hi hexact hwait) (applyDecided_of_undecided _ hopen)⟩
  case torn => exact fun h => answers_onDev rfl rfl (if_pos h)
  case kept => exact fun h => answers_onDev rfl rfl (if_neg (Bool.eq_false_iff.1 h))
  case phased => exact fun hdone hat => answers_onDev rfl rfl (phasedStep_of_due hdone hat)

end Sys2Proof.Proofs
end

section
/-!
PROOFS. An engine word that is rejected (R75).
-/
namespace Sys2Proof.Machine

/-! ## The fault of a run -/

section
variable {cls : Nat} (num src t u : Nat) (d : Dev) (detail : Nat)

/-- A fault of a run is counted in its class, like any event. -/
theorem faultRun_counts (cls : Nat) :
    Sparse.get 0 (faultRun cls num src t d detail).ev.counts cls = satAdd 64 (Sparse.get 0 d.ev.counts cls) 1 := by
  rw [← bumpTable_get_same]
  unfold faultRun
  extract_lets r d1
  have counted : d1.ev.counts = bumpTable d.ev.counts cls 1 := raiseEvent_counts _ d
  rw [← counted]
  split <;> rfl

theorem getRun_faultRun_of_running (hr : (getRun t d).running = true) :
    getRun t (faultRun cls num src t d detail) = { getRun t d with haltPending := true } := by
  simp [faultRun, hr]

variable (h : cls ≠ 3)
include h

theorem getTile_faultRun : getTile u (faultRun cls num src t d detail) = getTile u d := by
  rw [faultRun_eq num src t d detail h]; rfl

/-- A fault leaves the runs of other tenants, and a run of its own tenant that is not Running. -/
theorem getRun_faultRun_of_unconcerned (hu : u ≠ t ∨ (getRun t d).running = false) :
    getRun u (faultRun cls num src t d detail) = getRun u d := by
  unfold faultRun
  extract_lets r d1
  have raised : getRun u d1 = getRun u d := by simp only [d1]; rw [raiseEvent_eq d h]; rfl
  split
  · rw [getRun_setRun, if_neg (by simp_all [r]), raised]
  · exact raised

end

/-! ## Queues -/

theorem queueOf_setQueue (t e x k : Nat) (l : List QWord) (d : Dev) :
    queueOf x k (setQueue t e l d) = if x = t ∧ k = e then l else queueOf x k d := by
  unfold queueOf setQueue
  rw [getTile_modTile]
  by_cases hx : x = t
  · subst hx; simp [Sparse.get_set]
  · simp [hx]

/-- A change of a queue leaves everything of every tile but its queues. -/
theorem getTile_setQueue (t e x : Nat) (l : List QWord) (d : Dev) :
    getTile x (setQueue t e l d) = { getTile x d with queues := (getTile x (setQueue t e l d)).queues } := by
  unfold setQueue
  rw [getTile_modTile]
  split
  · subst_vars; rfl
  · rfl

/-! ## Rejection -/

/-- A rejected word that no reel brought leaves its queue, and its event is raised for its tenant. -/
theorem rejectHead_of_issued {t e : Nat} {q : QWord} {d : Dev} (cls num : Nat) (h : headOf t e d = some q)
    (hq : q.reel = none) :
    rejectHead t e cls num d = faultRun cls num (wordSrc t) q.tenant (setQueue t e ((queueOf t e d).drop 1) d) := by
  simp [rejectHead, h, hq, dropHead]

end Sys2Proof.Machine

namespace Sys2Proof.Proofs
open Sys2Proof.Machine

/-- Settles O14: a rejection is a change of one queue followed by a fault of class 0x1. -/
theorem rejectedWord : Obligations.RejectedWord := by
  unfold Obligations.RejectedWord
  intro t e num q d hhead hreel
  have contained : (1 : Nat) ≠ 3 := by decide
  rw [rejectHead_of_issued 1 num hhead hreel]
  generalize hdrop : setQueue t e ((queueOf t e d).drop 1) d = shorter
  have tile (x : Nat) : getTile x (faultRun 1 num (wordSrc t) q.tenant shorter) = getTile x shorter :=
    getTile_faultRun _ _ _ _ _ _ contained
  have queue (x k : Nat) : queueOf x k (faultRun 1 num (wordSrc t) q.tenant shorter) =
      if x = t ∧ k = e then (queueOf t e d).drop 1 else queueOf x k d := by
    rw [queueOf, tile, ← hdrop]; exact queueOf_setQueue ..
  refine ⟨?head, fun x k hxk => ?queues, fun x => ?tiles, ?frame, fun hr => ?halts, fun u hu => ?runs, ?counted⟩
  case head => rw [queue, if_pos ⟨rfl, rfl⟩]
  case queues => rw [queue, if_neg (by omega)]
  case tiles => rw [tile, ← hdrop]; exact getTile_setQueue ..
  case frame => rw [faultRun_eq _ _ _ _ _ contained, ← hdrop]; rfl
  case halts => subst hdrop; exact getRun_faultRun_of_running _ _ _ _ _ hr
  case runs => subst hdrop; exact getRun_faultRun_of_unconcerned _ _ _ _ _ _ contained hu
  case counted => subst hdrop; exact faultRun_counts _ _ _ _ _ 1

end Sys2Proof.Proofs
end

section
/-!
PROOFS. The batch collectors (R69 to R74): a request that arrives, the streams of a die that are evaluated, and one
stream that releases or is blocked.
-/
namespace Sys2Proof.Machine

variable {d : Dev} {k : Nat}

/-- A stream after its batch has been released. -/
def Stream.released (x : Stream) : Stream :=
  { x with pending := [], batch := x.batch + 1, dropped := 0, blocked := false, tickDue := false, flush := false }

/-! ## What the evaluation of a stream leaves of the dictionary -/

section
variable (d : Dev)

theorem raiseEvent_mgmt (e : Event) : (raiseEvent e d).mgmt = d.mgmt := by rw [raiseEvent_frame]

theorem faultRun_mgmt (cls num src t detail : Nat) : (faultRun cls num src t d detail).mgmt = d.mgmt := by
  unfold faultRun
  extract_lets r d1
  split <;> exact raiseEvent_mgmt d _

theorem countCorrected_mgmt (a : Nat) : (countCorrected a d).mgmt = d.mgmt := by
  unfold countCorrected
  split <;> exact raiseEvent_mgmt _ _

theorem counterUe_mgmt (t : Nat) (owner : Option Nat) : (counterUe t owner d).mgmt = d.mgmt := by
  unfold counterUe
  cases owner
  · exact raiseEvent_mgmt _ _
  · exact faultRun_mgmt _ _ _ _ _ _

theorem poolTouch_mgmt (i : Nat) : (poolTouch i d).mgmt = d.mgmt := by
  unfold poolTouch
  extract_lets e d1
  split
  · rfl
  · split
    · exact raiseEvent_mgmt _ _
    · exact counterUe_mgmt _ _ _

theorem localTouch_mgmt (t i : Nat) : (localTouch t i d).mgmt = d.mgmt := by
  unfold localTouch
  extract_lets e d1
  split
  · rfl
  · split
    · exact raiseEvent_mgmt _ _
    · exact counterUe_mgmt _ _ _

theorem localAdd_mgmt (t i v : Nat) : (localAdd t i v d).2.mgmt = d.mgmt := by
  unfold localAdd
  extract_lets d1 n
  have touched : d1.mgmt = d.mgmt := localTouch_mgmt d t i
  split
  · exact touched
  · split <;> exact touched

theorem physWrite_mgmt (a : Nat) (bs : Bytes) : (physWrite a bs d).2.mgmt = d.mgmt := by
  unfold physWrite
  extract_lets n es whole d1
  refine List.foldlRecOn es _ (motive := fun e : Dev => e.mgmt = d.mgmt) rfl fun e he p _ => ?_
  split
  · exact he
  · split
    · exact (countCorrected_mgmt _ _).trans he
    · exact he

/-- Results that a batch registers are held with the runs of its tenant. -/
theorem resultPending_frame (k j frame offset : Nat) :
    ∃ runs, resultPending k j frame offset d = { d with runs := runs } := by
  unfold resultPending
  refine List.foldlRecOn _ _ (motive := fun e : Dev => ∃ runs, e = { d with runs := runs }) ⟨d.runs, rfl⟩ ?_
  rintro _ ⟨runs, rfl⟩ s _
  exact ⟨_, rfl⟩

theorem batchRelease_mgmt (k reason : Nat) : (batchRelease k reason d).mgmt = d.mgmt := by
  unfold batchRelease
  extract_lets v x t w d1 first d2
  have written : d1.mgmt = d.mgmt := by
    have placed : w.2.mgmt = d.mgmt := physWrite_mgmt d _ _
    simp only [d1]
    split
    · exact (faultRun_mgmt _ _ _ _ _ _).trans placed
    · exact placed
  have emptied : d2.mgmt = d.mgmt := by
    obtain ⟨runs, h⟩ := resultPending_frame (modStream k Stream.released d1) k x.batch first.frame first.offset
    exact (congrArg Dev.mgmt h).trans written
  have signalled := (localAdd_mgmt d2 (stTile v) (stRelease v) 1).trans emptied
  split
  · simp_all
  · exact (faultRun_mgmt _ _ _ _ _ _).trans (by simp_all)

theorem streamTry_mgmt (k : Nat) : (streamTry k d).mgmt = d.mgmt := by
  unfold streamTry
  extract_lets e reason
  have touched : e.mgmt = d.mgmt := by
    simp only [e]
    split
    · exact poolTouch_mgmt _ _
    · rfl
  split
  · exact touched
  split
  · exact (batchRelease_mgmt _ _ _).trans touched
  split
  · exact touched
  · exact (raiseEvent_mgmt _ _).trans touched

end

/-- A stream's record is an entry of the dictionary, which no evaluation changes. -/
theorem streamRec_streamTry (k j : Nat) (d : Dev) : streamRec j (streamTry k d) = streamRec j d := by
  simp only [streamRec, dictGet, streamTry_mgmt]

/-! ## Requests (R70) -/

@[simp] theorem getStream_modStream_same (k : Nat) (f : Stream → Stream) (d : Dev) :
    getStream k (modStream k f d) = f (getStream k d) := Sparse.get_modify_same (α := Stream) {} d.streams k f

section
variable {die t r : Nat} {record : Bytes} (hr : leNat (record.take 16) = r) (hk : die * 64 + bitsOf r 48 6 = k)
include hr hk

theorem collectorRequest_of_foreign
    (h : bitsOf r 54 1 ≠ die ∨ stEnable (streamRec k d) = false ∨ stTenant (streamRec k d) ≠ t) :
    collectorRequest die t record d =
      raiseT 1 evCollectorReject (srcDie die) t (modStream k (fun x => { x with rejected := satAdd 64 x.rejected 1 }) d) := by
  subst hr hk
  exact if_pos h

theorem collectorRequest_of_room (hdie : bitsOf r 54 1 = die) (hon : stEnable (streamRec k d) = true)
    (ht : stTenant (streamRec k d) = t) (hroom : (getStream k d).pending.length < stMax (streamRec k d)) :
    collectorRequest die t record d = modStream k (fun x => { x with pending := x.pending ++
      [{ row := bitsOf r 0 48, tag := bitsOf r 64 16, at_ := d.now,
         frame := (eventStamp d).1, offset := (eventStamp d).2 }] }) d := by
  subst hr hk
  have own : ¬ (bitsOf (leNat (record.take 16)) 54 1 ≠ die ∨
      stEnable (streamRec (die * 64 + bitsOf (leNat (record.take 16)) 48 6) d) = false ∨
      stTenant (streamRec (die * 64 + bitsOf (leNat (record.take 16)) 48 6) d) ≠ t) := by simp [hdie, hon, ht]
  simp only [collectorRequest, if_neg own, if_neg (Nat.not_le.2 hroom)]

end

/-! ## One stream (R71, R74) -/

theorem streamTry_of_disabled (h : stEnable (streamRec k d) = false) : streamTry k d = d := by simp [streamTry, h]

/-- An enabled stream whose consumed counter has sound storage acts on the device as it stands. -/
theorem streamTry_of_sound (hon : stEnable (streamRec k d) = true)
    (hsound : Sparse.get 0 d.ctr.err (65536 + stConsumed (streamRec k d)) = 0) :
    streamTry k d =
      if releaseReason k d = 0 then d
      else if slotFree k d then batchRelease k (releaseReason k d) d
      else if (getStream k d).blocked then d
      else raiseT 4 evCollectorBlocked (srcDie (k / 64)) (stTenant (streamRec k d))
        (modStream k (fun x => { x with blocked := true }) d) := by
  have touched : poolTouch (stConsumed (streamRec k d)) d = d := by simp [poolTouch, hsound]
  simp [streamTry, hon, touched]

/-! ## A release (R72, R73) -/

theorem physWrite_of_no_errors (a : Nat) (bs : Bytes) (h : d.mem.err = []) :
    physWrite a bs d = (false, { d with mem.phys := Mem.writeN d.mem.phys a bs }) := by
  simp [physWrite, errsIn, h]

/-- `v` added to a local counter. -/
def localAdded (t i v : Nat) (d : Dev) : Dev :=
  modTile t (fun x => { x with lc := Sparse.set 0 x.lc i (BitVec.ofNat 64 (localValue t i d + v)) }) d

theorem localAdd_of_sound {t i v : Nat} (hsound : Sparse.get 0 d.ctr.err (t * 64 + i) = 0)
    (hpoison : localPoisoned t i d = false) (hfits : localValue t i d + v < 2 ^ 64) :
    localAdd t i v d = (.applied, localAdded t i v d) := by
  have touched : localTouch t i d = d := by simp [localTouch, hsound]
  simp only [localAdd, touched, hpoison, if_neg (Nat.not_le.2 hfits), Bool.false_eq_true, if_false, localAdded]

theorem localValue_localAdded {t i v : Nat} (h : localValue t i d + v < 2 ^ 64) :
    localValue t i (localAdded t i v d) = localValue t i d + v := by
  rw [localValue, localAdded, getTile_modTile_same, Sparse.get_set_same, BitVec.toNat_ofNat, Nat.mod_eq_of_lt h]

/-- The place of a stream's next batch. -/
def batchAddr (k : Nat) (d : Dev) : Nat :=
  scratchAddr (stTile (streamRec k d))
    (stRing (streamRec k d) + (getStream k d).batch % stSlots (streamRec k d) * 2112)

section
variable (reason : Nat) (hmem : d.mem.err = [])
  (hsound : Sparse.get 0 d.ctr.err (stTile (streamRec k d) * 64 + stRelease (streamRec k d)) = 0)
  (hpoison : localPoisoned (stTile (streamRec k d)) (stRelease (streamRec k d)) d = false)
  (hfits : localValue (stTile (streamRec k d)) (stRelease (streamRec k d)) d + 1 < 2 ^ 64)
include hmem hsound hpoison hfits

/-- On sound memory and counters a release writes the batch, empties the stream, registers the results with the runs and
adds 1 to the release counter. -/
theorem batchRelease_of_sound :
    ∃ runs, batchRelease k reason d =
      localAdded (stTile (streamRec k d)) (stRelease (streamRec k d)) 1 { modStream k Stream.released d with
        mem.phys := Mem.writeN d.mem.phys (batchAddr k d) (batchBytes k reason (getStream k d) (stTenant (streamRec k d)))
        runs := runs } := by
  unfold batchRelease
  extract_lets v x t w d1 first d2
  have written : d1 = { d with mem.phys := Mem.writeN d.mem.phys (batchAddr k d) (batchBytes k reason x t) } := by
    have sound : w = (false, _) := physWrite_of_no_errors _ _ hmem
    simp only [d1, sound]; rfl
  obtain ⟨runs, emptied⟩ : ∃ runs, d2 = { modStream k Stream.released d1 with runs := runs } :=
    resultPending_frame _ _ _ _ _
  have added : localAdd (stTile v) (stRelease v) 1 d2 = (.applied, localAdded (stTile v) (stRelease v) 1 d2) := by
    rw [emptied, written]
    exact localAdd_of_sound hsound hpoison hfits
  rw [added, emptied, written]
  exact ⟨runs, rfl⟩

theorem batchRelease_phys : (batchRelease k reason d).mem.phys =
    Mem.writeN d.mem.phys (batchAddr k d) (batchBytes k reason (getStream k d) (stTenant (streamRec k d))) := by
  obtain ⟨runs, h⟩ := batchRelease_of_sound reason hmem hsound hpoison hfits
  rw [h]; rfl

theorem getStream_batchRelease : getStream k (batchRelease k reason d) = (getStream k d).released := by
  obtain ⟨runs, h⟩ := batchRelease_of_sound reason hmem hsound hpoison hfits
  rw [h]; exact getStream_modStream_same k Stream.released d

theorem localValue_batchRelease :
    localValue (stTile (streamRec k d)) (stRelease (streamRec k d)) (batchRelease k reason d) =
      localValue (stTile (streamRec k d)) (stRelease (streamRec k d)) d + 1 := by
  obtain ⟨runs, h⟩ := batchRelease_of_sound reason hmem hsound hpoison hfits
  rw [h]; exact localValue_localAdded hfits

end

/-! ## The streams of a die (COLLECTOR_EVALUATION) -/

/-- The streams of a die that are enabled, in rising order. -/
def enabledStreams (die : Nat) (d : Dev) : List Nat :=
  ((List.range 64).map (die * 64 + ·)).filter fun k => stEnable (streamRec k d)

/-- Streams that are disabled play no part in an evaluation. -/
theorem foldl_streamTry_eq (l : List Nat) (d : Dev) :
    l.foldl (fun e k => streamTry k e) d =
      (l.filter fun k => stEnable (streamRec k d)).foldl (fun e k => streamTry k e) d := by
  induction l generalizing d with
  | nil => rfl
  | cons k l ih =>
    rw [List.foldl_cons, ih]
    simp only [streamRec_streamTry]
    cases hk : stEnable (streamRec k d)
    · simp [hk, streamTry_of_disabled]
    · simp [hk]

/-- The enabled streams are tried, urgent before planned before bulk. -/
theorem collectorEvaluation_eq (die : Nat) (d : Dev) :
    collectorEvaluation die d =
      ([2, 1, 0].flatMap fun c => (enabledStreams die d).filter fun k => stClass (streamRec k d) == c).foldl
        (fun e k => streamTry k e) d := by
  unfold collectorEvaluation
  extract_lets ks
  rw [foldl_streamTry_eq, List.filter_flatMap]
  simp only [List.filter_filter, enabledStreams, Bool.and_comm, ks]

theorem collectorEvaluation_of_none {die : Nat} (h : enabledStreams die d = []) : collectorEvaluation die d = d := by
  simp [collectorEvaluation_eq, h]

theorem collectorEvaluation_of_one {die : Nat} (h : enabledStreams die d = [k]) (hc : stClass (streamRec k d) ≤ 2) :
    collectorEvaluation die d = streamTry k d := by
  have tried : ([2, 1, 0].flatMap fun c => [k].filter fun i => stClass (streamRec i d) == c) = [k] := by
    obtain hc | hc | hc : stClass (streamRec k d) = 0 ∨ stClass (streamRec k d) = 1 ∨ stClass (streamRec k d) = 2 := by
      omega
    all_goals simp [hc]
  rw [collectorEvaluation_eq, h, tried]
  rfl

theorem enabledStreams_of_none {die : Nat} (h : ∀ j, j < 64 → stEnable (streamRec (die * 64 + j) d) = false) :
    enabledStreams die d = [] := by
  simpa [enabledStreams, List.filter_map] using h

theorem enabledStreams_of_one {die j : Nat} (hj : j < 64) (hon : stEnable (streamRec (die * 64 + j) d) = true)
    (hoff : ∀ i, i < 64 → i ≠ j → stEnable (streamRec (die * 64 + i) d) = false) :
    enabledStreams die d = [die * 64 + j] := by
  have only : (List.range 64).filter (fun i => stEnable (streamRec (die * 64 + i) d)) = (List.range 64).filter (· == j) := by
    refine List.filter_congr fun i hi => ?_
    by_cases hij : i = j
    · simp [hij, hon]
    · simp [hij, hoff i (List.mem_range.1 hi) hij]
  have once : (List.range 64).count j = 1 := List.count_range.trans (if_pos hj)
  rw [enabledStreams, List.filter_map]
  simp only [Function.comp_def, only, List.filter_beq, once, List.replicate_one, List.map_singleton]

end Sys2Proof.Machine

namespace Sys2Proof.Proofs
open Sys2Proof.Machine

/-- Settles O31: a request by where it belongs, an evaluation by the streams that are enabled, and one stream by whether
it is due, has a slot and was blocked before. -/
theorem batchCollectors : Obligations.BatchCollectors := by
  unfold Obligations.BatchCollectors
  rintro s d die t record rfl hdie ht
  have unit : (decide (die < 2) && tenantOk t) = true := by simp [hdie, ht, tenantOk]
  have isDie : decide (die < 2) = true := by simp [hdie]
  refine ⟨fun h => ?foreign, fun hown hon htenant hroom => ?joins, fun h => ?none, fun j hj hc hoff hon => ?one,
    fun j => ?stream⟩
  case foreign => exact answers_onDev unit rfl (collectorRequest_of_foreign rfl rfl h)
  case joins => exact answers_onDev unit rfl (collectorRequest_of_room rfl rfl hown hon htenant hroom)
  case none => exact answers_onDev isDie rfl (collectorEvaluation_of_none (enabledStreams_of_none h))
  case one => exact answers_onDev isDie rfl (collectorEvaluation_of_one (enabledStreams_of_one hj hon hoff) hc)
  case stream =>
    intro w x hon hsound
    rw [streamTry_of_sound hon hsound]
    refine ⟨fun hdue => if_pos hdue, fun hdue hslot hblocked => ?_, fun hdue hslot hblocked => ?_,
      fun hdue hslot hmem hs hp hfits => ?_⟩
    · simp [hdue, hslot, hblocked, x]
    · simp [hdue, hslot, hblocked, x, w]
    · rw [if_neg hdue, if_pos hslot]
      intro d' at_ bytes
      have phys : d'.mem.phys = Mem.writeN s.dev.mem.phys at_ bytes := batchRelease_phys _ hmem hs hp hfits
      have stream : getStream j d' = x.released := getStream_batchRelease _ hmem hs hp hfits
      rw [phys, stream]
      refine ⟨Mem.readN_writeN _ _ _, fun a ha => ?_, rfl, rfl, rfl, localValue_batchRelease _ hmem hs hp hfits⟩
      rw [Mem.get_writeN, if_neg (by omega)]

end Sys2Proof.Proofs
end

section
/-!
PROOFS. The words of the vector engine that write one register (R109 to R112, Table 6.10): sound registers read and
written lane by lane.
-/
namespace Sys2Proof.Machine

/-! ## Parts of byte strings -/

@[simp] theorem length_leBytes (n v : Nat) : (leBytes n v).length = n := by
  induction n generalizing v with
  | zero => rfl
  | succ n ih => simp [leBytes, ih]

/-- A number cut into bytes and read back is the number below 2^(8 n). -/
theorem leNat_leBytes (n v : Nat) : leNat (leBytes n v) = v % 2 ^ (8 * n) := by
  induction n generalizing v with
  | zero => simp [leBytes, leNat, Nat.mod_one]
  | succ n ih =>
    rw [leBytes, leNat, ih, show 8 * (n + 1) = 8 + 8 * n by omega, Nat.pow_add, Nat.mod_mul]
    simp

/-- Of values written one after another, `z` bytes each, the bytes at place `i` are value `i`'s. -/
theorem chunk_flatMap_leBytes (z : Nat) (vs : List Nat) {i : Nat} (hi : i < vs.length) :
    ((vs.flatMap (leBytes z)).drop (z * i)).take z = leBytes z vs[i] := by
  induction vs generalizing i with
  | nil => simp at hi
  | cons v vs ih =>
    cases i with
    | zero => simp
    | succ i =>
      have past : z * (i + 1) = (leBytes z v).length + z * i := by rw [length_leBytes, Nat.mul_succ, Nat.add_comm]
      rw [List.flatMap_cons, past, List.drop_length_add_append, ih (by simpa using hi)]
      rfl

theorem length_flatMap_leBytes (z : Nat) (vs : List Nat) : (vs.flatMap (leBytes z)).length = vs.length * z := by
  induction vs with
  | nil => simp
  | cons v vs ih =>
    rw [List.flatMap_cons, List.length_append, length_leBytes, ih, List.length_cons, Nat.succ_mul, Nat.add_comm]

/-- A part of the bytes read from a memory is a read of its own. -/
theorem Mem.drop_take_readN (m : Memory) (a : Nat) {n k z : Nat} (h : k + z ≤ n) :
    ((Mem.readN m a n).drop k).take z = Mem.readN m (a + k) z := by
  apply List.ext_getElem
  · simp; omega
  · intro i _ _
    simp [Mem.readN_eq, Nat.add_assoc]

/-- A read inside what was written finds the part written there. -/
theorem Mem.readN_writeN_inside (m : Memory) (a : Nat) (bs : Bytes) {k z : Nat} (h : k + z ≤ bs.length) :
    Mem.readN (Mem.writeN m a bs) (a + k) z = (bs.drop k).take z := by
  rw [← Mem.drop_take_readN _ _ h, Mem.readN_writeN]

/-- Lane `i` of a register of 512 bytes lies inside it. -/
theorem lane_inside {z i : Nat} (hi : i < 512 / z) : z * i + z ≤ 512 :=
  calc z * i + z = z * (i + 1) := (Nat.mul_succ z i).symm
    _ ≤ z * (512 / z) := Nat.mul_le_mul_left z hi
    _ ≤ 512 := Nat.mul_div_le 512 z

/-! ## Reads of sound registers -/

/-- Lane `i` of `z` bytes of register `r`, as the register file holds it. -/
def vlane (t z : Nat) (d : Dev) (r i : Nat) : Nat := leNat (Mem.readN (getTile t d).vr (r * 512 + z * i) z)

/-- The lanes of register `r`, none of them affected. -/
def soundLanes (t z : Nat) (d : Dev) (r : Nat) : List (Option Nat) := (List.range (512 / z)).map fun i => some (vlane t z d r i)

/-- Bytes none of which is affected have no affected lane. -/
theorem vlanes_some (z : Nat) (bs : Bytes) :
    vlanes z (bs.map some) = (List.range (bs.length / z)).map fun i => some (leNat ((bs.drop (z * i)).take z)) := by
  simp [vlanes, ← List.map_drop, ← List.map_take, List.filterMap_map]

section
variable {t : Nat} {d : Dev} (hsound : (getTile t d).vrErr = [])
include hsound

theorem vregRead_of_sound (r n : Nat) : vregRead t r n d = ((Mem.readN (getTile t d).vr (r * 512) n).map some, d) := by
  simp [vregRead, hsound, errsIn, Mem.readN_eq]

theorem vlanes_vregRead_of_sound (z r : Nat) : vlanes z (vregRead t r 512 d).1 = soundLanes t z d r := by
  rw [vregRead_of_sound hsound, vlanes_some, Mem.length_readN, soundLanes]
  refine List.map_congr_left fun i hi => ?_
  rw [Mem.drop_take_readN _ _ (lane_inside (List.mem_range.1 hi)), vlane]

/-- Operands in sound registers are their lanes, none is affected, and nothing is corrected. -/
theorem operands_of_sound (z : Nat) (rs : List Nat) : operands t z rs d = (rs.map (soundLanes t z d), false, d) := by
  suffices h : ∀ done, rs.foldl (fun acc r =>
      let x := vregRead t r 512 acc.2.2
      (acc.1 ++ [vlanes z x.1], acc.2.1 || x.1.any Option.isNone, x.2)) (done, false, d) =
      (done ++ rs.map (soundLanes t z d), false, d) from h []
  induction rs with
  | nil => simp
  | cons r rs ih =>
    intro done
    have whole : (vregRead t r 512 d).1.any Option.isNone = false := by simp [vregRead_of_sound hsound]
    have stays : (vregRead t r 512 d).2 = d := by rw [vregRead_of_sound hsound]
    rw [List.foldl_cons]
    simp only [vlanes_vregRead_of_sound hsound, whole, stays, Bool.or_false]
    rw [ih]
    simp

end

theorem laneOf_soundLanes (t z : Nat) (d : Dev) {rs : List Nat} {k i : Nat} (hk : k < rs.length) (hi : i < 512 / z) :
    laneOf (rs.map (soundLanes t z d)) k i = some (vlane t z d rs[k] i) := by
  simp [laneOf, soundLanes, hk, hi]

/-- The lanes at place `i` of every operand register. -/
theorem lanesOf_soundLanes (t z : Nat) (d : Dev) (rs : List Nat) {i : Nat} (hi : i < 512 / z) :
    (List.range rs.length).map (fun k => laneOf (rs.map (soundLanes t z d)) k i) = (rs.map (vlane t z d · i)).map some := by
  apply List.ext_getElem
  · simp
  · intro k hk _
    have inList : k < rs.length := by simpa using hk
    rw [List.getElem_map, List.getElem_range, laneOf_soundLanes t z d inList hi, List.getElem_map, List.getElem_map]

/-- A lane of an operation whose `n` operands are sound is the operation's on them, 0 standing for those not read. -/
theorem lane4_of_sound {n : Nat} (a b c e : Nat) (f : Nat → Nat → Nat → Nat → Nat) :
    lane4 (([a, b, c, e].take n).map some) f =
      some (f (if 0 < n then a else 0) (if 1 < n then b else 0) (if 2 < n then c else 0) (if 3 < n then e else 0)) := by
  have all : (([a, b, c, e].take n).map some).all Option.isSome = true := by
    rw [List.all_map]
    exact List.all_eq_true.2 fun _ _ => rfl
  have values : (([a, b, c, e].take n).map some).filterMap id = [a, b, c, e].take n := by
    rw [List.filterMap_map]
    exact List.filterMap_some
  have part (k : Nat) : ([a, b, c, e].take n).getD k 0 = if k < n then [a, b, c, e].getD k 0 else 0 := by
    rw [List.getD_eq_getElem?_getD, List.getElem?_take]
    split
    · rw [List.getD_eq_getElem?_getD]
    · rfl
  rw [lane4, if_pos all]
  simp only [values, part]
  rfl

/-! ## Writes of a whole register -/

/-- From `d` to `d'` lane `i` of `z` bytes of register `r` becomes `f i`; every other byte of the registers, every
other part of the tile and the rest of the device stay. -/
def WritesRegister (t r z : Nat) (f : Nat → Nat) (d d' : Dev) : Prop :=
  (∀ i, i < 512 / z → vlane t z d' r i = f i % 2 ^ (8 * z)) ∧
  (∀ a, a < r * 512 ∨ r * 512 + 512 ≤ a → Mem.get (getTile t d').vr a = Mem.get (getTile t d).vr a) ∧
  getTile t d' = { getTile t d with vr := (getTile t d').vr } ∧
  (∀ u, u ≠ t → getTile u d' = getTile u d) ∧ d' = { d with tiles := d'.tiles }

/-- Lanes that fill a sound register are written to it. -/
theorem writesRegister_vregWrite {t z : Nat} {d : Dev} (hsound : (getTile t d).vrErr = []) (hz : z ∣ 512) (r : Nat)
    {f : Nat → Nat} {vs : List Nat} (hvs : vs = (List.range (512 / z)).map f) :
    WritesRegister t r z f d (vregWrite t r (vs.flatMap (leBytes z)) d) := by
  have count : vs.length = 512 / z := by simp [hvs]
  have full : (vs.flatMap (leBytes z)).length = 512 := by rw [length_flatMap_leBytes, count, Nat.div_mul_cancel hz]
  have file : (getTile t (vregWrite t r (vs.flatMap (leBytes z)) d)).vr =
      Mem.writeN (getTile t d).vr (r * 512) (vs.flatMap (leBytes z)) := by simp [vregWrite]
  refine ⟨fun i hi => ?lanes, fun a ha => ?others, ?tile, fun u hu => ?tiles, rfl⟩
  case lanes =>
    have inside : z * i + z ≤ (vs.flatMap (leBytes z)).length := full ▸ lane_inside hi
    rw [vlane, file, Mem.readN_writeN_inside _ _ _ inside, chunk_flatMap_leBytes z vs (count ▸ hi), leNat_leBytes]
    simp [hvs]
  case others => rw [file, Mem.get_writeN, full, if_neg (by omega)]
  case tile => simp [vregWrite, hsound]
  case tiles => rw [vregWrite, getTile_modTile, if_neg hu]

/-! ## The words -/

theorem fp32Reads_le (sub : Nat) : fp32Reads sub ≤ 4 := by
  unfold fp32Reads
  repeat' split
  all_goals decide

theorem packedReads_le (sub : Nat) : packedReads sub ≤ 4 := by
  unfold packedReads
  repeat' split
  all_goals decide

theorem intReads_le (sub : Nat) : intReads sub ≤ 4 := by
  unfold intReads
  repeat' split
  all_goals decide

/-- An FP32 sub-operation takes nothing from operands it does not read. -/
theorem fp32Lane_of_reads (sub a b c e : Nat) :
    fp32Lane sub (if 0 < fp32Reads sub then a else 0) (if 1 < fp32Reads sub then b else 0)
      (if 2 < fp32Reads sub then c else 0) (if 3 < fp32Reads sub then e else 0) = fp32Lane sub a b c e := by
  match sub with
  | 0 | 1 | 2 | 3 | 4 | 5 | 6 | 7 => rfl
  | s + 8 => simp [fp32Reads]

theorem packedLane_of_reads (sub code a b c : Nat) :
    packedLane sub code (if 0 < packedReads sub then a else 0) (if 1 < packedReads sub then b else 0)
      (if 2 < packedReads sub then c else 0) = packedLane sub code a b c := by
  match sub with
  | 0 | 1 | 2 | 3 => rfl
  | s + 4 => simp [packedReads, packedLane]

theorem intLane_of_reads (sub a b c e : Nat) :
    intLane sub (if 0 < intReads sub then a else 0) (if 1 < intReads sub then b else 0)
      (if 2 < intReads sub then c else 0) (if 3 < intReads sub then e else 0) = intLane sub a b c e := by
  match sub with
  | 0 | 1 | 2 | 3 | 4 | 5 | 6 | 7 => rfl
  | s + 8 => simp [intReads]

/-- What a permute word puts in lane `i`, from lanes of registers `ra` and `rb` (Table 6.10). -/
def permuted (sub vc : Nat) (lane : Nat → Nat → Nat) (ra rb i : Nat) : Nat :=
  if sub = 0 then lane ra (lane rb i % 128)
  else if sub = 1 then (if i < vc then 0 else lane ra (i - vc))
  else if sub = 2 then lane (if i % 2 = 0 then ra else rb) (i / 2)
  else if i < 64 then lane ra (2 * i) else lane rb (2 * (i - 64))

theorem permuteLane_of_sound (t : Nat) (d : Dev) (sub vc ra rb : Nat) {i : Nat} (hi : i < 128) :
    permuteLane sub vc (([ra, rb].take (if sub = 1 then 1 else 2)).map (soundLanes t 4 d)) i =
      some (permuted sub vc (vlane t 4 d) ra rb i) := by
  have first (j : Nat) (hj : j < 128) : laneOf ([ra, rb].map (soundLanes t 4 d)) 0 j = some (vlane t 4 d ra j) :=
    laneOf_soundLanes t 4 d (by simp) hj
  have second (j : Nat) (hj : j < 128) : laneOf ([ra, rb].map (soundLanes t 4 d)) 1 j = some (vlane t 4 d rb j) :=
    laneOf_soundLanes t 4 d (by simp) hj
  match sub with
  | 0 =>
    change (laneOf ([ra, rb].map _) 1 i).bind _ = _
    rw [second i hi]
    exact first _ (Nat.mod_lt _ (by decide))
  | 1 =>
    change (if vc ≤ i then laneOf ([ra].map _) 0 (i - vc) else some 0) = some (if i < vc then 0 else _)
    by_cases h : vc ≤ i
    · rw [if_pos h, if_neg (by omega), laneOf_soundLanes t 4 d (by simp) (show i - vc < 512 / 4 by omega)]; rfl
    · rw [if_neg h, if_pos (by omega)]
  | 2 =>
    change laneOf ([ra, rb].map _) (i % 2) (i / 2) = some (vlane t 4 d (if i % 2 = 0 then ra else rb) (i / 2))
    rcases Nat.mod_two_eq_zero_or_one i with h | h
    · rw [h, first _ (by omega)]; rfl
    · rw [h, second _ (by omega)]; rfl
  | s + 3 =>
    change (if i < 64 then laneOf ([ra, rb].map _) 0 (2 * i) else laneOf ([ra, rb].map _) 1 (2 * (i - 64))) =
      some (if i < 64 then _ else _)
    by_cases h : i < 64
    · rw [if_pos h, if_pos h, first _ (by omega)]
    · rw [if_neg h, if_neg h, second _ (by omega)]

/-- Two values and zero bytes are lanes of 4 bytes: the values, then zeros. -/
theorem two_lanes_and_zeros (n a b : Nat) :
    leBytes 4 a ++ leBytes 4 b ++ fillBytes (n * 4) 0 =
      ((List.range (n + 2)).map fun i => if i = 0 then a else if i = 1 then b else 0).flatMap (leBytes 4) := by
  have zero : leBytes 4 0 = List.replicate 4 0 := rfl
  have lanes : (List.range (n + 2)).map (fun i => if i = 0 then a else if i = 1 then b else 0) =
      [a, b] ++ List.replicate n 0 := by
    rw [List.range_succ_eq_map, List.range_succ_eq_map]
    simp [Function.comp_def, List.map_const']
  rw [lanes, List.flatMap_append, List.flatMap_replicate, zero, List.flatten_replicate_replicate, fillBytes]
  simp

/-- What a reduction finds: the value and its index (R112). -/
def reduced (sub : Nat) (a : Nat → Nat) : Num × Nat :=
  let xs := (List.range 128).map fun j => vIn (a j)
  if sub = 0 then (treeSum xs, 0) else reduceLanes (sub == 2) xs

section
variable {t : Nat} {d : Dev} (hsound : (getTile t d).vrErr = []) (q : QWord)
include hsound

/-- A lane-wise word whose operation takes nothing from operands it does not read. -/
theorem writesRegister_laneWise {z n : Nat} (nan : Nat) {f : Nat → Nat → Nat → Nat → Nat} (hz : z ∣ 512) (hn : n ≤ 4)
    (hf : ∀ a b c e, f (if 0 < n then a else 0) (if 1 < n then b else 0) (if 2 < n then c else 0) (if 3 < n then e else 0) =
      f a b c e) :
    WritesRegister t (xVd q.word) z (fun i => f (vlane t z d (xVa q.word) i) (vlane t z d (xVb q.word) i)
      (vlane t z d (xVc q.word) i) (vlane t z d (xVd q.word) i)) d (laneWise t z n nan q f d) := by
  simp only [laneWise, operands_of_sound hsound, vregUe, Bool.false_eq_true, if_false]
  refine writesRegister_vregWrite hsound hz _ (List.map_congr_left fun i hi => ?_)
  have count : ([xVa q.word, xVb q.word, xVc q.word, xVd q.word].take n).length = n :=
    List.length_take.trans (Nat.min_eq_left hn)
  have reads := lanesOf_soundLanes t z d ([xVa q.word, xVb q.word, xVc q.word, xVd q.word].take n) (List.mem_range.1 hi)
  rw [count] at reads
  rw [reads, List.map_take]
  exact congrArg (Option.getD · nan) ((lane4_of_sound _ _ _ _ f).trans (congrArg some (hf _ _ _ _)))

theorem writesRegister_permuteRun :
    WritesRegister t (xVd q.word) 4 (permuted (xSub q.word) (xVc q.word) (vlane t 4 d) (xVa q.word) (xVb q.word))
      d (permuteRun t q d) := by
  simp only [permuteRun, operands_of_sound hsound, vregUe, Bool.false_eq_true, if_false]
  refine writesRegister_vregWrite hsound (by decide) _ (List.map_congr_left fun i hi => ?_)
  rw [permuteLane_of_sound t d _ _ _ _ (List.mem_range.1 hi)]
  rfl

theorem writesRegister_reductionRun :
    WritesRegister t (xVd q.word) 4 (fun i => if i = 0 then bits32 (reduced (xSub q.word) (vlane t 4 d (xVa q.word))).1
      else if i = 1 then (reduced (xSub q.word) (vlane t 4 d (xVa q.word))).2 else 0) d (reductionRun t q d) := by
  have lanes : (List.range 128).map (fun i => vIn ((laneOf ([xVa q.word].map (soundLanes t 4 d)) 0 i).getD (laneNan 0))) =
      (List.range 128).map fun i => vIn (vlane t 4 d (xVa q.word) i) := by
    refine List.map_congr_left fun i hi => ?_
    rw [laneOf_soundLanes t 4 d (by simp) (List.mem_range.1 hi)]
    rfl
  simp only [reductionRun, operands_of_sound hsound, lanes, vregUe, Bool.false_eq_true, if_false]
  rw [show (504 : Nat) = 126 * 4 from rfl, two_lanes_and_zeros]
  exact writesRegister_vregWrite hsound (by decide) _ rfl

end

end Sys2Proof.Machine

namespace Sys2Proof.Proofs
open Sys2Proof.Machine

/-- Settles O18: the lane-wise words by what each sub-operation reads, the permute and the reduction by their lanes. -/
theorem vectorRegisters : Obligations.VectorRegisters := by
  unfold Obligations.VectorRegisters
  intro t q d hsound w lane writes
  refine ⟨?fp32, ?packed, ?integer, ?function, ?permute, ?reduction⟩
  case fp32 =>
    exact writesRegister_laneWise hsound q _ (by decide) (fp32Reads_le _) (fp32Lane_of_reads _)
  case packed =>
    exact writesRegister_laneWise hsound q _ (by decide) (packedReads_le _) fun a b c _ => packedLane_of_reads _ _ a b c
  case integer =>
    exact writesRegister_laneWise hsound q _ (by decide) (intReads_le _) (intLane_of_reads _)
  case function => exact writesRegister_laneWise hsound q _ (by decide) (by decide) fun _ _ _ _ => rfl
  case permute => exact writesRegister_permuteRun hsound q
  case reduction => exact writesRegister_reductionRun hsound q

end Sys2Proof.Proofs
end

section
/-!
PROOFS. The recurrent sequencer (R124 to R128, R143): a word at the head of its queue, and the steps of granted words.
-/
namespace Sys2Proof.Machine

/-! ## Counters and the wait of a head -/

theorem localTouch_of_sound {t i : Nat} {d : Dev} (h : Sparse.get 0 d.ctr.err (t * 64 + i) = 0) : localTouch t i d = d := by
  simp [localTouch, h]

/-- On sound storage a wait on a local counter looks at the counter and changes nothing. -/
theorem localWait_of_sound {t i : Nat} (expected : Nat) {d : Dev} (h : Sparse.get 0 d.ctr.err (t * 64 + i) = 0) :
    localWait t i expected d = (!localPoisoned t i d && decide (expected ≤ localValue t i d), d) := by
  rw [localWait, localTouch_of_sound h]

section
variable {t : Nat} {q : QWord} {d : Dev}

theorem headWait_of_met (h : CounterMet t q d) : headWait t q d = (true, d) := by
  rw [headWait]
  rcases h with hnone | ⟨hsound, hgood, hreached⟩
  · rw [if_pos hnone]
  · split
    · rfl
    · simp [localWait_of_sound q.snap hsound, hgood, hreached]

theorem headWait_of_short (h : CounterShort t q d) : headWait t q d = (false, d) := by
  obtain ⟨hcounter, hsound, hshort⟩ := h
  rw [headWait, if_neg hcounter, localWait_of_sound q.snap hsound]
  rcases hshort with hpoisoned | hbelow
  · simp [hpoisoned]
  · simp [Nat.not_le.2 hbelow]

end

/-- A read of sound words finds the bytes and changes nothing. -/
theorem physRead_of_sound {a n : Nat} {d : Dev} (h : errsIn d.mem.err a n = []) :
    physRead a n d = (Mem.readN d.mem.phys a n, false, d) := by
  simp [physRead, h]

/-! ## A word at the head -/

/-- Work for the device's own rank carries no mark. -/
theorem forRank_own {ctx : Nat} (h : ctx ≠ 1) (f : Dev → Dev) (d : Dev) : forRank (ctx == 1) f d = f d := by
  simp [forRank, h]

/-- The run that word `q` begins in its context, with its cell record as it was read. -/
def startedRun (q : QWord) (record : Bytes) : SeqRun :=
  { number := q.number, record := record, base := sBase q.word, step := sT0 q.word, left := sN q.word, signalDue := false }

section
variable {t : Nat} {q : QWord} {d : Dev}

theorem sequencerRun_of_head (hrun : enginesRun t d = true) (hhead : headOf t 4 d = some q) (hctx : q.ctx ≠ 1) :
    sequencerRun t d = sequencerHead t q d := by
  rw [sequencerRun, hrun, hhead]
  exact forRank_own hctx _ d

/-- R140: a reserved OP or field. -/
theorem sequencerHead_of_bad_field (h : ¬ (wOp q.word = 0 ∧ wField q.word 94 34 = 0)) :
    sequencerHead t q d = rejectHead t 4 1 evWordField d :=
  if_pos (by omega)

variable (hgood : wOp q.word = 0 ∧ wField q.word 94 34 = 0)
include hgood

/-- R365: a charge above 16 credits. -/
theorem sequencerHead_of_bad_charge (hcharge : chargeBad q.word = true) :
    sequencerHead t q d = rejectHead t 4 1 evCueCharge d := by
  rw [sequencerHead, if_neg (by omega), if_pos hcharge]

variable (hcharge : chargeBad q.word = false)
include hcharge

/-- R125: a word for a busy context waits. -/
theorem sequencerHead_of_busy (hbusy : (seqRuns t d).any (fun p => p.1 == sCtx q.word) = true) : sequencerHead t q d = d := by
  simp only [sequencerHead, hgood.1, hgood.2, hcharge, hbusy]
  rfl

variable (hfree : (seqRuns t d).any (fun p => p.1 == sCtx q.word) = false)
include hfree

theorem sequencerHead_of_short (h : CounterShort t q d) : sequencerHead t q d = d := by
  simp only [sequencerHead, hgood.1, hgood.2, hcharge, hfree, headWait_of_short h]
  rfl

variable (hmet : CounterMet t q d)
include hmet

/-- A record that does not lie in scratch. -/
theorem sequencerHead_of_outside (hout : scratchSize < sBase q.word + 128) :
    sequencerHead t q d = rejectHead t 4 1 evRnnConfig d := by
  simp only [sequencerHead, hgood.1, hgood.2, hcharge, hfree, headWait_of_met hmet, if_pos hout]
  rfl

/-- R124, R125: in sound scratch the record decides. -/
theorem sequencerHead_of_record (hin : sBase q.word + 128 ≤ scratchSize) {record : Bytes}
    (hsound : errsIn d.mem.err (scratchAddr t (sBase q.word)) 128 = [])
    (hrecord : Mem.readN d.mem.phys (scratchAddr t (sBase q.word)) 128 = record) :
    sequencerHead t q d =
      if recordBad q.tenant (sBase q.word) record d || conflict t (rRanges (sBase q.word) record) [rRows record] d then
        rejectHead t 4 1 evRnnConfig d
      else requestCue t 4 q (setSeq t (sCtx q.word) (startedRun q record) (dispatchHead t 4 .waitCue d)) := by
  simp only [sequencerHead, hgood.1, hgood.2, hcharge, hfree, headWait_of_met hmet, if_neg (Nat.not_lt.2 hin),
    physRead_of_sound hsound, hrecord]
  rfl

end

/-! ## Steps -/

section
variable {t : Nat} {d : Dev}

theorem trySeq_of_idle (k : Nat) (h : seqRuns t d = []) : trySeq t k d = (false, d) := by
  rw [trySeq, h]
  rfl

/-- A granted word without a step signal outstanding whose record waits for nothing runs its next step. -/
theorem trySeq_of_ready {k : Nat} {r : SeqRun} {q : QWord} (hrun : (seqRuns t d).find? (fun p => p.1 == k) = some (k, r))
    (hword : wordOf t 4 r.number d = some q) (hgranted : q.phase = .granted) (hctx : q.ctx ≠ 1)
    (hsignal : r.signalDue = false) (hwaits : rWaits r.record = false) : trySeq t k d = (true, seqStep t k q r d) := by
  have met : stepWaitMet t k r d = (true, d) := by simp [stepWaitMet, hwaits]
  simp only [trySeq, hrun, hword, hgranted, hsignal, met, forRank_own hctx]
  rfl

/-- The context that is tried first: 1 where 0 went last (R128). -/
def firstContext (t : Nat) (d : Dev) : Nat := if (getTile t d).seqLast = some 0 then 1 else 0

theorem sequencerStep_of_ready {d' : Dev} (hrun : enginesRun t d = true) (h : trySeq t (firstContext t d) d = (true, d')) :
    sequencerStep t d = d' := by
  rw [firstContext] at h
  simp only [sequencerStep, hrun, h]
  rfl

theorem sequencerStep_of_idle (h : seqRuns t d = []) : sequencerStep t d = d := by
  simp [sequencerStep, trySeq_of_idle _ h]

end

/-- A tile command answers what another effect comes to, where the two agree on the device that it tags. -/
theorem answers_onTile_of_eq {t : Nat} {f g : Dev → Dev} {s : State} {c : Instr} (ht : t < 128)
    (hc : exec c s = onTile t f s) (h : f (tagWork (segFrames t s.dev) s.dev) = g (tagWork (segFrames t s.dev) s.dev)) :
    Answers c s (asTile t g s.dev) :=
  answers_onTile ht hc (congrArg (tagWork []) h)

end Sys2Proof.Machine

namespace Sys2Proof.Proofs
open Sys2Proof.Machine

/-- Settles O20: the head by its checks in their order, a step by the context that is tried first. -/
theorem sequencerWords : Obligations.SequencerWords := by
  unfold Obligations.SequencerWords
  rintro s d t rfl ht hengines
  refine ⟨fun q hhead hctx => ?head, fun k r q hk hrun hword hgranted hctx hsignal hwaits => ?step, fun hidle => ?idle⟩
  case head =>
    intro w good free record bad
    have taken : sequencerRun t (tagWork (segFrames t s.dev) s.dev) = sequencerHead t q (tagWork (segFrames t s.dev) s.dev) :=
      sequencerRun_of_head hengines hhead hctx
    have answers {g : Dev → Dev} (h : sequencerHead t q (tagWork (segFrames t s.dev) s.dev) =
        g (tagWork (segFrames t s.dev) s.dev)) : Answers (.sequencerRun t) s (asTile t g s.dev) :=
      answers_onTile_of_eq ht rfl (taken.trans h)
    refine ⟨?field, ?charge, ?waits, ?outside, ?inside⟩
    case field => exact fun hbad => answers (sequencerHead_of_bad_field hbad)
    case charge => exact fun hgood hcharge => answers (sequencerHead_of_bad_charge hgood hcharge)
    case waits =>
      rintro hgood hcharge (hbusy | ⟨hfree, hshort⟩)
      · exact answers (g := id) (sequencerHead_of_busy hgood hcharge (eq_true_of_ne_false hbusy))
      · exact answers (g := id) (sequencerHead_of_short hgood hcharge hfree hshort)
    case outside =>
      exact fun hgood hcharge hfree hmet hout => answers (sequencerHead_of_outside hgood hcharge hfree hmet hout)
    case inside =>
      intro hgood hcharge hfree hmet hin hsound
      have decided := sequencerHead_of_record (d := tagWork (segFrames t s.dev) s.dev) (record := record) hgood hcharge hfree
        hmet hin hsound rfl
      exact ⟨fun hbad => answers (decided.trans (if_pos hbad)),
        fun hfit => answers (decided.trans (if_neg (Bool.eq_false_iff.1 hfit)))⟩
  case step =>
    subst hk
    exact answers_onTile_of_eq ht rfl
      (sequencerStep_of_ready hengines (trySeq_of_ready hrun hword hgranted hctx hsignal hwaits))
  case idle => exact answers_onTile_of_eq (g := id) ht rfl (sequencerStep_of_idle hidle)

end Sys2Proof.Proofs
end

section
/-!
PROOFS. The DMA engines (R143, R166, R168, Table 7.12): a chain word at the head of its queue, the rows of descriptors,
and a descriptor that completes.
-/
namespace Sys2Proof.Machine

/-! ## Dispatch -/

section
variable {t e : Nat} {q : QWord} {d : Dev}

theorem execOf_setExec (t e x k : Nat) (l : List QWord) (d : Dev) :
    execOf x k (setExec t e l d) = if x = t ∧ k = e then l else execOf x k d := by
  unfold execOf setExec
  rw [getTile_modTile]
  by_cases hx : x = t
  · subst hx; simp [Sparse.get_set]
  · simp [hx]

theorem queueOf_setExec (t e x k : Nat) (l : List QWord) (d : Dev) : queueOf x k (setExec t e l d) = queueOf x k d := by
  unfold queueOf setExec
  rw [getTile_modTile]
  split
  · subst_vars; rfl
  · rfl

theorem dispatchHead_of_head (phase : WordPhase) (hhead : headOf t e d = some q) :
    dispatchHead t e phase d = setExec t e (execOf t e d ++ [{ q with phase := phase }]) (dropHead t e d) := by
  rw [dispatchHead, hhead]

theorem queueOf_dispatchHead (phase : WordPhase) (hhead : headOf t e d = some q) :
    queueOf t e (dispatchHead t e phase d) = (queueOf t e d).drop 1 := by
  rw [dispatchHead_of_head phase hhead, queueOf_setExec, dropHead, queueOf_setQueue, if_pos ⟨rfl, rfl⟩]

theorem execOf_dispatchHead (phase : WordPhase) (hhead : headOf t e d = some q) :
    execOf t e (dispatchHead t e phase d) = execOf t e d ++ [{ q with phase := phase }] := by
  rw [dispatchHead_of_head phase hhead, execOf_setExec, if_pos ⟨rfl, rfl⟩]

theorem getTile_dispatchHead_other {u : Nat} (phase : WordPhase) (hu : u ≠ t) :
    getTile u (dispatchHead t e phase d) = getTile u d := by
  unfold dispatchHead
  split
  · rfl
  · rw [setExec, getTile_modTile, if_neg hu, dropHead, setQueue, getTile_modTile, if_neg hu]

/-- A dispatch changes its tile alone. -/
theorem dispatchHead_frame (t e : Nat) (phase : WordPhase) (d : Dev) :
    dispatchHead t e phase d = { d with tiles := (dispatchHead t e phase d).tiles } := by
  unfold dispatchHead
  split <;> rfl

end

/-! ## A chain word at the head (R143) -/

section
variable {e : Nat} {q : QWord} {d : Dev}

/-- The chain that word `q` of tile `e` starts. -/
def chainOf (e : Nat) (q : QWord) : Chain :=
  { tile := e, tenant := q.tenant, ctx := q.ctx, base := wField q.word 32 17 * 64, count := wField q.word 49 8 + 1
    nextIndex := 0, flight := [], reel := none, number := q.number, failed := 0 }

theorem dmaChain_of_head (hhead : headOf e 5 d = some q) (hctx : q.ctx ≠ 1) : dmaChain e d = dmaHead e q d := by
  rw [dmaChain, hhead]
  exact forRank_own hctx _ d

variable (hrun : enginesRun e d = true)
include hrun

/-- R140, R141: a reserved OP or field, or a cue on a word that takes none. -/
theorem dmaHead_of_bad_field (h : ¬ (wOp q.word = 0 ∧ wField q.word 57 71 = 0 ∧ cueBad q.word = false)) :
    dmaHead e q d = rejectHead e 5 1 evWordField d := by
  have bad : wOp q.word ≠ 0 ∨ wField q.word 57 71 ≠ 0 ∨ cueBad q.word = true := by
    simpa only [Classical.not_and_iff_not_or_not, Bool.not_eq_false] using h
  rw [dmaHead, if_pos hrun, if_pos bad, wordField]

variable (hgood : wOp q.word = 0 ∧ wField q.word 57 71 = 0 ∧ cueBad q.word = false)
include hgood

theorem dmaHead_of_busy (hbusy : d.chains.any (fun x => x.tile == e) = true) : dmaHead e q d = d := by
  obtain ⟨hop, hfield, hcue⟩ := hgood
  simp [dmaHead, hrun, hop, hfield, hcue, hbusy]

theorem dmaHead_of_free (hfree : d.chains.any (fun x => x.tile == e) = false)
    (hclear : chainConflict e (chainOf e q).base (chainOf e q).count d = false) (hmet : CounterMet e q d) :
    dmaHead e q d = { dispatchHead e 5 .running d with chains := d.chains ++ [chainOf e q] } := by
  obtain ⟨hop, hfield, hcue⟩ := hgood
  have none_runs : ¬ (d.chains.any fun x => x.tile == e) = true := Bool.not_eq_true _ ▸ hfree
  have none_touched : ¬ chainConflict e (wField q.word 32 17 * 64) (wField q.word 49 8 + 1) d = true :=
    Bool.not_eq_true _ ▸ hclear
  have passes : ¬ (wOp q.word ≠ 0 ∨ wField q.word 57 71 ≠ 0 ∨ cueBad q.word = true) := by simp [hop, hfield, hcue]
  rw [dmaHead, if_pos hrun, if_neg passes, if_neg none_runs, if_neg none_touched, headWait_of_met hmet]
  dsimp only
  rw [dispatchHead_frame]
  rfl

end

/-! ## Descriptor rows (R166, R168) -/

section
variable {k e : Nat} {x : Chain} {d : Dev} {b : Bytes}

theorem exec_dmaRow {c : Instr} (hc : (k = 0 ∧ c = .dmaCopy e) ∨ (k = 1 ∧ c = .dmaFill e) ∨
    (k = 2 ∧ c = .dmaGuardedCopy e) ∨ (k = 3 ∧ c = .dmaGather e)) (s : State) :
    exec c s = onDev (engineOk e) (asTile e (dmaRow k e)) s := by
  rcases hc with ⟨rfl, rfl⟩ | ⟨rfl, rfl⟩ | ⟨rfl, rfl⟩ | ⟨rfl, rfl⟩ <;> rfl

/-- An engine's command answers what another effect comes to, where the two agree on the device that it tags. -/
theorem answers_onEngine {f g : Dev → Dev} {s : State} {c : Instr} (he : e < 130)
    (hc : exec c s = onDev (engineOk e) (asTile e f) s)
    (h : f (tagWork (segFrames e s.dev) s.dev) = g (tagWork (segFrames e s.dev) s.dev)) :
    Answers c s (asTile e g s.dev) :=
  answers_onDev (by simp [engineOk, he]) hc (congrArg (tagWork []) h)

theorem dmaRow_of_no_chain (k : Nat) (h : (d.chains.find? fun x => x.tile == e) = none) : dmaRow k e d = d := by
  rw [dmaRow, h]

theorem dmaRow_of_chain (k : Nat) (h : (d.chains.find? fun x => x.tile == e) = some x) (hctx : x.ctx ≠ 1) :
    dmaRow k e d = dmaNext k e x d := by
  rw [dmaRow, h]
  exact forRank_own hctx _ d

theorem dmaNext_of_going {f : DmaRun} (h : (x.flight.find? fun f => !f.written && dKind f.desc == k) = some f) :
    dmaNext k e x d = runDesc x f d := by
  rw [dmaNext, h]

/-- The next descriptor in line, read from sound scratch, starts where it is of the row's KIND. -/
theorem dmaNext_of_next (hidle : (x.flight.find? fun f => !f.written && dKind f.desc == k) = none)
    (hleft : x.nextIndex < x.count) (hroom : x.flight.length < 4) (hreel : x.reel = none)
    (hin : x.base + 64 * x.nextIndex + 64 ≤ scratchSize)
    (hsound : errsIn d.mem.err (scratchAddr e (x.base + 64 * x.nextIndex)) 64 = [])
    (hread : Mem.readN d.mem.phys (scratchAddr e (x.base + 64 * x.nextIndex)) 64 = b)
    (hturn : bitOf (dFlags b) 1 = false ∨ x.flight = []) (hkind : dKind b = k) :
    dmaNext k e x d = startDesc x x.nextIndex b d := by
  have read : physRead (scratchAddr e (x.base + 64 * x.nextIndex)) 64 d = (b, false, d) := by
    rw [physRead_of_sound hsound, hread]
  have turn : (bitOf (dFlags b) 1 && !x.flight.isEmpty) = false := by
    rcases hturn with h | h <;> simp [h]
  simp [dmaNext, hidle, hleft, hroom, hreel, Nat.not_lt.2 hin, read, turn, hkind]

/-- The run of descriptor `b` of chain `x` as it starts. -/
def Chain.newRun (x : Chain) (b : Bytes) : DmaRun :=
  { index := x.nextIndex, desc := b, started := true, written := false, failed := false, waitMseq := 0
    chain := x.number, row := 0, held := none }

/-- Chain `x` with its next descriptor `b` in flight. -/
def Chain.starting (x : Chain) (b : Bytes) : Chain :=
  { x with nextIndex := x.nextIndex + 1, flight := x.flight ++ [x.newRun b] }

/-- Chain `x` ended by a descriptor that raises DMA_CONFIG. -/
def Chain.misconfigured (x : Chain) : Chain :=
  { x with nextIndex := x.count, failed := if x.failed = 0 then failWith 2 (0x1000 + evDmaConfig) else x.failed }

/-- Table 7.12: with nothing in flight a bad descriptor ends the chain at once. -/
theorem startDesc_of_bad (hbad : configBad x.tile x.tenant b d = true) (hflight : x.flight = []) :
    startDesc x x.nextIndex b d = closeChain x.misconfigured
      (putChain x.misconfigured (faultRun 1 evDmaConfig x.requester.src x.tenant d)) := by
  obtain ⟨tile, tenant, ctx, base, count, nextIndex, flight, reel, number, failed⟩ := x
  subst hflight
  simp [startDesc, if_pos hbad, Chain.misconfigured]

theorem startDesc_of_good (hgood : configBad x.tile x.tenant b d = false) (hspace : dDstSp b ≠ 6) :
    startDesc x x.nextIndex b d = runDesc (x.starting b) (x.newRun b) (putChain (x.starting b) d) := by
  simp only [startDesc, hgood, if_neg hspace]
  rfl

end

/-! ## A descriptor that completes (R168) -/

section
variable {e : Nat} {x : Chain} {f : DmaRun} {d : Dev}

theorem dmaDescriptorComplete_of_met
    (h : (d.chains.find? fun y => y.tile == e && y.flight.any (fun g => writesMet y g d)) = some x) (hctx : x.ctx ≠ 1) :
    dmaDescriptorComplete e d = descriptorDone e x d := by
  rw [dmaDescriptorComplete, h]
  exact forRank_own hctx _ d

/-- Chain `x` without the descriptor of run `f`. -/
def Chain.without (x : Chain) (f : DmaRun) : Chain := { x with flight := x.flight.filter fun g => g.index != f.index }

variable (hmet : (x.flight.find? fun g => writesMet x g d) = some f)
include hmet

theorem descriptorDone_of_silent (h : bitOf (dFlags f.desc) 0 = false) :
    descriptorDone e x d = closeChain (x.without f) (putChain (x.without f) d) := by
  simp only [descriptorDone, hmet, h]
  rfl

/-- R165: AMOUNT is added to a local counter whose storage is sound, that is not poisoned and would not wrap. -/
theorem descriptorDone_of_local {i v : Nat} (hsignal : bitOf (dFlags f.desc) 0 = true)
    (hlocal : bitOf (dCounter f.desc) 15 = false) (hi : bitsOf (dCounter f.desc) 0 14 = i)
    (hsound : Sparse.get 0 d.ctr.err (e * 64 + i) = 0) (hpoison : localPoisoned e i d = false)
    (hv : localValue e i d = v) (hfits : v + dAmount f.desc < 2 ^ 64) :
    descriptorDone e x d = closeChain (x.without f) (putChain (x.without f)
      (modTile e (fun y => { y with lc := Sparse.set 0 y.lc i (BitVec.ofNat 64 (v + dAmount f.desc)) }) d)) := by
  subst hv
  simp only [descriptorDone, hmet, hsignal, hlocal, hi, localAdd_of_sound hsound hpoison hfits]
  rfl

end

end Sys2Proof.Machine

namespace Sys2Proof.Proofs
open Sys2Proof.Machine

/-- Settles O21: a chain word by its checks in their order, a descriptor row by what its engine's chain has in flight or
next in line, a completion by whether it signals. -/
theorem dmaRows : Obligations.DmaRows := by
  unfold Obligations.DmaRows
  rintro s d e rfl
  refine ⟨fun q hhead => ?chain, fun k c he hc => ⟨fun hnone => ?idle, fun x hx hctx => ?row⟩,
    fun x f he hx hf hctx => ?complete⟩
  case chain =>
    intro w good
    obtain ⟨ht, hrun, -, hhead, hctx⟩ := hhead
    have taken : dmaChain e (tagWork (segFrames e s.dev) s.dev) = dmaHead e q (tagWork (segFrames e s.dev) s.dev) :=
      dmaChain_of_head hhead hctx
    refine ⟨fun hbad => ?field, fun hgood hbusy => ?busy, fun hgood hfree hclear hmet => ?starts⟩
    case field => exact answers_onTile_of_eq ht rfl (taken.trans (dmaHead_of_bad_field hrun hbad))
    case busy => exact answers_onTile_of_eq (g := id) ht rfl (taken.trans (dmaHead_of_busy hrun hgood hbusy))
    case starts =>
      refine completes_onTile ht rfl ?_
      rw [asTile, taken, dmaHead_of_free (d := tagWork (segFrames e s.dev) s.dev) hrun hgood hfree hclear hmet]
      refine ⟨rfl, queueOf_dispatchHead _ hhead, execOf_dispatchHead _ hhead,
        fun u hu => getTile_dispatchHead_other _ hu, ?_⟩
      rw [dispatchHead_frame]
      rfl
  case idle => exact answers_onEngine (g := id) he (exec_dmaRow hc s) (dmaRow_of_no_chain k hnone)
  case row =>
    intro going off b
    have taken : dmaRow k e (tagWork (segFrames e s.dev) s.dev) = dmaNext k e x (tagWork (segFrames e s.dev) s.dev) :=
      dmaRow_of_chain k hx hctx
    refine ⟨fun f hf => ?goes_on, fun hidle hleft hroom hreel hin hsound hturn hkind => ?next⟩
    case goes_on => exact answers_onEngine he (exec_dmaRow hc s) (taken.trans (dmaNext_of_going hf))
    case next =>
      have started := taken.trans (dmaNext_of_next (d := tagWork (segFrames e s.dev) s.dev) hidle hleft hroom hreel hin
        hsound rfl hturn hkind)
      exact ⟨fun hbad hflight => answers_onEngine he (exec_dmaRow hc s) (started.trans (startDesc_of_bad hbad hflight)),
        fun hgood hspace => answers_onEngine he (exec_dmaRow hc s) (started.trans (startDesc_of_good hgood hspace))⟩
  case complete =>
    intro y i
    have taken : dmaDescriptorComplete e (tagWork (segFrames e s.dev) s.dev) =
        descriptorDone e x (tagWork (segFrames e s.dev) s.dev) := dmaDescriptorComplete_of_met hx hctx
    refine ⟨fun hsilent => answers_onEngine he rfl (taken.trans (descriptorDone_of_silent hf hsilent)),
      fun hsignal hlocal hsound hpoison hfits => ?_⟩
    have signalled := descriptorDone_of_local (d := tagWork (segFrames e s.dev) s.dev) (v := localValue e i s.dev) hf
      hsignal hlocal rfl hsound hpoison rfl hfits
    exact answers_onEngine he rfl (taken.trans signalled)

end Sys2Proof.Proofs
end

section
/-!
PROOFS. Physical memory (R159, R174, R176): what a read and a write do to the bytes and to the state of the words they
touch; and a row of a copy or a fill on sound memory (R166, Tables 7.3 to 7.5).
-/
namespace Sys2Proof.Machine

/-! ## Faulty words -/

/-- The 8-byte words that bytes a to a + n - 1 touch. -/
@[reducible] def Touched (a n k : Nat) : Prop := a / 8 ≤ k ∧ k < (a + n + 7) / 8 ∧ 0 < n

/-- In a table in the canonical form the listed items are those that are not the default. -/
theorem Sparse.mem_iff_get {α : Type} [DecidableEq α] {dflt : α} {m : Table α} {lo : Option Nat}
    (hm : Sparse.wfFrom dflt lo m = true) (k : Nat) (v : α) : (k, v) ∈ m ↔ Sparse.get dflt m k = v ∧ v ≠ dflt := by
  induction m generalizing lo with
  | nil => simp [eq_comm]
  | cons p m ih =>
    obtain ⟨i, w⟩ := p
    simp only [Sparse.wfFrom, Bool.and_eq_true, decide_eq_true_eq] at hm
    obtain ⟨⟨-, hw⟩, hrest⟩ := hm
    rw [List.mem_cons, ih hrest, Prod.mk.injEq, Sparse.get]
    by_cases hik : i = k
    · subst hik
      have absent : ¬ (Sparse.get dflt m i = v ∧ v ≠ dflt) := fun h =>
        absurd (Sparse.lt_of_wfFrom hrest ((ih hrest).2 h)) (Nat.lt_irrefl i)
      simp only [absent, if_true, or_false, true_and]
      exact ⟨fun h => by subst h; exact ⟨rfl, hw⟩, fun h => h.1.symm⟩
    · simp [hik, Ne.symm hik]

theorem mem_errsIn {m : Table Nat} (hm : Sparse.wf 0 m = true) (a n : Nat) (p : Nat × Nat) :
    p ∈ errsIn m a n ↔ Touched a n p.1 ∧ Sparse.get 0 m p.1 = p.2 ∧ p.2 ≠ 0 := by
  rw [errsIn, List.mem_filter, Sparse.mem_iff_get hm]
  simp only [Bool.and_eq_true, decide_eq_true_eq]
  exact ⟨fun ⟨hstate, ⟨hfrom, hto⟩, hn⟩ => ⟨⟨hfrom, hto, hn⟩, hstate⟩,
    fun ⟨⟨hfrom, hto, hn⟩, hstate⟩ => ⟨hstate, ⟨hfrom, hto⟩, hn⟩⟩

/-- Some touched word is in a state of a kind, other than sound. -/
theorem any_errsIn {m : Table Nat} (hm : Sparse.wf 0 m = true) (a n : Nat) (f : Nat × Nat → Bool) :
    (errsIn m a n).any f = true ↔ ∃ k, Touched a n k ∧ Sparse.get 0 m k ≠ 0 ∧ f (k, Sparse.get 0 m k) = true := by
  rw [List.any_eq_true]
  constructor
  · rintro ⟨p, hp, hf⟩
    obtain ⟨htouched, hstate, hfaulty⟩ := (mem_errsIn hm a n p).1 hp
    exact ⟨p.1, htouched, by rwa [hstate], by rwa [hstate]⟩
  · rintro ⟨k, htouched, hfaulty, hf⟩
    exact ⟨(k, _), (mem_errsIn hm a n _).2 ⟨htouched, rfl, hfaulty⟩, hf⟩

/-- A walk over words that makes those that `heals` names sound. -/
theorem foldl_heals {f : Dev → Nat × Nat → Dev} {heals : Nat × Nat → Bool}
    (hf : ∀ d p, (f d p).mem.err = if heals p then Sparse.set 0 d.mem.err p.1 0 else d.mem.err) (l : List (Nat × Nat))
    (d : Dev) (k : Nat) :
    Sparse.get 0 (l.foldl f d).mem.err k = if l.any (fun p => p.1 == k && heals p) then 0 else Sparse.get 0 d.mem.err k := by
  induction l generalizing d with
  | nil => rfl
  | cons p l ih =>
    rw [List.foldl_cons, ih, hf, List.any_cons]
    by_cases hp : heals p = true
    · by_cases hk : p.1 = k
      · simp [hp, hk]
      · rw [if_pos hp, Sparse.get_set_other _ _ _ (Ne.symm hk), beq_false_of_ne hk, Bool.false_and, Bool.false_or]
    · rw [if_neg hp, Bool.eq_false_iff.2 hp, Bool.and_false, Bool.false_or]

/-- Of a walk over the faulty words that bytes touch: a word it heals is sound, and any other keeps its state. -/
theorem foldl_errsIn_heals {f : Dev → Nat × Nat → Dev} {heals : Nat × Nat → Bool}
    (hf : ∀ d p, (f d p).mem.err = if heals p then Sparse.set 0 d.mem.err p.1 0 else d.mem.err) {d : Dev}
    (hwf : Sparse.wf 0 d.mem.err = true) (a n k : Nat) :
    Sparse.get 0 ((errsIn d.mem.err a n).foldl f d).mem.err k =
      if Touched a n k ∧ heals (k, Sparse.get 0 d.mem.err k) = true then 0 else Sparse.get 0 d.mem.err k := by
  have healed := any_errsIn hwf a n fun p => p.1 == k && heals p
  rw [foldl_heals hf]
  by_cases hsound : Sparse.get 0 d.mem.err k = 0
  · simp [hsound]
  · refine ite_congr (propext (healed.trans ⟨?_, fun h => ⟨k, h.1, hsound, by simpa using h.2⟩⟩)) (fun _ => rfl) (fun _ => rfl)
    rintro ⟨j, htouched, -, hj⟩
    obtain ⟨rfl, hheals⟩ : j = k ∧ _ := by simpa using hj
    exact ⟨htouched, hheals⟩

/-! ## Reads and writes -/

theorem countCorrected_err (a : Nat) (d : Dev) : (countCorrected a d).mem.err = d.mem.err := by
  unfold countCorrected
  split
  · rw [raise_eq _ _ _ _ (by decide)]
  · rw [raise_eq _ _ _ _ (by decide)]; rfl

/-- The words that a read heals: those with a single-bit error. -/
def singleBit (p : Nat × Nat) : Bool := p.2 == 1

/-- A word that lies whole in bytes a to a + n - 1. -/
def wholeWord (a n k : Nat) : Bool := decide (a ≤ k * 8) && decide (k * 8 + 8 ≤ a + n)

/-- A faulty word that a write of `n` bytes meets. -/
def writeMeets (a n : Nat) (d : Dev) (p : Nat × Nat) : Dev :=
  if wholeWord a n p.1 then setErr p.1 0 d
  else if p.2 = 1 then countCorrected (p.1 * 8) (setErr p.1 0 d) else d

theorem writeMeets_err (a n : Nat) (d : Dev) (p : Nat × Nat) :
    (writeMeets a n d p).mem.err = if wholeWord a n p.1 || singleBit p then Sparse.set 0 d.mem.err p.1 0 else d.mem.err := by
  unfold writeMeets
  by_cases hw : wholeWord a n p.1 = true
  · simp [hw, setErr]
  · by_cases h1 : p.2 = 1
    · simp [hw, h1, singleBit, countCorrected_err, setErr]
    · simp [hw, h1, singleBit]

theorem writeMeets_sameMemories (a n : Nat) (d : Dev) (p : Nat × Nat) : SameMemories d (writeMeets a n d p) := by
  unfold writeMeets
  split
  · exact ⟨rfl, rfl, rfl⟩
  · split
    · exact SameMemories.trans (b := setErr p.1 0 d) ⟨rfl, rfl, rfl⟩ (countCorrected_sameMemories _ _)
    · exact ⟨rfl, rfl, rfl⟩

section
variable (a : Nat) (bs : Bytes) (n : Nat) (d : Dev)

/-- A write heals the words it meets, then puts its bytes; it reports an uncorrectable word that it covers in part. -/
theorem physWrite_eq : physWrite a bs d = ((errsIn d.mem.err a bs.length).any fun p => p.2 == 2 && !wholeWord a bs.length p.1,
    { (errsIn d.mem.err a bs.length).foldl (writeMeets a bs.length) d with mem.phys := Mem.writeN d.mem.phys a bs }) := by
  have same : SameMemories d ((errsIn d.mem.err a bs.length).foldl (writeMeets a bs.length) d) :=
    foldl_sameMemories _ (writeMeets_sameMemories a bs.length) _ d
  rw [← same.1]
  rfl

theorem physWrite_phys : (physWrite a bs d).2.mem.phys = Mem.writeN d.mem.phys a bs := by rw [physWrite_eq]

theorem physRead_bytes : (physRead a n d).1 = Mem.readN d.mem.phys a n := rfl

variable {d} (hwf : Sparse.wf 0 d.mem.err = true) (k : Nat)
include hwf

theorem physWrite_err : Sparse.get 0 (physWrite a bs d).2.mem.err k =
    if Touched a bs.length k ∧ (wholeWord a bs.length k || singleBit (k, Sparse.get 0 d.mem.err k)) = true then 0
    else Sparse.get 0 d.mem.err k := by
  rw [physWrite_eq]
  exact foldl_errsIn_heals (heals := fun p => wholeWord a bs.length p.1 || singleBit p) (writeMeets_err a bs.length) hwf ..

theorem physRead_err : Sparse.get 0 (physRead a n d).2.2.mem.err k =
    if Touched a n k ∧ singleBit (k, Sparse.get 0 d.mem.err k) = true then 0 else Sparse.get 0 d.mem.err k := by
  refine foldl_errsIn_heals (heals := singleBit) (fun e p => ?_) hwf ..
  by_cases h1 : p.2 = 1
  · simp [h1, singleBit, countCorrected_err, setErr]
  · simp [h1, singleBit]

theorem physWrite_reports : (physWrite a bs d).1 = true ↔
    ∃ k, Touched a bs.length k ∧ wholeWord a bs.length k = false ∧ Sparse.get 0 d.mem.err k = 2 := by
  rw [physWrite_eq, any_errsIn hwf]
  refine exists_congr fun k => and_congr_right fun _ => ?_
  rw [Bool.and_eq_true, beq_iff_eq, Bool.not_eq_true']
  exact ⟨fun h => h.2.symm, fun h => ⟨by omega, h.symm⟩⟩

theorem physRead_reports : (physRead a n d).2.1 = true ↔ ∃ k, Touched a n k ∧ Sparse.get 0 d.mem.err k = 2 := by
  refine (any_errsIn hwf a n _).trans (exists_congr fun k => and_congr_right fun _ => ?_)
  rw [beq_iff_eq]
  exact ⟨fun h => h.2, fun h => ⟨by omega, h⟩⟩

end

/-! ## Changes of one tile -/

/-- From `d` to `e` nothing differs but tile `t`. -/
def TileFrame (t : Nat) (d e : Dev) : Prop := e = { d with tiles := e.tiles } ∧ ∀ u, u ≠ t → getTile u e = getTile u d

theorem TileFrame.refl (t : Nat) (d : Dev) : TileFrame t d d := ⟨rfl, fun _ _ => rfl⟩

theorem TileFrame.trans {t : Nat} {c d e : Dev} (h : TileFrame t c d) (g : TileFrame t d e) : TileFrame t c e := by
  obtain ⟨hframe, htiles⟩ := h
  obtain ⟨gframe, gtiles⟩ := g
  exact ⟨by rw [gframe, hframe], fun u hu => (gtiles u hu).trans (htiles u hu)⟩

theorem tileFrame_modTile (t : Nat) (f : Tile → Tile) (d : Dev) : TileFrame t d (modTile t f d) :=
  ⟨rfl, fun u hu => by rw [getTile_modTile, if_neg hu]⟩

/-- A walk whose every step changes one tile changes that tile alone. -/
theorem tileFrame_foldl {β : Type} {t : Nat} {f : Dev → β → Dev} (h : ∀ d b, TileFrame t d (f d b)) (l : List β) (d : Dev) :
    TileFrame t d (l.foldl f d) := by
  induction l generalizing d with
  | nil => exact .refl t d
  | cons b l ih => exact (h d b).trans (ih (f d b))

theorem tileFrame_clearPoison (t off n : Nat) (d : Dev) : TileFrame t d (clearPoison t off n d) := by
  refine tileFrame_foldl (fun e i => ?_) _ d
  dsimp only
  split
  · exact tileFrame_modTile ..
  · exact .refl t e

/-! ## The bytes of a fill -/

theorem getD_leBytes {n i : Nat} (h : i < n) (v : Nat) : (leBytes n v).getD i 0 = BitVec.ofNat 8 (v / 256 ^ i) := by
  induction n generalizing i v with
  | zero => omega
  | succ n ih =>
    cases i with
    | zero => simp [leBytes]
    | succ i => rw [leBytes, List.getD_cons_succ, ih (Nat.lt_of_succ_lt_succ h), Nat.pow_succ', Nat.div_div_eq_div_mul]

/-- `n` bytes of the 4-byte pattern `v`. -/
def patternBytes (n v : Nat) : Bytes := (List.replicate (n / 4) (leBytes 4 v)).flatten

theorem patternBytes_eq (n v : Nat) : patternBytes n v = (List.replicate (n / 4) v).flatMap (leBytes 4) := by
  rw [patternBytes, List.flatMap_def, List.map_replicate]

theorem length_patternBytes {n : Nat} (h : n % 4 = 0) (v : Nat) : (patternBytes n v).length = n := by
  rw [patternBytes_eq, length_flatMap_leBytes, List.length_replicate]
  omega

theorem getD_patternBytes {n i : Nat} (h : n % 4 = 0) (hi : i < n) (v : Nat) :
    (patternBytes n v).getD i 0 = BitVec.ofNat 8 (v / 256 ^ (i % 4)) := by
  have chunk := chunk_flatMap_leBytes 4 (List.replicate (n / 4) v) (i := i / 4) (by rw [List.length_replicate]; omega)
  rw [← patternBytes_eq, List.getElem_replicate] at chunk
  have inside : i % 4 < 4 := Nat.mod_lt _ (by decide)
  calc (patternBytes n v).getD i 0
      = (((patternBytes n v).drop (4 * (i / 4))).take 4).getD (i % 4) 0 := by
        simp only [List.getD_eq_getElem?_getD, List.getElem?_take, List.getElem?_drop, if_pos inside, Nat.div_add_mod]
    _ = BitVec.ofNat 8 (v / 256 ^ (i % 4)) := by rw [chunk, getD_leBytes inside]

/-! ## A row on sound memory (R166, Tables 7.3 to 7.5) -/

section
variable {d : Dev} {q : Requester} {b : Bytes} (hmem : d.mem.err = []) (howner : ownedBy q.e q.t d = true)
include hmem howner

theorem spaceRead_of_sound {sp : Nat} (hsp : sp = 1 ∨ sp = 2 ∨ sp = 3) (named addr n : Nat) :
    spaceRead q sp named addr n d = (.ok, Mem.readN d.mem.phys (spaceAddr q.e sp addr) n, d) := by
  have read : physRead (spaceAddr q.e sp addr) n d = (Mem.readN d.mem.phys (spaceAddr q.e sp addr) n, false, d) :=
    physRead_of_sound (by simp [errsIn, hmem])
  have tile : spaceTile q.e sp named = q.e := if_neg (by omega)
  rw [spaceRead, if_neg (by omega)]
  simp only [tile, howner, read, if_true]
  rfl

/-- A write to a space of the tile puts its bytes there; beside them only flags of the tile's accumulator change. -/
theorem spaceWrite_of_sound {sp : Nat} (hsp : sp = 1 ∨ sp = 2 ∨ sp = 3) (named addr : Nat) (bs : Bytes) :
    ∃ e, spaceWrite q sp named addr bs d = (.ok, e) ∧
      TileFrame q.e { d with mem.phys := Mem.writeN d.mem.phys (spaceAddr q.e sp addr) bs } e := by
  have tile : spaceTile q.e sp named = q.e := if_neg (by omega)
  rw [spaceWrite, if_neg (by omega), if_neg (by omega)]
  simp only [tile, howner, physWrite_of_no_errors _ _ hmem, if_true]
  by_cases h2 : sp = 2
  · exact ⟨_, by rw [if_pos h2]; rfl, tileFrame_clearPoison ..⟩
  · exact ⟨_, by rw [if_neg h2]; rfl, .refl ..⟩

/-- What row (i, j) of a copy or a fill carries. -/
def carriedRow (q : Requester) (b : Bytes) (i j : Nat) (d : Dev) : Bytes :=
  if dKind b = 0 then
    Mem.readN d.mem.phys (spaceAddr q.e (dSrcSp b) (rowAddr (dSrc b) (dSrcS1 b) (dSrcS2 b) i j)) (dLen b)
  else patternBytes (dLen b) (dAux b)

variable (hkind : dKind b = 0 ∨ dKind b = 1) (hsrc : dKind b = 0 → dSrcSp b = 1 ∨ dSrcSp b = 2 ∨ dSrcSp b = 3)
  (hdst : dDstSp b = 1 ∨ dDstSp b = 2 ∨ dDstSp b = 3)
include hkind hsrc hdst

theorem rowRead_of_sound (i j : Nat) : rowRead q b i j d = (.ok, carriedRow q b i j d, d) := by
  rw [rowRead, carriedRow]
  rcases hkind with h | h
  · simp only [h, if_true]
    exact spaceRead_of_sound hmem howner (hsrc h) ..
  · simp only [h, if_neg (show dDstSp b ≠ 6 by omega)]
    rfl

theorem oneRow_of_sound {k i j at_ : Nat} (hi : k % dCount1 b = i) (hj : k / dCount1 b = j)
    (hat : spaceAddr q.e (dDstSp b) (rowAddr (dDst b) (dDstS1 b) (dDstS2 b) i j) = at_) :
    ∃ e, oneRow q k b none d = (.ok, none, e) ∧
      TileFrame q.e { d with mem.phys := Mem.writeN d.mem.phys at_ (carriedRow q b i j d) } e := by
  subst hat
  obtain ⟨e, written, frame⟩ := spaceWrite_of_sound hmem howner hdst (dDstTile b)
    (rowAddr (dDst b) (dDstS1 b) (dDstS2 b) i j) (carriedRow q b i j d)
  have row_written : rowWrite q k b (carriedRow q b i j d) i j d = (.ok, e) := by
    rw [rowWrite, if_neg (by omega), if_neg (by omega), written]
  refine ⟨e, ?_, frame⟩
  simp only [oneRow, hi, hj, rowRead_of_sound hmem howner hkind hsrc hdst, row_written]

end

end Sys2Proof.Machine

namespace Sys2Proof.Proofs
open Sys2Proof.Machine

/-- Settles O22: the first part by the words that an access touches and heals, the second by the bytes that a row on sound
memory carries. -/
theorem physicalMemory : Obligations.PhysicalMemory := by
  unfold Obligations.PhysicalMemory
  refine ⟨fun a n bs d hwf => ?accesses, fun q k b d hmem _ howner hkind hsrc hdst hlen => ?rows⟩
  case accesses =>
    intro w r touched whole
    have covers (k : Nat) : wholeWord a bs.length k = true ↔ whole k := by simp [wholeWord, whole]
    refine ⟨fun x => ?bytes, fun h => ?canonical, ?reports, fun k hk hne => ?healed, fun k hk => ?kept,
      Mem.length_readN .., fun i hi => ?read, (physRead_sameMemories a n d).1, physRead_reports a n hwf, fun k => ?corrected⟩
    case bytes => rw [physWrite_phys, Mem.get_writeN]
    case canonical => rw [physWrite_phys]; exact Mem.wf_writeN a bs h
    case reports => simp only [w, physWrite_reports a bs hwf, ← covers, Bool.not_eq_true, touched]
    case healed =>
      have inside : Touched a bs.length k := by simp only [whole] at hk; exact ⟨by omega, by omega, hne⟩
      rw [physWrite_err a bs hwf, if_pos ⟨inside, by simp [(covers k).2 hk]⟩]
    case kept => rw [physWrite_err a bs hwf, if_neg fun h => hk h.1]
    case read => simp [r, physRead_bytes, Mem.readN_eq, hi]
    case corrected =>
      rw [physRead_err a n hwf]
      have healed : Touched a n k ∧ singleBit (k, Sparse.get 0 d.mem.err k) = true ↔
          Sparse.get 0 d.mem.err k = 1 ∧ Touched a n k := by rw [singleBit, beq_iff_eq, and_comm]
      exact ite_congr (propext healed) (fun _ => rfl) (fun _ => rfl)
  case rows =>
    intro i j src dst r
    obtain ⟨e, row, frame, tiles⟩ := oneRow_of_sound hmem howner hkind hsrc hdst (k := k) rfl rfl rfl
    have result : r = (.ok, none, e) := row
    have phys : e.mem.phys = Mem.writeN d.mem.phys dst (carriedRow q b i j d) := by rw [frame]
    have length : (carriedRow q b i j d).length = dLen b := by
      unfold carriedRow
      split
      · exact Mem.length_readN ..
      · exact length_patternBytes hlen _
    rw [result]
    refine ⟨rfl, rfl, fun a ha => ?outside, fun n hn => ?inside, tiles, by rw [frame]⟩
    case outside => rw [phys, Mem.get_writeN, length, if_neg (by omega)]
    case inside =>
      rw [phys, Mem.get_writeN, length, if_pos (by omega), Nat.add_sub_cancel_left]
      unfold carriedRow
      split
      · simp [Mem.readN_eq, hn, src]
      · exact getD_patternBytes hlen hn _

end Sys2Proof.Proofs
end

section
/-!
PROOFS. The blocks of a PCI Express function (R172, R415, R416, R418, R419): invalidations, event rings, vector counts and
masks.
-/
namespace Sys2Proof.Machine

/-! ## Accesses that reach a function -/

theorem barAccess_of_reaches {fn : Nat} {d : Dev} (h : Reaches fn d) (f : Dev → Dev) : barAccess fn f d = f d := by
  obtain ⟨hlink, hexists, henabled⟩ := h
  simp [barAccess, hlink, hexists, henabled]

/-- A write that reaches its function answers what it does there. -/
theorem answers_barAccess {fn : Nat} {ok : Bool} {f : Dev → Dev} {s : State} {d' : Dev} {c : Instr}
    (hreach : Reaches fn s.dev) (hok : ok = true) (hc : exec c s = onDev ok (barAccess fn f) s) (h : f s.dev = d') :
    Answers c s d' :=
  answers_onDev hok hc ((barAccess_of_reaches hreach f).trans h)

theorem completes_barAccess {fn : Nat} {ok : Bool} {f : Dev → Dev} {s : State} {P : Dev → Prop} {c : Instr}
    (hreach : Reaches fn s.dev) (hok : ok = true) (hc : exec c s = onDev ok (barAccess fn f) s) (h : P (settle (f s.dev))) :
    Completes c s P :=
  completes_onDev hok hc (by rwa [barAccess_of_reaches hreach])

theorem getBlock'_modBlock (fn g : Nat) (f : FnBlock → FnBlock) (d : Dev) :
    getBlock' g (modBlock fn f d) = if g = fn then f (getBlock' fn d) else getBlock' g d :=
  Sparse.get_set (α := FnBlock) {} d.pcie.blocks fn g _

/-! ## Invalidations (R172, R418) -/

section
variable {fn v : Nat} {d : Dev}

/-- A request joins the queue, with INV_SEQ one higher. -/
def invQueued (fn v : Nat) (all : Bool) (d : Dev) : Dev :=
  modBlock fn (fun y => { y with invSeq := (y.invSeq + 1) % 2 ^ 64 })
    { d with mem.invalidations := d.mem.invalidations ++ [{
        fn := fn, tenant := if fn = 0 then bitsOf v 0 10 else fn - 1, va := (getBlock' fn d).invAddr
        pages := bitsOf v 16 32, all := all, intr := bitOf v 48 }] }

/-- A range of no pages, or one that ends beyond 2^48. -/
theorem invSubmit_of_bad_range (hrange : bitOf v 10 = false)
    (hbad : bitsOf v 16 32 = 0 ∨ 2 ^ 48 < (getBlock' fn d).invAddr + bitsOf v 16 32 * 65536) :
    invSubmit fn v d = refuseReg fn (blockOff fn 8) 8 d := by
  have bad : (bitsOf v 16 32 == 0 || decide (2 ^ 48 < (getBlock' fn d).invAddr + bitsOf v 16 32 * 65536)) = true := by
    rw [Bool.or_eq_true, beq_iff_eq, decide_eq_true_eq]; exact hbad
  simp only [invSubmit, hrange, bad]
  rfl

variable (hgood : bitOf v 10 = true ∨
  0 < bitsOf v 16 32 ∧ (getBlock' fn d).invAddr + bitsOf v 16 32 * 65536 ≤ 2 ^ 48)
include hgood

theorem invSubmit_of_good : invSubmit fn v d =
    if 64 ≤ d.mem.invalidations.length then fnRaise 4 evInvOverflow fn d else invQueued fn v (bitOf v 10) d := by
  have good : (!bitOf v 10 && (bitsOf v 16 32 == 0 ||
      decide (2 ^ 48 < (getBlock' fn d).invAddr + bitsOf v 16 32 * 65536))) = false := by
    rcases hgood with hall | ⟨hpages, hend⟩
    · rw [hall]; rfl
    · rw [beq_false_of_ne (by omega), decide_eq_false (by omega)]; simp
  simp only [invSubmit, good]
  rfl

theorem invSubmit_of_full (hfull : 64 ≤ d.mem.invalidations.length) : invSubmit fn v d = fnRaise 4 evInvOverflow fn d := by
  rw [invSubmit_of_good hgood, if_pos hfull]

theorem invSubmit_of_room (hroom : d.mem.invalidations.length < 64) : invSubmit fn v d = invQueued fn v (bitOf v 10) d := by
  rw [invSubmit_of_good hgood, if_neg (by omega)]

end

/-- Whether a cached entry stays when those of tenant `t` that touch [lo, hi) are dropped. -/
def keeps (t lo hi : Nat) (x : Cached) : Bool :=
  !(x.tenant == t && decide (x.page * 2 ^ x.bits < hi) && decide (lo < (x.page + 1) * 2 ^ x.bits))

/-- Every cache with its entries that do not stay left out. -/
def keptEntries (keep : Cached → Bool) (c : Table (List Cached)) : Table (List Cached) :=
  (c.map fun x => (x.1, x.2.filter keep)).filter fun x => x.2 != []

theorem dropCached_eq (t lo hi : Nat) (d : Dev) :
    dropCached t lo hi d = { d with mem.tlbs := keptEntries (keeps t lo hi) d.mem.tlbs,
                                    mem.walks := keptEntries (keeps t lo hi) d.mem.walks } := rfl

theorem Sparse.get_mem_or {α : Type} (dflt : α) (m : Table α) (k : Nat) :
    (k, Sparse.get dflt m k) ∈ m ∨ Sparse.get dflt m k = dflt := by
  induction m with
  | nil => exact .inr rfl
  | cons p m ih =>
    obtain ⟨i, v⟩ := p
    rw [Sparse.get]
    split
    · subst_vars; exact .inl (List.mem_cons_self ..)
    · exact ih.imp_left (List.mem_cons_of_mem _)

theorem keep_of_mem_keptEntries {keep : Cached → Bool} {m : Table (List Cached)} {n : Nat} {c : Cached}
    (h : c ∈ Sparse.get [] (keptEntries keep m) n) : keep c = true := by
  rcases Sparse.get_mem_or [] (keptEntries keep m) n with hmem | hnone
  · obtain ⟨⟨i, l⟩, -, heq⟩ := List.mem_map.1 (List.mem_filter.1 hmem).1
    rw [← (Prod.mk.inj heq).2] at h
    exact (List.mem_filter.1 h).2
  · simp [hnone] at h

/-- An entry of the tenant that stays lies beside the range. -/
theorem beside_of_keeps {t lo hi : Nat} {c : Cached} (h : keeps t lo hi c = true) (ht : c.tenant = t) :
    hi ≤ c.page * 2 ^ c.bits ∨ (c.page + 1) * 2 ^ c.bits ≤ lo := by
  rcases Nat.lt_or_ge (c.page * 2 ^ c.bits) hi with below | beyond
  · refine .inr (Nat.not_lt.1 fun above => ?_)
    simp [keeps, ht, below, above] at h
  · exact .inl beyond

/-- R172: what the oldest request's completion does before its vector. -/
def invCompleted (r : Invalidation) (rest : List Invalidation) (d : Dev) : Dev :=
  modBlock r.fn (fun b => { b with invDone := (b.invDone + 1) % 2 ^ 64 })
    { dropCached r.tenant (if r.all then 0 else r.va) (if r.all then 2 ^ 48 else r.va + r.pages * 65536) d with
      mem.invalidations := rest }

section
variable {r : Invalidation} {rest : List Invalidation} {d : Dev}

theorem invalidationComplete_of_oldest (h : d.mem.invalidations = r :: rest) : invalidationComplete d =
    if r.intr then sendVector (vectorOf r.fn 0 (invCompleted r rest d)) (invCompleted r rest d) else invCompleted r rest d := by
  rw [invalidationComplete, h]
  rfl

theorem cached_invCompleted {n : Nat} {c : Cached}
    (h : c ∈ Sparse.get [] (invCompleted r rest d).mem.tlbs n ∨ c ∈ Sparse.get [] (invCompleted r rest d).mem.walks n) :
    keeps r.tenant (if r.all then 0 else r.va) (if r.all then 2 ^ 48 else r.va + r.pages * 65536) c = true :=
  h.elim keep_of_mem_keptEntries keep_of_mem_keptEntries

end

/-! ## Event rings (R419) -/

section
variable {fn v : Nat} {d : Dev}

/-- The bits of the ring's control that are kept: LOG2, ENABLE and the bit after it. -/
def ringControl (v : Nat) : Nat := bitsOf v 0 5 + bitsOf v 8 2 * 2 ^ 8

theorem bitOf_ringControl (v : Nat) : bitOf (ringControl v) 8 = bitOf v 8 := by
  have low : bitsOf v 0 5 < 32 := Nat.mod_lt _ (by decide)
  have high : bitsOf (ringControl v) 8 1 = bitsOf v 8 2 % 2 := by
    unfold ringControl
    simp only [bitsOf] at low ⊢
    omega
  have same : bitsOf v 8 2 % 2 = bitsOf v 8 1 := by simp only [bitsOf]; omega
  rw [bitOf, bitOf, high, same]

variable (hon : bitOf v 8 = true) (hoff : bitOf (getBlock' fn d).evrCtl 8 = false)
include hon hoff

theorem evrCtlWrite_of_enable : evrCtlWrite fn v d =
    if bitsOf v 0 5 < 6 ∨ 16 < bitsOf v 0 5 then refuseReg fn (blockOff fn 0x28) 4 d
    else modBlock fn (fun x => { x with evrCtl := ringControl v, ringBase := x.evrBase, ringLog2 := bitsOf v 0 5, tail := 0 }) d := by
  have enables : (bitOf (ringControl v) 8 && !bitOf (getBlock' fn d).evrCtl 8) = true := by simp [bitOf_ringControl, hon, hoff]
  exact if_pos enables

end

/-! ## Vector counts (R415) -/

/-- The vectors of all VFs, were COUNT of VF `t` to be `c`. -/
def vectorSum (t c : Nat) (d : Dev) : Nat := (List.range 1024).foldl (fun n u => n + if u = t then c else vfCount u d) 0

section
variable {t v : Nat} {d : Dev}

theorem vfvecWrite_of_good (hoff : d.pcie.vfEnable = false) (hlow : 1 ≤ bitsOf v 16 7) (hhigh : bitsOf v 16 7 ≤ 64)
    (hsum : vectorSum t (bitsOf v 16 7) d ≤ 1984) :
    vfvecWrite t v d = { d with pcie.vfvec := Sparse.set 1 d.pcie.vfvec t (bitsOf v 16 7) } := by
  have good : ¬ (d.pcie.vfEnable = true ∨ bitsOf v 16 7 = 0 ∨ 64 < bitsOf v 16 7 ∨ 1984 < vectorSum t (bitsOf v 16 7) d) := by
    simp only [hoff, Bool.false_eq_true, false_or]
    omega
  exact if_neg good

theorem vfvecWrite_of_bad (h : d.pcie.vfEnable = true ∨ bitsOf v 16 7 = 0 ∨ 64 < bitsOf v 16 7 ∨
    1984 < vectorSum t (bitsOf v 16 7) d) : vfvecWrite t v d = refuseReg 0 (0x4000 + 4 * t) 4 d :=
  if_pos h

end

/-! ## Masks (R416) -/

theorem tableWrite_of_unmask {fn e : Nat} {d : Dev} (h : msixEntryOk fn e d = true) :
    tableWrite fn e 3 0 d = releasePending fn
      { d with pcie.msix := Sparse.modify {} d.pcie.msix (vectorOf fn e d) fun y => { y with control := 0 } } :=
  if_pos h

end Sys2Proof.Machine

namespace Sys2Proof.Proofs
open Sys2Proof.Machine

/-- Settles O33: each register of a function by the value written, and the oldest invalidation by what every cache keeps. -/
theorem functionBlocks : Obligations.FunctionBlocks := by
  unfold Obligations.FunctionBlocks
  rintro s d fn v rfl hfn hreach
  have unit : fnOk fn = true := decide_eq_true hfn
  intro x queued
  refine ⟨fun hrange => ?range, fun hall => ?all, fun hnone => ?no_request, fun r rest holdest => ?oldest,
    fun hon hoff => ?ring, fun hclear => ?overflow, fun hkeep => ?no_overflow, fun t hpf ht => ?vectors,
    fun e he hentry => ?unmask⟩
  case range =>
    have submits {d' : Dev} (h : invSubmit fn v s.dev = d') : Answers (.invalidateRange fn v) s d' :=
      answers_barAccess hreach unit rfl ((if_neg (Bool.eq_false_iff.1 hrange)).trans h)
    refine ⟨fun hpages hend hroom => submits ?_, fun hbad => submits (invSubmit_of_bad_range hrange hbad),
      fun hpages hend hfull => submits (invSubmit_of_full (.inr ⟨hpages, hend⟩) hfull)⟩
    rw [invSubmit_of_room (.inr ⟨hpages, hend⟩) hroom, hrange]
    rfl
  case all =>
    have submits {d' : Dev} (h : invSubmit fn v s.dev = d') : Answers (.invalidateAll fn v) s d' :=
      answers_barAccess hreach unit rfl ((if_pos hall).trans h)
    refine ⟨fun hroom => submits ?_, fun hfull => submits (invSubmit_of_full (.inl hall) hfull)⟩
    rw [invSubmit_of_room (.inl hall) hroom, hall]
    rfl
  case no_request => exact answers_onDev (ok := true) rfl rfl (by rw [invalidationComplete, hnone])
  case oldest =>
    have completes := invalidationComplete_of_oldest holdest
    exact ⟨fun n c hc ht => beside_of_keeps (cached_invCompleted (r := r) (rest := rest) hc) ht,
      fun hquiet => answers_onDev (ok := true) rfl rfl (completes.trans (if_neg (Bool.eq_false_iff.1 hquiet))),
      fun hintr => answers_onDev (ok := true) rfl rfl (completes.trans (if_pos hintr))⟩
  case ring =>
    have enables : (if bitOf v 8 then evrCtlWrite fn v s.dev else s.dev) = _ :=
      (if_pos hon).trans (evrCtlWrite_of_enable hon hoff)
    refine ⟨fun hlow hhigh => ?taken, fun hbad => ?refused⟩
    case taken =>
      refine completes_barAccess hreach unit rfl ?_
      rw [enables, if_neg (by omega)]
      exact ⟨(getBlock'_modBlock ..).trans (if_pos rfl), fun g hg => (getBlock'_modBlock ..).trans (if_neg hg), rfl⟩
    case refused => exact answers_barAccess hreach unit rfl (enables.trans (if_pos hbad))
  case overflow => exact answers_barAccess hreach unit rfl (if_pos hclear)
  case no_overflow => exact answers_barAccess hreach unit rfl (if_neg (Bool.eq_false_iff.1 hkeep))
  case vectors =>
    subst hpf
    intro c sum
    refine ⟨fun hoff hlow hhigh hsum => completes_barAccess hreach (decide_eq_true ht) rfl ?_,
      fun hbad => answers_barAccess hreach (decide_eq_true ht) rfl (vfvecWrite_of_bad hbad)⟩
    rw [vfvecWrite_of_good hoff hlow hhigh hsum]
    exact ⟨Sparse.get_set_same .., fun u hu => Sparse.get_set_other _ _ _ hu, rfl⟩
  case unmask => exact answers_barAccess hreach (by simp [unit, he]) rfl (tableWrite_of_unmask hentry)

end Sys2Proof.Proofs
end

section
/-!
PROOFS. Watches of pool counters (R192), the result-age monitor (R350 to R353), the patrol scrubber (R175) and the slot
windows of a run frame (R239).
-/
namespace Sys2Proof.Machine

/-! ## Watches of a pool counter (R192) -/

section
variable {i : Nat} {d : Dev}

theorem watchRelease_of_none_ready (h : ∀ x ∈ d.ctr.watches, x.counter = i → watchReady d x = false) :
    watchRelease i d = d := by
  have none_found : d.ctr.watches.find? (fun x => x.counter == i && watchReady d x) = none :=
    List.find?_eq_none.2 fun x hx => by simpa using h x hx
  rw [watchRelease, none_found]

/-- The watches that come before the one released are on other counters or not satisfied. -/
theorem watchRelease_of_first_ready {l r : List Watch} {x : Watch} (hw : d.ctr.watches = l ++ x :: r)
    (hl : ∀ y ∈ l, y.counter = i → watchReady d y = false) (hi : x.counter = i) (hx : watchReady d x = true) :
    watchRelease i d = dropWatch x.waiter d := by
  have first_found : d.ctr.watches.find? (fun x => x.counter == i && watchReady d x) = some x := by
    rw [hw, List.find?_append, List.find?_eq_none.2 fun y hy => by simpa using hl y hy]
    simp [hi, hx]
  rw [watchRelease, first_found]

end

/-! ## Publications (R192, R352, R353) -/

section
variable {t k j at_ : Nat} {d : Dev}

theorem publication_of_no_report (h : d.ctr.reports = []) : publication d = d := by rw [publication, h]

theorem publication_of_no_stream {i v : Nat} {rest : List (Nat × Nat × Nat)} (h : d.ctr.reports = (i, v, at_) :: rest)
    (hs : publishStreams i d = []) : publication d = { d with ctr.reports := rest } := by
  rw [publication, h]
  simp only [hs, List.foldl_nil, if_true]

/-- An add that reaches one result more than were judged publishes that result alone. -/
theorem publishTo_of_next {e : Dev} (hon : (getDl t k d).off = false)
    (hone : publishOne t k (getDl t k d).judged at_ d = (true, e)) :
    publishTo t k ((getDl t k d).base + (getDl t k d).judged + 1) at_ d =
      (true, modDl t k (fun y => { y with judged := y.judged + 1 }) e) := by
  simp [publishTo, hon, hone]

theorem publication_of_one_stream {i v : Nat} {rest : List (Nat × Nat × Nat)} {e : Dev} (hk : k < 16)
    (h : d.ctr.reports = (i, v, at_) :: rest) (hs : publishStreams i d = [16 * t + k])
    (hto : publishTo t k v at_ d = (true, e)) : publication d = { e with ctr.reports := rest } := by
  have tenant : (16 * t + k) / 16 = t := by omega
  have stream : (16 * t + k) % 16 = k := by omega
  rw [publication, h]
  simp only [hs, List.foldl_cons, List.foldl_nil, tenant, stream, hto, Bool.and_self, if_true]

theorem publishOne_of_dropped (h : j ∈ (getDl t k d).dropped) : publishOne t k j at_ d = (true, discardLate t k j d) :=
  if_pos (List.contains_iff_mem.2 h)

/-- The frame and the offset lie in the low 80 bits of an origin stamp. -/
theorem leNat_linkedOrigin_low (t v : Nat) {f n : Nat} (hf : f < 2 ^ 48) (hn : n < 2 ^ 32) :
    leNat (linkedOrigin t v f n) % 2 ^ 80 = f + n * 2 ^ 48 := by
  rw [linkedOrigin, leNat_leBytes]
  omega

theorem linkedOrigin_frame (t v : Nat) {f n : Nat} (hf : f < 2 ^ 48) (hn : n < 2 ^ 32) :
    bitsOf (leNat (linkedOrigin t v f n)) 0 48 = f := by
  have low := leNat_linkedOrigin_low t v hf hn
  rw [bitsOf]
  omega

theorem linkedOrigin_offset (t v : Nat) {f n : Nat} (hf : f < 2 ^ 48) (hn : n < 2 ^ 32) :
    bitsOf (leNat (linkedOrigin t v f n)) 48 32 = n := by
  have low := leNat_linkedOrigin_low t v hf hn
  rw [bitsOf]
  omega

theorem publishJudged_of_on_time {f n : Nat} (hf : f < 2 ^ 48) (hn : n < 2 ^ 32)
    (htime : clockNs at_ d ≤ ((f * periodNs d + n + dlLimit (dlRec t k d) : Nat) : Int)) :
    publishJudged t k j at_ (linkedOrigin t (dlRec t k d) f n) d =
      judgeOnTime t k j (linkedOrigin t (dlRec t k d) f n) d := by
  simp only [publishJudged, linkedOrigin_frame t _ hf hn, linkedOrigin_offset t _ hf hn]
  exact if_pos htime

theorem publishOne_of_linked {f n : Nat} (hlive : j ∉ (getDl t k d).dropped) (hready : dlReady t k d = (true, d))
    (hlinked : dlLinked (dlRec t k d) = true)
    (hpending : ((getDl t k d).pending.find? fun p => p.1 == j) = some (j, f, n)) :
    publishOne t k j at_ d = (true, publishJudged t k j at_ (linkedOrigin t (dlRec t k d) f n) d) := by
  simp [publishOne, hlive, hready, hlinked, hpending]

end

/-! ## Expiry of results (R352) -/

section
variable {t k : Nat} {d : Dev}

/-- The time of a pending result, with its frame, its offset and the stream's limit, has passed. -/
def PastLimit (t k : Nat) (d : Dev) (p : Nat × Nat × Nat) : Prop :=
  ((p.2.1 * periodNs d + p.2.2 + dlLimit (dlRec t k d) : Nat) : Int) < clockNs d.now d

theorem resultExpiry_of_none_late
    (h : dlOn t k d = false ∨ dlLinked (dlRec t k d) = false ∨ ∀ p ∈ (getDl t k d).pending, ¬ PastLimit t k d p) :
    resultExpiry t k d = d := by
  rcases h with hoff | hfree | hearly
  · simp [resultExpiry, hoff]
  · simp [resultExpiry, hfree]
  · by_cases hon : (dlOn t k d && dlLinked (dlRec t k d)) = true
    · rw [resultExpiry, if_pos hon]
      dsimp only
      rw [List.find?_eq_none.2 fun p hp => ?_]
      simp only [Bool.and_eq_true, decide_eq_true_eq]
      exact fun ⟨⟨hlate, _⟩, _⟩ => hearly p hp hlate
    · exact if_neg hon

/-- Under policy 0 a result past its limit that no report reaches is marked, and waits for its publication. -/
theorem resultExpiry_of_first_late {j f n : Nat} {rest : List (Nat × Nat × Nat)} (hon : dlOn t k d = true)
    (hlinked : dlLinked (dlRec t k d) = true) (hpending : (getDl t k d).pending = (j, f, n) :: rest)
    (hlate : PastLimit t k d (j, f, n)) (hnew : j ∉ (getDl t k d).missed) (hreports : d.ctr.reports = [])
    (hpolicy : dlPolicy (dlRec t k d) = 0) :
    resultExpiry t k d = deadlineMissed t k j (modDl t k (fun y => { y with missed := y.missed ++ [j] }) d) := by
  rw [resultExpiry, if_pos (by rw [hon, hlinked]; rfl)]
  dsimp only
  rw [hpending, List.find?_cons_of_pos ?_]
  · exact if_pos hpolicy
  · simp only [Bool.and_eq_true, decide_eq_true_eq]
    exact ⟨⟨hlate, by simp [hnew]⟩, by simp [hreports]⟩

end

/-! ## The patrol scrubber (R175) -/

section
variable {a : Nat} {d : Dev}

theorem scrubWord_of_sound (h : Sparse.get 0 d.mem.err (a / 8) = 0) : scrubWord a d = d := by simp [scrubWord, h]

theorem scrubWord_of_single (h : Sparse.get 0 d.mem.err (a / 8) = 1) :
    scrubWord a d = countCorrected a (setErr (a / 8) 0 d) := by simp [scrubWord, h]

theorem scrubWord_of_latent (h : Sparse.get 0 d.mem.err (a / 8) = 2) (hs : inStore a d = false)
    (hm : mirroredPlace a d = none) :
    scrubWord a d = raise 4 evHbmUeLatent (srcChannel (pseudoChannel a)) (countUncorrectable a d) (a / 64) := by
  simp [scrubWord, h, hs, hm]

/-- The scrubber goes on to the word after `pa`; with the last word of HBM a pass ends. -/
def scrubAfter (pa : Nat) (d : Dev) : Dev :=
  if pa + 8 = hbmEnd then { d with mem.scrubAt := 0, mem.scrubPasses := d.mem.scrubPasses + 1 }
  else { d with mem.scrubAt := pa + 8 }

theorem patrolScrub_of_outside_store
    (h : inStore (a / 8 * 8) d = false ∨ Sparse.get 0 d.mem.err (a / 8 * 8 / 8) ≠ 2) :
    patrolScrub a d = scrubAfter (a / 8 * 8) (scrubWord (a / 8 * 8) d) := by
  have outside : (inStore (a / 8 * 8) d && Sparse.get 0 d.mem.err (a / 8 * 8 / 8) == 2) = false := by
    simpa only [Bool.and_eq_false_iff, beq_eq_false_iff_ne] using h
  simp only [patrolScrub, outside]
  rfl

end

/-! ## Slot windows (R239) -/

section
variable {t c : Nat} {d : Dev}

theorem slotWindowOpen_of_now (h : slotNow t c d = true) : slotWindowOpen t c d = slotOpen t c d := if_pos h

theorem slotWindowOpen_of_not_now (h : slotNow t c d = false) : slotWindowOpen t c d = d := if_neg (Bool.eq_false_iff.1 h)

theorem slotWindowClose_of_now (h : slotNow t c d = true) : slotWindowClose t c d = d := if_pos h

theorem slotWindowClose_of_not_now (h : slotNow t c d = false) :
    slotWindowClose t c d = slotClose t c (!slotLeft t c d) d := if_neg (Bool.eq_false_iff.1 h)

/-- A packet of tenant `t` for the windows of context `c`, still on VC-S. -/
def slotUnsent (t c : Nat) (p : Packet) : Bool := p.tenant == t && p.cls == 1 && p.window == c + 1

/-- A close that is not the last, or that finds nothing unsent, shuts the window and does no more. -/
theorem slotClose_of_nothing_to_move {last : Bool} (h : last = false ∨ d.net.inject.any (slotUnsent t c) = false) :
    slotClose t c last d = { d with net.slotOpen := Sparse.set false d.net.slotOpen (slotKey t c) false } := by
  have nothing : (last && d.net.inject.any (slotUnsent t c)) = false := Bool.and_eq_false_iff.2 h
  exact if_neg (Bool.eq_false_iff.1 nothing)

/-- The first overrun of a run frame: what is unsent goes on VC-Q, and SLOT_OVERRUN is raised. -/
theorem slotClose_of_first_overrun (hunsent : d.net.inject.any (slotUnsent t c) = true)
    (hfirst : Sparse.get 0 d.net.overrun (slotKey t c) ≠ (getRun t d).index + 1) :
    slotClose t c true d = raiseT 4 evSlotOverrun (srcNi 0) t { d with net := { d.net with
      slotOpen := Sparse.set false d.net.slotOpen (slotKey t c) false
      inject := d.net.inject.map fun p => if slotUnsent t c p then { p with cls := 2 } else p
      overrun := Sparse.set 0 d.net.overrun (slotKey t c) ((getRun t d).index + 1)
      counts := bumpTable d.net.counts 5 1 } } :=
  (if_pos (by rw [Bool.true_and]; exact hunsent)).trans (if_neg hfirst)

end

end Sys2Proof.Machine

namespace Sys2Proof.Proofs
open Sys2Proof.Machine

/-- Settles O42: a watch by the first that is ready, a report by the streams that it publishes, a pending result by its
limit, a scrubbed word by its error and a slot window by its times. -/
theorem watchesAndResults : Obligations.WatchesAndResults := by
  unfold Obligations.WatchesAndResults
  rintro s d rfl
  refine ⟨fun i hi => ?watches, fun hnone => ?no_report, fun i v at_ rest hreport => ?report, fun t k j at_ => ?result,
    fun t k ht hk => ?expiry, fun a ha => ?scrub, fun t c ht => ?slots⟩
  case watches =>
    have answers {d' : Dev} (h : watchRelease i s.dev = d') : Answers (.watchRelease i) s d' :=
      answers_onDev (decide_eq_true hi) rfl h
    exact ⟨fun hidle => answers (watchRelease_of_none_ready hidle),
      fun l x r hw hl hx hready => answers (watchRelease_of_first_ready hw hl hx hready)⟩
  case no_report => exact answers_onDev (ok := true) rfl rfl (publication_of_no_report hnone)
  case report =>
    have answers {d' : Dev} (h : publication s.dev = d') : Answers .publication s d' := answers_onDev (ok := true) rfl rfl h
    refine ⟨fun hs => answers (publication_of_no_stream hreport hs), fun t k e hk hs hv hon hone => ?_⟩
    subst hv
    exact answers (publication_of_one_stream hk hreport hs (publishTo_of_next hon hone))
  case result =>
    refine ⟨publishOne_of_dropped, fun f n hlive hready hlinked hpending hf hn htime => ?_⟩
    rw [publishOne_of_linked hlive hready hlinked hpending, publishJudged_of_on_time hf hn htime]
  case expiry =>
    have answers {d' : Dev} (h : resultExpiry t k s.dev = d') : Answers (.resultExpiry t k) s d' :=
      answers_onDev (by simp [tenantOk, ht, hk]) rfl h
    exact ⟨fun hnone => answers (resultExpiry_of_none_late hnone),
      fun j f n rest hon hlinked hpending hlate hnew hreports hpolicy =>
        answers (resultExpiry_of_first_late hon hlinked hpending hlate hnew hreports hpolicy)⟩
  case scrub =>
    have answers {d' e : Dev}
        (hout : inStore (a / 8 * 8) s.dev = false ∨ Sparse.get 0 s.dev.mem.err (a / 8 * 8 / 8) ≠ 2)
        (hword : scrubWord (a / 8 * 8) s.dev = e) (hafter : scrubAfter (a / 8 * 8) e = d') :
        Answers (.patrolScrub a) s d' :=
      answers_onDev (decide_eq_true ha) rfl (by rw [patrolScrub_of_outside_store hout, hword, hafter])
    refine ⟨fun he hmore => ?_, fun he hend => ?_, fun he hmore => ?_, fun he hs hm hmore => ?_⟩
    · exact answers (.inr (by omega)) (scrubWord_of_sound he) (if_neg hmore)
    · exact answers (.inr (by omega)) (scrubWord_of_sound he) (if_pos hend)
    · exact answers (.inr (by omega)) (scrubWord_of_single he) (if_neg hmore)
    · exact answers (.inl hs) (scrubWord_of_latent he hs hm) (if_neg hmore)
  case slots =>
    have opens {d' : Dev} (h : slotWindowOpen t c s.dev = d') : Answers (.slotWindowOpen t c) s d' :=
      answers_onDev (decide_eq_true ht) rfl h
    have closes {d' : Dev} (h : slotWindowClose t c s.dev = d') : Answers (.slotWindowClose t c) s d' :=
      answers_onDev (decide_eq_true ht) rfl h
    refine ⟨fun hnow => ⟨opens (slotWindowOpen_of_now hnow), closes (slotWindowClose_of_now hnow)⟩,
      fun hnot => opens (slotWindowOpen_of_not_now hnot), fun hnot hnothing => closes ?_,
      fun hnot hlast hunsent hfirst => closes ?_⟩
    · rw [slotWindowClose_of_not_now hnot]
      exact slotClose_of_nothing_to_move (hnothing.imp_left fun hleft => by rw [hleft]; rfl)
    · rw [slotWindowClose_of_not_now hnot, hlast]
      exact slotClose_of_first_overrun hunsent hfirst

end Sys2Proof.Proofs
end

section
/-!
PROOFS. Reels (chapter 9): what opening and closing, doorbells, a resume and the fetch of a slot make of one reel, and that
they leave the others.
-/
namespace Sys2Proof.Machine

/-! ## The change of one reel -/

/-- Reel `r` has become `x`; every other reel is what it was. -/
def ReelBecomes (r : Nat) (x : Reel) (d d' : Dev) : Prop := ∀ j, getReel j d' = if j = r then x else getReel j d

section
variable {r : Nat} {x y : Reel} {d e f : Dev}

theorem ReelBecomes.same (h : ReelBecomes r x d e) : getReel r e = x := (h r).trans (if_pos rfl)

theorem ReelBecomes.others (h : ReelBecomes r x d e) : ∀ j, j ≠ r → getReel j e = getReel j d :=
  fun j hj => (h j).trans (if_neg hj)

/-- Of two changes of a reel the later stands. -/
theorem ReelBecomes.trans (h : ReelBecomes r x d e) (g : ReelBecomes r y e f) : ReelBecomes r y d f := by
  intro j
  rw [g j]
  split
  next => rfl
  next hj => exact h.others j hj

theorem getReel_congr (h : e.reels = d.reels) (j : Nat) : getReel j e = getReel j d := by rw [getReel, getReel, h]

theorem ReelBecomes.of_reels (h : ReelBecomes r x d e) (hf : f.reels = e.reels) : ReelBecomes r x d f :=
  fun j => (getReel_congr hf j).trans (h j)

theorem ReelBecomes.from_reels (h : ReelBecomes r x e f) (he : e.reels = d.reels) : ReelBecomes r x d f :=
  fun j => (h j).trans (by rw [getReel_congr he])

theorem ReelBecomes.settle (h : ReelBecomes r x d e) : ReelBecomes r x d (settle e) := h.of_reels rfl

theorem modReel_becomes (r : Nat) (f : Reel → Reel) (d : Dev) : ReelBecomes r (f (getReel r d)) d (modReel r f d) :=
  fun j => getReel_modReel r j f d

/-- Mirroring changes the twin's streams, the output queues and the events. -/
theorem mirrorSend_frame (m : MirrorRec) (d : Dev) :
    mirrorSend m d = { d with net := (mirrorSend m d).net, twin := (mirrorSend m d).twin, ev := (mirrorSend m d).ev } := by
  unfold mirrorSend
  split
  · rfl
  · unfold raiseJournalFull
    split
    · rfl
    · rw [raise_eq _ _ _ _ (by decide)]

theorem mirrorReel_frame (r : Nat) (d : Dev) :
    mirrorReel r d = { d with net := (mirrorReel r d).net, twin := (mirrorReel r d).twin, ev := (mirrorReel r d).ev } := by
  simp only [mirrorReel, mirrorItem]
  split
  · exact mirrorSend_frame _ d
  · rfl

/-- A changed reel that the twin is told of. -/
theorem changeReel_frame (r : Nat) (f : Reel → Reel) (d : Dev) : changeReel r f d = { modReel r f d with
    net := (changeReel r f d).net, twin := (changeReel r f d).twin, ev := (changeReel r f d).ev } :=
  mirrorReel_frame r (modReel r f d)

theorem changeReel_pcie (r : Nat) (f : Reel → Reel) (d : Dev) : (changeReel r f d).pcie = d.pcie := by
  rw [changeReel_frame]; rfl

theorem changeReel_mem (r : Nat) (f : Reel → Reel) (d : Dev) : (changeReel r f d).mem = d.mem := by
  rw [changeReel_frame]; rfl

theorem changeReel_becomes (r : Nat) (f : Reel → Reel) (d : Dev) : ReelBecomes r (f (getReel r d)) d (changeReel r f d) :=
  (modReel_becomes r f d).of_reels (by rw [changeReel_frame])

end

/-! ## Opening and closing (R204, R205, R420) -/

section
variable {r : Nat} {x : Reel} {d : Dev}

/-- An open passes where none of its five reasons to fail holds. -/
theorem openCheck_eq_zero_iff : openCheck x d = 0 ↔
    (getRun (regTenant x) d).present = true ∧
    (vectorOwner (regVector x) d).map (·.1) = some (tenantFn (regTenant x) d) ∧
    openRanges x = true ∧ x.state = 0 ∧ regClass x ≤ tenantGet (regTenant x) 3 d := by
  have first_fails (p : Prop) [Decidable p] (a b : Nat) : (if p then a + 1 else b) = 0 ↔ ¬ p ∧ b = 0 := by
    split <;> simp [*]
  simp only [openCheck, first_fails, Bool.not_eq_false, Decidable.not_not, Nat.not_lt, and_true, ne_eq]

/-- The reel that an open makes of its registers. -/
def Reel.opened (x : Reel) : Reel := { x with
  tenant := regTenant x, cls := regClass x, ring := regRing x, size := regSize x, compl := regCompl x
  vector := regVector x, intmod := regIntmod x, waitto := regWaitto x, baseSeq := regBaseseq x
  key := (x.key + 1) % 256, head := 0, tail := 0, state := 1, openErr := 0, closing := false
  descs := [], intLast := none, intDue := false, stopSaid := false }

theorem reelOpen_of_passed (h : openCheck (getReel r d) d = 0) : reelOpen r d = changeReel r Reel.opened d := if_pos h

theorem reelOpen_of_failed (h : openCheck (getReel r d) d ≠ 0) :
    reelOpen r d = modReel r (fun x => { x with openErr := openCheck (getReel r d) d }) d := if_neg h

theorem closeIfIdle_of_idle (hclosing : (getReel r d).closing = true) (hidle : (getReel r d).descs = []) :
    closeIfIdle r d = changeReel r (fun x => { x with state := 0, closing := false }) d :=
  if_pos ⟨hclosing, by rw [hidle]; rfl⟩

theorem closeIfIdle_of_busy (h : (getReel r d).closing = false ∨ (getReel r d).descs ≠ []) : closeIfIdle r d = d := by
  refine if_neg fun ⟨hclosing, hidle⟩ => ?_
  rcases h with h | h
  · simp [h] at hclosing
  · exact h (List.isEmpty_iff.1 hidle)

/-- The descriptors that a close leaves: those that have started or completed. -/
def keptDescs (x : Reel) : List Desc := x.descs.filter fun y => y.started || y.status.isSome

/-- A closing reel that has dropped what has not started. -/
def Reel.draining (x : Reel) : Reel := { x with closing := true, descs := keptDescs x }

theorem reelClose_of_closed (h : (getReel r d).state = 0) : reelClose r d = d := if_pos h

theorem reelClose_of_open (h : (getReel r d).state ≠ 0) :
    reelClose r d = closeIfIdle r (dropWatch (.reel r) (modReel r Reel.draining d)) := if_neg h

/-- A close drops what has not started; with nothing left the reel is closed at once. -/
theorem reelClose_becomes (h : (getReel r d).state ≠ 0) :
    ReelBecomes r (if keptDescs (getReel r d) = [] then { getReel r d with descs := [], state := 0, closing := false }
      else { getReel r d with descs := keptDescs (getReel r d), closing := true }) d (reelClose r d) := by
  rw [reelClose_of_open h]
  have drained : ReelBecomes r (getReel r d).draining d (dropWatch (.reel r) (modReel r Reel.draining d)) :=
    (modReel_becomes r Reel.draining d).of_reels rfl
  split
  next hnone =>
    have closes := closeIfIdle_of_idle (by rw [drained.same]; rfl) (by rw [drained.same]; exact hnone)
    rw [closes]
    have closed := drained.trans (changeReel_becomes r (fun x => { x with state := 0, closing := false }) _)
    rwa [drained.same, Reel.draining, hnone] at closed
  next hsome =>
    rw [closeIfIdle_of_busy (.inr (by rw [drained.same]; exact hsome))]
    exact drained

end

/-! ## Accesses that name a reel (R421) -/

section
variable {fn i r : Nat} {f : Nat → Dev → Dev} {d : Dev}

theorem throughSlot_of_reel (hreach : Reaches fn d) (h : accessReel fn i d = some r) : throughSlot fn i f d = f r d := by
  simp only [throughSlot, barAccess_of_reaches hreach, h]

theorem throughSlot_of_no_reel (hreach : Reaches fn d) (h : accessReel fn i d = none) :
    throughSlot fn i f d = bumpQueue 0 3 d := by
  simp only [throughSlot, barAccess_of_reaches hreach, h]

end

/-! ## Doorbells (R206) -/

section
variable {r v : Nat} {q : Bool} {d : Dev}

/-- How far a doorbell moves TAIL, and how far its new TAIL is ahead of HEAD, as the 32-bit pointers count. -/
def tailStep (x : Reel) (v : Nat) : Nat := (v % 2 ^ 32 + 2 ^ 32 - x.tail % 2 ^ 32) % 2 ^ 32
def tailAhead (x : Reel) (v : Nat) : Nat := (v % 2 ^ 32 + 2 ^ 32 - x.head % 2 ^ 32) % 2 ^ 32

/-- A doorbell carries the KEY of a reel that is not closed. -/
def doorbellLive (x : Reel) (v : Nat) : Prop := v / 2 ^ 32 % 256 = x.key ∧ x.state ≠ 0

theorem doorbell_of_dead (h : ¬ doorbellLive (getReel r d) v) : doorbell r v q d = bumpQueue (reelDie r) 3 d :=
  if_pos ((Decidable.not_and_iff_not_or_not.1 h).imp_right Decidable.not_not.1)

theorem doorbell_of_live (h : doorbellLive (getReel r d) v) : doorbell r v q d =
    if 2 ^ 31 ≤ tailStep (getReel r d) v ∨ 2 ^ (getReel r d).size < tailAhead (getReel r d) v then
      raiseT 4 evDoorbellDrop (srcReel r) (getReel r d).tenant (bumpQueue (reelDie r) 3 d)
    else if tailStep (getReel r d) v = 0 then d
    else
      let moved := changeReel r (fun y => { y with tail := y.tail + tailStep (getReel r d) v }) d
      if q then reelPointers r moved else moved := by
  obtain ⟨hkey, hopen⟩ := h
  have low : bitsOf v 0 32 = v % 2 ^ 32 := by simp [bitsOf]
  have key : bitsOf v 32 8 = (getReel r d).key := hkey
  simp only [doorbell, key, hopen, low, ne_eq, not_true_eq_false, or_self, if_false]
  rfl

theorem doorbell_of_drop (h : doorbellLive (getReel r d) v)
    (hdrop : 2 ^ 31 ≤ tailStep (getReel r d) v ∨ 2 ^ (getReel r d).size < tailAhead (getReel r d) v) :
    doorbell r v q d = raiseT 4 evDoorbellDrop (srcReel r) (getReel r d).tenant (bumpQueue (reelDie r) 3 d) := by
  rw [doorbell_of_live h, if_pos hdrop]

theorem doorbell_of_no_step (h : doorbellLive (getReel r d) v) (hstep : tailStep (getReel r d) v = 0)
    (hroom : tailAhead (getReel r d) v ≤ 2 ^ (getReel r d).size) : doorbell r v q d = d := by
  rw [doorbell_of_live h, if_neg (by omega), if_pos hstep]

theorem doorbell_of_step (h : doorbellLive (getReel r d) v) (hpos : 0 < tailStep (getReel r d) v)
    (hforward : tailStep (getReel r d) v < 2 ^ 31) (hroom : tailAhead (getReel r d) v ≤ 2 ^ (getReel r d).size) :
    doorbell r v q d =
      let moved := changeReel r (fun y => { y with tail := y.tail + tailStep (getReel r d) v }) d
      if q then reelPointers r moved else moved := by
  rw [doorbell_of_live h, if_neg (by omega), if_neg (by omega)]

end

/-! ## Resume (R218) -/

section
variable {r : Nat} {d : Dev}

theorem signalAll_of_no_descs (h : (getReel r d).descs = []) : signalAll r d = d := by simp [signalAll, h]

theorem reportReel_of_no_descs (h : (getReel r d).descs = []) : reportReel r d = d := by simp [reportReel, h, doneFront]

theorem descriptorComplete_of_no_descs (h : (getReel r d).descs = []) : descriptorComplete r d = d := by
  rw [descriptorComplete, signalAll_of_no_descs h, reportReel_of_no_descs h]

theorem reelResume_of_not_stopped (h : (getReel r d).state ≠ 2) : reelResume r d = d := if_neg h

theorem reelResume_of_no_descs (h : (getReel r d).state = 2) (hnone : (getReel r d).descs = []) :
    reelResume r d = changeReel r (fun x => { x with state := 1, stopSaid := false }) d := by
  rw [reelResume, if_pos h, descriptorComplete_of_no_descs]
  rw [(changeReel_becomes r _ d).same]
  exact hnone

end

/-! ## The fetch of a slot (R208, R222 to R224) -/

section
variable {r spoil : Nat} {d e : Dev} {bs : Bytes}

/-- Whether a descriptor has neither started nor completed. -/
def Desc.waiting (y : Desc) : Bool := !y.started && y.status.isNone

/-- An open reel fetches its next slot: fewer than four descriptors wait in it, none has failed and none is a TEARDOWN. -/
def fetchAble (x : Reel) : Prop :=
  x.state = 1 ∧ x.closing = false ∧ x.head < x.tail ∧ (x.descs.filter Desc.waiting).length < 4 ∧
    ∀ y ∈ x.descs, (y.status = none ∨ y.status = some 0) ∧ rdType y.bytes ≠ 6

/-- Whether a descriptor of a reel keeps the ones behind it from being fetched. -/
def Desc.blocks (y : Desc) : Bool := (y.status.getD 0) != 0 || (rdType y.bytes == 6 && (y.status.getD 0) == 0)

theorem Desc.blocks_eq_false_iff (y : Desc) :
    y.blocks = false ↔ (y.status = none ∨ y.status = some 0) ∧ rdType y.bytes ≠ 6 := by
  cases hs : y.status with
  | none => simp [Desc.blocks, hs]
  | some st =>
    by_cases h0 : st = 0
    · simp [Desc.blocks, hs, h0]
    · simp [Desc.blocks, hs, h0]

theorem fetchAble_iff (x : Reel) : fetchAble x ↔
    x.state = 1 ∧ x.closing = false ∧ x.head < x.tail ∧ (x.descs.filter Desc.waiting).length < 4 ∧
      x.descs.any Desc.blocks = false := by
  simp only [fetchAble, List.any_eq_false, Bool.not_eq_true, Desc.blocks_eq_false_iff]

/-- The read of the slot at HEAD. -/
def slotFetch (r : Nat) (d : Dev) : Met × Bytes × Dev :=
  let x := getReel r d
  vaFetch (reelTlb r) x.tenant 0 (x.ring + 64 * (x.head % 2 ^ x.size)) 64 d

theorem descriptorFetch_of_unable (h : ¬ fetchAble (getReel r d)) (h4 : spoil = 4 → (getReel r d).state ≠ 1)
    (h5 : spoil = 5 → (getReel r d).state ≠ 1) : descriptorFetch r spoil d = d := by
  rw [fetchAble_iff] at h
  exact (if_neg fun hc => h4 hc.1 hc.2).trans ((if_neg fun hc => h5 hc.1 hc.2).trans (if_neg h))

theorem descriptorFetch_of_not_open (h : (getReel r d).state ≠ 1) : descriptorFetch r spoil d = d :=
  descriptorFetch_of_unable (fun hable => h hable.1) (fun _ => h) (fun _ => h)

/-- R222: the copies of the reel's own pointers, or of those of its fetch buffer, differ. -/
theorem descriptorFetch_of_own_pointers (h : (getReel r d).state = 1) : descriptorFetch r 4 d = reelPointers r d :=
  if_pos ⟨rfl, h⟩

theorem descriptorFetch_of_buffer_pointers (h : (getReel r d).state = 1) : descriptorFetch r 5 d = fetchPointers r d := by
  simp [descriptorFetch, h]

/-- R223, R224: a slot that is read joins the reel as it was read, unless it goes bad twice or past its commit. -/
theorem descriptorFetch_of_read (hable : fetchAble (getReel r d)) (h4 : spoil ≠ 4) (h5 : spoil ≠ 5)
    (hread : slotFetch r d = (.ok, bs, e)) : descriptorFetch r spoil d =
      if spoil = 0 then joinDesc r bs none 0 e
      else if spoil = 1 then joinDesc r bs none 0 (bumpQueue (reelDie r) 1 e)
      else joinDesc r (fillBytes 64 0) (some 0x09) (0x2000 + evQueueUe)
        (faultRun 2 evQueueUe (srcReel r) (getReel r d).tenant (bumpQueue (reelDie r) 2
          (if spoil = 2 then bumpQueue (reelDie r) 1 (bumpQueue (reelDie r) 1 e) else e))) := by
  have able := (fetchAble_iff _).1 hable
  refine ((if_neg fun h => h4 h.1).trans (if_neg fun h => h5 h.1)).trans ((if_pos able).trans ?_)
  dsimp only
  rw [show vaFetch _ _ _ _ _ _ = _ from hread]

theorem descriptorFetch_of_uncorrectable (hable : fetchAble (getReel r d)) (h4 : spoil ≠ 4) (h5 : spoil ≠ 5)
    (hread : slotFetch r d = (.ue, bs, e)) :
    descriptorFetch r spoil d = joinDesc r (fillBytes 64 0) (some 0x09) (0x2000 + evHbmUe) e := by
  have able := (fetchAble_iff _).1 hable
  refine ((if_neg fun h => h4 h.1).trans (if_neg fun h => h5 h.1)).trans ((if_pos able).trans ?_)
  dsimp only
  rw [show vaFetch _ _ _ _ _ _ = _ from hread]
  rfl

/-- The item that a fetch adds to a reel. -/
def Reel.joined (x : Reel) (b : Bytes) (status : Option Nat) (code now : Nat) : Reel := { x with
  head := x.head + 1
  descs := x.descs ++
    [{ seq := x.baseSeq + x.head, bytes := b, atHead := now, started := false, status := status, code := code }] }

theorem joinDesc_becomes (r : Nat) (b : Bytes) (status : Option Nat) (code : Nat) (d : Dev) :
    ReelBecomes r ((getReel r d).joined b status code d.now) d (joinDesc r b status code d) :=
  changeReel_becomes r (fun x => x.joined b status code d.now) d

/-- A slot that is read and stays good, at once or after one rewind, joins the reel as it was read. -/
theorem descriptorFetch_becomes_of_read (hable : fetchAble (getReel r d)) (hspoil : spoil ≤ 1)
    (hread : slotFetch r d = (.ok, bs, e)) :
    ReelBecomes r ((getReel r e).joined bs none 0 e.now) e (descriptorFetch r spoil d) := by
  rw [descriptorFetch_of_read hable (by omega) (by omega) hread]
  split
  next => exact joinDesc_becomes r bs none 0 e
  next =>
    rw [if_pos (by omega)]
    exact joinDesc_becomes r bs none 0 (bumpQueue (reelDie r) 1 e)

/-- R222: the copies of a fetch buffer's pointers differ while it holds nothing that waits. -/
theorem fetchPointers_of_none_waiting (h : ∀ y ∈ (getReel r d).descs, y.started = true ∨ y.status ≠ none) :
    fetchPointers r d = raiseT 4 evQueuePtr (srcReel r) (getReel r d).tenant (bumpQueue (reelDie r) 0 d) := by
  have none_waits : (getReel r d).descs.filter Desc.waiting = [] := by
    refine List.filter_eq_nil_iff.2 fun y hy => ?_
    rcases h y hy with h | h <;> simp [Desc.waiting, h]
  exact if_pos (List.isEmpty_iff.2 none_waits)

/-- R222: a reel's own pointer copies differ while its first descriptor waits. -/
theorem reelPointers_of_first_waiting {y : Desc} {rest : List Desc} (h : (getReel r d).descs = y :: rest)
    (hy : y.waiting = true) : reelPointers r d = setDescStatus r y.seq 0x0A (0x4000 + evQueuePtr)
      (raiseT 4 evQueuePtr (srcReel r) (getReel r d).tenant (bumpQueue (reelDie r) 0 d)) := by
  have first : (getReel r d).descs.find? Desc.waiting = some y := by rw [h, List.find?_cons_of_pos hy]
  unfold Desc.waiting at first
  simp only [reelPointers, first]

end

end Sys2Proof.Machine

namespace Sys2Proof.Proofs
open Sys2Proof.Machine

/-- Settles O44: an open and a close by what they make of their reel, an access by the reel it names, a doorbell by its KEY
and its step, a fetch by what the read of its slot meets. -/
theorem reelAccesses : Obligations.ReelAccesses := by
  unfold Obligations.ReelAccesses
  rintro s d rfl
  refine ⟨fun r => openCheck_eq_zero_iff, fun r hr hreach => ?open_close, fun r hr => ?closed, fun fn i v hok hreach => ?slots,
    fun r hr => ?fetch⟩
  case open_close =>
    have unit : reelOk r = true := decide_eq_true hr
    refine ⟨fun hpass => ?_, fun hfail => ?_, fun hclosed => ?_, fun hopen => ?_⟩
    · have opened := changeReel_becomes r Reel.opened s.dev
      exact completes_barAccess hreach unit rfl (by
        rw [reelOpen_of_passed hpass]; exact ⟨opened.settle.others, opened.settle.same⟩)
    · exact answers_barAccess hreach unit rfl (reelOpen_of_failed hfail)
    · exact answers_barAccess hreach unit rfl (reelClose_of_closed hclosed)
    · have closing := (reelClose_becomes hopen).settle
      exact completes_barAccess hreach unit rfl ⟨closing.others, closing.same⟩
  case closed =>
    have unit : reelOk r = true := decide_eq_true hr
    refine ⟨fun ⟨hclosing, hidle⟩ => ?_, fun hbusy => answers_onDev unit rfl (closeIfIdle_of_busy hbusy)⟩
    have closed := changeReel_becomes r (fun x => { x with state := 0, closing := false }) s.dev
    exact completes_onDev unit rfl (by
      rw [closeIfIdle_of_idle hclosing hidle]; exact ⟨closed.settle.others, closed.settle.same⟩)
  case slots =>
    refine ⟨fun hnone => ⟨fun q => ?_, ?_⟩, fun r hreel => ?reel⟩
    · exact answers_onDev hok rfl (throughSlot_of_no_reel hreach hnone)
    · exact answers_onDev hok rfl (throughSlot_of_no_reel hreach hnone)
    case reel =>
      have rings {q : Bool} {d' : Dev} (h : doorbell r v q s.dev = d') : Answers (.doorbell fn i v q) s d' :=
        answers_onDev hok rfl ((throughSlot_of_reel hreach hreel).trans h)
      refine ⟨fun hdead q => rings (doorbell_of_dead hdead), fun hlive hdrop q => rings (doorbell_of_drop hlive hdrop),
        fun hlive hstep hroom q => rings (doorbell_of_no_step hlive hstep hroom),
        fun hlive hpos hforward hroom => ⟨?_, rings (doorbell_of_step hlive hpos hforward hroom)⟩,
        fun hstate => ?_, fun hstate hnone => ?_⟩
      · have moved := changeReel_becomes r (fun y => { y with tail := y.tail + tailStep (getReel r s.dev) v }) s.dev
        exact completes_onDev hok rfl (by
          rw [throughSlot_of_reel hreach hreel, doorbell_of_step hlive hpos hforward hroom]
          exact ⟨moved.settle.others, moved.settle.same⟩)
      · exact answers_onDev hok rfl ((throughSlot_of_reel hreach hreel).trans (reelResume_of_not_stopped hstate))
      · have resumed := changeReel_becomes r (fun x => { x with state := 1, stopSaid := false }) s.dev
        exact completes_onDev hok rfl (by
          rw [throughSlot_of_reel hreach hreel, reelResume_of_no_descs hstate hnone]
          exact ⟨resumed.settle.others, resumed.settle.same⟩)
  case fetch =>
    have unit : reelOk r = true := decide_eq_true hr
    have fetches {spoil : Nat} {d' : Dev} (h : descriptorFetch r spoil s.dev = d') :
        Answers (.descriptorFetch r spoil) s d' := answers_onDev unit rfl h
    refine ⟨fun hstate spoil => fetches (descriptorFetch_of_not_open hstate),
      fun hunable spoil h4 h5 => fetches (descriptorFetch_of_unable hunable (absurd · h4) (absurd · h5)),
      fun hstate hnone => fetches ?_, fun y rest hstate hfirst hidle hopen => fetches ?_,
      fun hable bs e hread => ⟨fun spoil hspoil => ?_, fetches ?_⟩, fun hable bs e hread => ?_⟩
    · exact (descriptorFetch_of_buffer_pointers hstate).trans (fetchPointers_of_none_waiting hnone)
    · exact (descriptorFetch_of_own_pointers hstate).trans
        (reelPointers_of_first_waiting hfirst (by simp [Desc.waiting, hidle, hopen]))
    · have joined := (descriptorFetch_becomes_of_read hable hspoil hread).settle
      exact completes_onDev unit rfl ⟨joined.others, joined.same⟩
    · rw [descriptorFetch_of_read hable (by decide) (by decide) hread]; rfl
    · have joined := (joinDesc_becomes r (fillBytes 64 0) (some 0x09) (0x2000 + evHbmUe) e).settle.same
      refine completes_onDev unit rfl ?_
      rw [descriptorFetch_of_uncorrectable hable (by decide) (by decide) hread, joined]
      simp [Reel.joined]

end Sys2Proof.Proofs
end

section
/-!
PROOFS. Reel descriptors (R209 to R219): the checks and the wait of the one at the head of a reel, its start by its type,
its signal, its report and the interrupts.
-/
namespace Sys2Proof.Machine

/-! ## The head of a reel (R209 to R211) -/

/-- Command `c` is the row of `ty` for reel `r`. -/
def IsReelRow (r ty : Nat) (c : Instr) : Prop :=
  (ty, c) = (0, .nop r) ∨ (ty, c) = (1, .word r) ∨ (ty, c) = (2, .transfer r) ∨ (ty, c) = (3, .collect r) ∨
    (ty, c) = (4, .load r) ∨ (ty, c) = (5, .arm r) ∨ (ty, c) = (6, .teardown r)

theorem answers_reelRow {r ty : Nat} {c : Instr} {s : State} {d' : Dev} (hr : r < 1152) (hrow : IsReelRow r ty c)
    (h : reelRow ty r s.dev = d') : Answers c s d' := by
  have unit : reelOk r = true := decide_eq_true hr
  simp only [IsReelRow, Prod.mk.injEq] at hrow
  rcases hrow with ⟨rfl, rfl⟩ | ⟨rfl, rfl⟩ | ⟨rfl, rfl⟩ | ⟨rfl, rfl⟩ | ⟨rfl, rfl⟩ | ⟨rfl, rfl⟩ | ⟨rfl, rfl⟩ <;>
    exact answers_onDev unit rfl h

section
variable {ty r : Nat} {d e : Dev} {y : Desc}

theorem reelRow_of_no_head (h : headDesc (getReel r d) = none) : reelRow ty r d = d := by simp only [reelRow, h]

variable (hy : headDesc (getReel r d) = some y)
include hy

theorem reelRow_of_other (h : d.fatal = true ∨ (rdType y.bytes ≠ ty ∧ rdType y.bytes ≤ 6)) : reelRow ty r d = d := by
  have passed_over : ¬ ((rdType y.bytes = ty ∨ 6 < rdType y.bytes) ∧ d.fatal = false) := by
    rintro ⟨hmeets, hsound⟩
    rcases h with h | ⟨hother, hdefined⟩
    · exact Bool.false_ne_true (hsound.symm.trans h)
    · omega
  simp only [reelRow, hy, if_neg passed_over]

theorem reelRow_of_held (hgood : staticCheck r y.bytes d = 0) (hheld : reelGate r y.bytes d = .held) :
    reelRow ty r d = d := by
  simp only [reelRow, hy, hgood, hheld, ne_eq, not_true_eq_false, if_false, ite_self]

variable (hsound : d.fatal = false)
include hsound

theorem reelRow_of_bad (hmeets : rdType y.bytes = ty ∨ 6 < rdType y.bytes) (hbad : staticCheck r y.bytes d ≠ 0) :
    reelRow ty r d = failDesc r y.seq (staticCheck r y.bytes d) 0 d := by
  simp only [reelRow, hy, if_pos (And.intro hmeets hsound), if_pos hbad]

variable (hty : rdType y.bytes = ty) (hgood : staticCheck r y.bytes d = 0)
include hty hgood

theorem reelRow_of_aborted (hgate : reelGate r y.bytes d = .aborted) (hgranted : granted (reelOwner r) d = some r) :
    reelRow ty r d = failDesc r y.seq 0x07 0 (noteGrant r d) := by
  simp only [reelRow, hy, hty, hsound, hgood, hgate, if_pos hgranted, true_or, and_self, if_true, ne_eq, not_true_eq_false,
    if_false]

variable (hgate : reelGate r y.bytes d = .go)
include hgate

theorem reelRow_of_waiting (hwait : testWait r y.bytes d = (false, e)) : reelRow ty r d = e := by
  simp only [reelRow, hy, hty, hsound, hgood, hgate, hwait, true_or, and_self, if_true, ne_eq, not_true_eq_false, if_false,
    Bool.false_eq_true, false_and]

/-- A wait that is met, a free start and the owner's grant: the checks of the start decide. -/
theorem reelRow_of_granted (hwait : testWait r y.bytes d = (true, e)) (hfree : startFree r (getReel r d) y.bytes e = true)
    (hgranted : granted (reelOwner r) e = some r) : reelRow ty r d =
      if startCheck r y.bytes (noteGrant r e) ≠ 0 then
        failDesc r y.seq (startCheck r y.bytes (noteGrant r e)) 0 (noteGrant r e)
      else startBody r y (noteGrant r e) := by
  simp only [reelRow, hy, hty, hsound, hgood, hgate, hwait, hfree, hgranted, true_or, and_self, if_true, ne_eq,
    not_true_eq_false, if_false]

end

/-! ## The start of each type (R211 to R216) -/

section
variable {r : Nat} {y : Desc} {d f : Dev}

theorem startBody_of_nop (h : rdType y.bytes = 0) : startBody r y d = startDone r y.seq 0 0 d := by
  simp only [startBody, h]

theorem startBody_of_word (h : rdType y.bytes = 1) : startBody r y d = startWord r y d := by simp only [startBody, h]

theorem startBody_of_transfer (h : rdType y.bytes = 2) : startBody r y d = startTransfer r y d := by
  simp only [startBody, h]

theorem startBody_of_collect (h : rdType y.bytes = 3) : startBody r y d = startCollect r y d := by
  simp only [startBody, h]

theorem startBody_of_load (h : rdType y.bytes = 4) {st code : Nat}
    (hends : loadRun (getReel r d).tenant (fieldAt y.bytes 0x10 8) (srcReel r) d = (.ends st code, f)) :
    startBody r y d = startDone r y.seq st code f := by
  simp only [startBody, h, hends, startControl]

theorem startBody_of_arm (h : rdType y.bytes = 5) {st code : Nat}
    (hends : armRun (getReel r d).tenant (fieldAt y.bytes 0x10 8) (srcReel r) d = (.ends st code, f)) :
    startBody r y d = startDone r y.seq st code f := by
  simp only [startBody, h, hends, startControl]

theorem startBody_of_teardown (h : rdType y.bytes = 6) :
    startBody r y d = requestTeardown (getReel r d).tenant (markStarted r y.seq d) := by
  simp only [startBody, h]

/-- R212: a word that a tile reel carries whole, with a header that is not good. -/
theorem startWord_of_bad_header (hr : r < 1024) (hwhole : rdFlag y.bytes 4 = false)
    (hbad : headerGood (rdWord y.bytes) = false) : startWord r y d = startDone r y.seq 0x08 (0x1000 + evWordHeader)
      (faultRun 1 evWordHeader (srcReel r) (getReel r d).tenant d) := by
  have tile : niReel r = false := decide_eq_false (by omega)
  simp [startWord, hwhole, tile, hbad]

theorem startWord_of_good_header (hr : r < 1024) (hwhole : rdFlag y.bytes 4 = false)
    (hgood : headerGood (rdWord y.bytes) = true) (htile : wEng (rdWord y.bytes) ≠ 6) :
    startWord r y d = enqueue (r / 8) (rdWord y.bytes) 0 (getReel r d).tenant 0 (some (r, y.seq)) (fieldAt y.bytes 0x28 8)
      (markStarted r y.seq d) := by
  have tile : niReel r = false := decide_eq_false (by omega)
  simp [startWord, hwhole, tile, hgood, htile]

theorem rdFlag_of_rdInd_zero {b : Bytes} (h : rdInd b = 0) :
    rdFlag b 4 = false ∧ rdFlag b 5 = false ∧ rdFlag b 6 = false := by
  simp only [rdInd, bitsOf] at h
  simp only [rdFlag, bitOf, bitsOf, beq_eq_false_iff_ne]
  omega

theorem leNat_lt (bs : Bytes) : leNat bs < 2 ^ (8 * bs.length) := by
  induction bs with
  | nil => exact Nat.one_pos
  | cons b bs ih =>
    have hb := b.isLt
    rw [List.length_cons, Nat.mul_succ, Nat.pow_add, leNat]
    omega

theorem fieldAt_lt (b : Bytes) (off n : Nat) : fieldAt b off n < 2 ^ (8 * n) :=
  Nat.lt_of_lt_of_le (leNat_lt _) (Nat.pow_le_pow_right (by decide) (Nat.mul_le_mul_left 8 (List.length_take_le n _)))

/-- The chain of one DMA descriptor that a TRANSFER is executed as. -/
def transferChain (r t seq : Nat) : Chain :=
  { tile := reelOwner r, tenant := t, ctx := 0, base := 0, count := 1, nextIndex := 0, flight := [],
    reel := some (r, seq), number := seq, failed := 0 }

/-- R213: a TRANSFER without indirect values is executed as the DMA descriptor of its own fields. -/
theorem startTransfer_of_direct (hind : rdInd y.bytes = 0) (hfields : transferFields y.bytes = true) :
    startTransfer r y d =
      let t := (getReel r d).tenant
      let b := y.bytes
      let m := markStarted r y.seq (dropReads (tenantFn t d) d)
      startDesc (transferChain r t y.seq) 0
        (transferDesc b (fieldAt b 0x18 6) (fieldAt b 0x1E 6) (fieldAt b 0x24 4) (fieldAt b 0x28 2) (fieldAt b 0x2A 2)
          (signedOf 48 (fieldAt b 0x2C 6))) { m with chains := m.chains ++ [transferChain r t y.seq] } := by
  obtain ⟨flag4, flag5, flag6⟩ := rdFlag_of_rdInd_zero hind
  have addresses : ¬ (2 ^ 48 ≤ fieldAt y.bytes 0x18 6 ∨ 2 ^ 48 ≤ fieldAt y.bytes 0x1E 6) := by
    have src := fieldAt_lt y.bytes 0x18 6
    have dst := fieldAt_lt y.bytes 0x1E 6
    omega
  simp only [startTransfer, hfields, flag4, flag5, flag6, indRead, if_neg addresses, Bool.true_eq_false, Bool.false_eq_true,
    if_false, if_true]
  rfl

end

/-! ## The wait at the head (R211) -/

section
variable {r : Nat} {d : Dev} {y : Desc} (hy : headDesc (getReel r d) = some y)
include hy

theorem descriptorWaitTimeout_of_overdue (hwaits : rdFlag y.bytes 0 = true) (hlimit : (getReel r d).waitto ≠ 0)
    (htime : y.atHead + (getReel r d).waitto * tUs ≤ d.now) (hgate : reelGate r y.bytes d = .go)
    (hnamed : waitNamed r y.bytes d = true) (hshort : waitMetNow r y.bytes d = false) :
    descriptorWaitTimeout r d = failDesc r y.seq 0x06 (0x4000 + evReelTimeout)
      (raiseT 4 evReelTimeout (srcReel r) (getReel r d).tenant d) := by
  simp only [descriptorWaitTimeout, hy]
  exact if_pos ⟨hwaits, hlimit, htime, hgate, hnamed, hshort⟩

theorem descriptorWaitTimeout_of_not_due (h : rdFlag y.bytes 0 = false ∨ (getReel r d).waitto = 0 ∨
      d.now < y.atHead + (getReel r d).waitto * tUs ∨ reelGate r y.bytes d ≠ .go ∨ waitMetNow r y.bytes d = true) :
    descriptorWaitTimeout r d = d := by
  simp only [descriptorWaitTimeout, hy]
  refine if_neg fun ⟨hwaits, hlimit, htime, hgate, _, hshort⟩ => ?_
  rcases h with h | h | h | h | h
  · simp [h] at hwaits
  · exact hlimit h
  · exact Nat.not_le.2 h htime
  · exact h hgate
  · simp [h] at hshort

end

/-! ## The signal of a descriptor (R210) -/

section
variable {r : Nat} {y : Desc} {d e : Dev}

/-- A descriptor whose signal has been dealt with. -/
def Desc.noted (y : Desc) (status code : Nat) : Desc := { y with signalled := true, status := some status, code := code }

/-- The descriptor of sequence number `seq` with its signal dealt with. -/
def signalNoted (r seq status code : Nat) (d : Dev) : Dev :=
  modReel r (fun x => { x with descs := x.descs.map fun z => if z.seq = seq then z.noted status code else z }) d

theorem signalDesc_of_silent (h : rdFlag y.bytes 1 = false) : signalDesc r y d = signalNoted r y.seq 0 0 d := by
  simp only [signalDesc, h, Bool.false_eq_true, if_false]
  rfl

variable (hsignal : rdFlag y.bytes 1 = true)
include hsignal

theorem signalDesc_of_pool (hpool : ctrPool (rdSignal y.bytes) = true)
    (howned : ownsPool (getReel r d).tenant (ctrIndex (rdSignal y.bytes)) d = true)
    (hadd : poolAdd (ctrIndex (rdSignal y.bytes)) (rdSamt y.bytes + 1) d = (.applied, e)) :
    signalDesc r y d = signalNoted r y.seq 0 0 e := by
  simp only [signalDesc, hsignal, hpool, howned, hadd, Bool.not_true, Bool.and_false, Bool.false_eq_true, if_true, if_false]
  rfl

theorem signalDesc_of_local (hlocal : ctrPool (rdSignal y.bytes) = false)
    (hadd : localAdd (r / 8) (ctrIndex (rdSignal y.bytes)) (rdSamt y.bytes + 1) d = (.applied, e)) :
    signalDesc r y d = signalNoted r y.seq 0 0 e := by
  simp only [signalDesc, hsignal, hlocal, hadd, Bool.false_and, Bool.false_eq_true, if_true, if_false]
  rfl

theorem signalDesc_of_stale (hpool : ctrPool (rdSignal y.bytes) = true)
    (hlost : ownsPool (getReel r d).tenant (ctrIndex (rdSignal y.bytes)) d = false) :
    signalDesc r y d = signalNoted r y.seq 0x04 (0x4000 + evCounterStale)
      (staleAdd (ctrIndex (rdSignal y.bytes)) (some (getReel r d).tenant) d) := by
  simp only [signalDesc, hsignal, hpool, hlost, Bool.not_false, Bool.and_self, if_true]
  rfl

end

/-! ## Words to the host and interrupts (R217, R219) -/

section
variable {r : Nat} {d : Dev}

theorem hostWrite_reels (fn addr : Nat) (bs : Bytes) (d : Dev) : (hostWrite fn addr bs d).reels = d.reels := by
  unfold hostWrite
  split <;> rfl

theorem raiseT_reels (cls num src t : Nat) (d : Dev) : (raiseT cls num src t d).reels = d.reels := by
  rw [raiseT, raiseEvent_frame]

theorem sendVector_reels (v : Nat) (d : Dev) : (sendVector v d).reels = d.reels := by
  unfold sendVector
  split
  · rfl
  · split
    · rfl
    · split
      · rfl
      · exact hostWrite_reels _ _ _ d

/-- Whether an interrupt of a reel is sent at once: the first one, or one whose interval is over. -/
def Reel.sendsAt (x : Reel) (now : Nat) : Bool :=
  match x.intLast with
  | none => true
  | some l => decide (x.intmod = 0) || decide (l + x.intmod * tUs ≤ now)

theorem reelInterrupt_eq (r : Nat) (d : Dev) : reelInterrupt r d =
    if (getReel r d).sendsAt d.now then
      sendVector (getReel r d).vector (modReel r (fun x => { x with intLast := some d.now }) d)
    else modReel r (fun x => { x with intDue := true }) d := rfl

/-- An interrupt, sent or put off, changes what its reel keeps of the interval. -/
theorem reelInterrupt_becomes (r : Nat) (d : Dev) :
    ∃ last due, ReelBecomes r { getReel r d with intLast := last, intDue := due } d (reelInterrupt r d) := by
  rw [reelInterrupt_eq]
  split
  · exact ⟨some d.now, (getReel r d).intDue,
      (modReel_becomes r (fun x => { x with intLast := some d.now }) d).of_reels (sendVector_reels _ _)⟩
  · exact ⟨(getReel r d).intLast, true, modReel_becomes r (fun x => { x with intDue := true }) d⟩

theorem completionWord_host {n : Nat} (hmaster : busMaster (tenantFn (getReel r d).tenant d) d = true) :
    (completionWord r n false d).mem.host =
      Mem.writeN d.mem.host (hostKey (tenantFn (getReel r d).tenant d) (getReel r d).compl) (leBytes 8 (n % 2 ^ 63)) := by
  simp only [completionWord, hostWrite, hmaster, if_true, Bool.false_eq_true, if_false, Nat.add_zero]

theorem interruptModerationExpiry_of_none (h : (getReel r d).intLast = none) : interruptModerationExpiry r d = d := by
  simp only [interruptModerationExpiry, h]

theorem interruptModerationExpiry_of_not_due {l : Nat} (hl : (getReel r d).intLast = some l)
    (h : (getReel r d).intDue = false ∨ d.now < l + (getReel r d).intmod * tUs) : interruptModerationExpiry r d = d := by
  simp only [interruptModerationExpiry, hl]
  refine if_neg fun ⟨hdue, htime⟩ => ?_
  rcases h with h | h
  · simp [h] at hdue
  · exact Nat.not_le.2 h htime

theorem interruptModerationExpiry_of_due {l : Nat} (hl : (getReel r d).intLast = some l)
    (hdue : (getReel r d).intDue = true) (htime : l + (getReel r d).intmod * tUs ≤ d.now) :
    interruptModerationExpiry r d = sendVector (getReel r d).vector
      (modReel r (fun x => { x with intDue := false, intLast := some d.now }) d) := by
  simp only [interruptModerationExpiry, hl]
  exact if_pos ⟨hdue, htime⟩

end

/-! ## The report of a descriptor (R217, R218) -/

/-- A reel that the descriptor of sequence number `seq` has stopped. -/
def Reel.stoppedAt (x : Reel) (seq : Nat) : Reel := { x with descs := [], lastSeq := seq, state := 2, stopSaid := true }

section
variable {r st : Nat} {y : Desc} {d : Dev} (hdescs : (getReel r d).descs = [y])
include hdescs

theorem signalAll_of_one_done (hdone : y.status = some 0) (hnew : y.signalled = false) :
    signalAll r d = signalDesc r y d := by
  simp [signalAll, hdescs, hdone, hnew]

theorem signalAll_of_one_failed (hfailed : y.status = some st) (hst : st ≠ 0) : signalAll r d = d := by
  simp [signalAll, hdescs, hfailed, hst]

theorem signalNoted_becomes_of_one (status code : Nat) :
    ReelBecomes r { getReel r d with descs := [y.noted status code] } d (signalNoted r y.seq status code d) := by
  have noted := modReel_becomes r
    (fun x => { x with descs := x.descs.map fun z => if z.seq = y.seq then z.noted status code else z }) d
  simp only [hdescs, List.map_cons, List.map_nil, if_true] at noted
  exact noted

theorem reported_becomes_of_one_done : ReelBecomes r { getReel r d with descs := [], lastSeq := y.seq } d
    (changeReel r (fun x => { x with descs := [], lastSeq := y.seq }) (signalNoted r y.seq 0 0 d)) := by
  have noted := signalNoted_becomes_of_one hdescs 0 0
  have reported := noted.trans (changeReel_becomes r (fun x => { x with descs := [], lastSeq := y.seq }) _)
  rwa [noted.same] at reported

variable (hopen : (getReel r d).state ≠ 0) (hnew : (getReel r d).stopSaid = false)
include hopen hnew

theorem reportReel_of_one_done (hdone : y.status = some 0) (hsignalled : y.signalled = true)
    (hsilent : rdFlag y.bytes 3 = false) : reportReel r d =
      completionWord r y.seq false (changeReel r (fun x => { x with descs := [], lastSeq := y.seq }) d) := by
  simp [reportReel, hopen, hnew, hdescs, doneFront, hdone, hsignalled, hsilent]

theorem reportReel_of_one_failed (hfailed : y.status = some st) (hst : st ≠ 0) : reportReel r d =
    let named := reelDescStatus st y.code
    let raised := if named then raiseT 1 evReelDesc (srcReel r) (getReel r d).tenant d else d
    reelInterrupt r (completionWord r y.seq true (statusWord r y st (if named then 0x1000 + evReelDesc else y.code)
      (changeReel r (·.stoppedAt y.seq) raised))) := by
  obtain ⟨n, rfl⟩ := Nat.exists_eq_succ_of_ne_zero hst
  simp only [reportReel, hopen, hnew, hdescs, doneFront, hfailed, Option.some.injEq, hst, false_and, if_false, or_self,
    Bool.false_eq_true, List.length_nil, List.drop_zero]
  rfl

/-- A descriptor that failed is taken off the reel and stops it. -/
theorem reportReel_becomes_of_one_failed (hfailed : y.status = some st) (hst : st ≠ 0) :
    ∃ last due, ReelBecomes r { (getReel r d).stoppedAt y.seq with intLast := last, intDue := due } d (reportReel r d) := by
  rw [reportReel_of_one_failed hdescs hopen hnew hfailed hst]
  have raised_reels (named : Bool) :
      (if named then raiseT 1 evReelDesc (srcReel r) (getReel r d).tenant d else d).reels = d.reels := by
    split
    · exact raiseT_reels 1 _ _ _ d
    · rfl
  have stopped (code : Nat) : ReelBecomes r ((getReel r d).stoppedAt y.seq) d
      (completionWord r y.seq true (statusWord r y st code (changeReel r (·.stoppedAt y.seq)
        (if reelDescStatus st y.code then raiseT 1 evReelDesc (srcReel r) (getReel r d).tenant d else d)))) := by
    have changed := (changeReel_becomes r (·.stoppedAt y.seq) _).from_reels (raised_reels (reelDescStatus st y.code))
    rw [getReel_congr (raised_reels _)] at changed
    exact (changed.of_reels (hostWrite_reels _ _ _ _)).of_reels (hostWrite_reels _ _ _ _)
  obtain ⟨last, due, interrupted⟩ := reelInterrupt_becomes r _
  rw [(stopped _).same] at interrupted
  exact ⟨last, due, (stopped _).trans interrupted⟩

theorem descriptorComplete_becomes_of_one_failed (hfailed : y.status = some st) (hst : st ≠ 0) :
    ∃ last due, ReelBecomes r { (getReel r d).stoppedAt y.seq with intLast := last, intDue := due } d
      (descriptorComplete r d) := by
  rw [descriptorComplete, signalAll_of_one_failed hdescs hfailed hst]
  exact reportReel_becomes_of_one_failed hdescs hopen hnew hfailed hst

variable (hdone : y.status = some 0) (hfresh : y.signalled = false) (hsilent : rdFlag y.bytes 1 = false)
  (hquiet : rdFlag y.bytes 3 = false)
include hdone hfresh hsilent hquiet

/-- R217: a descriptor that has done its work and asks for no signal and no interrupt is taken off the reel, and its
sequence number is the completion word. -/
theorem descriptorComplete_of_one_done : descriptorComplete r d = completionWord r y.seq false
    (changeReel r (fun x => { x with descs := [], lastSeq := y.seq }) (signalNoted r y.seq 0 0 d)) := by
  have noted := (signalNoted_becomes_of_one hdescs 0 0).same
  rw [descriptorComplete, signalAll_of_one_done hdescs hdone hfresh, signalDesc_of_silent hsilent]
  refine reportReel_of_one_done (y := y.noted 0 0) ?_ ?_ ?_ rfl rfl hquiet <;> rw [noted]
  · exact hopen
  · exact hnew

theorem descriptorComplete_becomes_of_one_done :
    ReelBecomes r { getReel r d with descs := [], lastSeq := y.seq } d (descriptorComplete r d) := by
  rw [descriptorComplete_of_one_done hdescs hopen hnew hdone hfresh hsilent hquiet]
  exact (reported_becomes_of_one_done hdescs).of_reels (hostWrite_reels _ _ _ _)

theorem descriptorComplete_host_of_one_done (hmaster : busMaster (tenantFn (getReel r d).tenant d) d = true) :
    (descriptorComplete r d).mem.host =
      Mem.writeN d.mem.host (hostKey (tenantFn (getReel r d).tenant d) (getReel r d).compl) (leBytes 8 (y.seq % 2 ^ 63)) := by
  have reported := (reported_becomes_of_one_done hdescs).same
  have pcie := changeReel_pcie r (fun x => { x with descs := [], lastSeq := y.seq }) (signalNoted r y.seq 0 0 d)
  have fn (t : Nat) : tenantFn t (changeReel r (fun x => { x with descs := [], lastSeq := y.seq })
      (signalNoted r y.seq 0 0 d)) = tenantFn t d := by simp only [tenantFn, pcie]; rfl
  rw [descriptorComplete_of_one_done hdescs hopen hnew hdone hfresh hsilent hquiet, completionWord_host, reported, fn,
    changeReel_mem]
  · rfl
  · rw [reported, fn, busMaster, pcie]
    exact hmaster

end

end Sys2Proof.Machine

namespace Sys2Proof.Proofs
open Sys2Proof.Machine

/-- Settles O45: the head of a reel by its checks, its gate and its wait, a start by its TYPE, a timeout by the wait's age, a
signal by its counter, a completion by the status of the one descriptor, an interrupt by its interval. -/
theorem reelDescriptors : Obligations.ReelDescriptors := by
  unfold Obligations.ReelDescriptors
  rintro s _ r rfl hr
  have unit : reelOk r = true := decide_eq_true hr
  refine ⟨fun ty c hrow => ⟨fun hnone => answers_reelRow hr hrow (reelRow_of_no_head hnone), fun y hy => ?head⟩,
    fun y e hsound hy hgood hgate hwait hfree hgranted => ?start, fun y hy => ?timeout, fun y hsignal => ?signal,
    fun hnone => answers_onDev unit rfl (descriptorComplete_of_no_descs hnone),
    fun y hdescs hopen hnew hdone hfresh hsilent hquiet hmaster => ?done, fun y st hdescs hopen hnew hfailed hst => ?failed,
    fun hnone => answers_onDev unit rfl (interruptModerationExpiry_of_none hnone), fun l hl => ?interrupt⟩
  case head =>
    have answers {d' : Dev} (h : reelRow ty r s.dev = d') : Answers c s d' := answers_reelRow hr hrow h
    exact ⟨fun hother => answers (reelRow_of_other hy hother),
      fun hsound hmeets hbad => answers (reelRow_of_bad hy hsound hmeets hbad),
      fun hgood hheld => answers (reelRow_of_held hy hgood hheld),
      fun hsound hty hgood hgate hgranted => answers (reelRow_of_aborted hy hsound hty hgood hgate hgranted),
      fun e hsound hty hgood hgate hwait => answers (reelRow_of_waiting hy hsound hty hgood hgate hwait)⟩
  case start =>
    have row {ty : Nat} (hty : rdType y.bytes = ty) := reelRow_of_granted hy hsound hty hgood hgate hwait hfree hgranted
    refine ⟨fun ty c hrow hty hbad => answers_reelRow hr hrow ((row hty).trans (if_pos hbad)), fun hpass => ?_⟩
    have starts {ty : Nat} {c : Instr} {d' : Dev} (hrow : IsReelRow r ty c) (hty : rdType y.bytes = ty)
        (h : startBody r y (noteGrant r e) = d') : Answers c s d' :=
      answers_reelRow hr hrow ((row hty).trans ((if_neg (Decidable.not_not.2 hpass)).trans h))
    refine ⟨fun hty => starts (by simp [IsReelRow]) hty (startBody_of_nop hty),
      fun hty htile hwhole hheader hengine => starts (by simp [IsReelRow]) hty
        ((startBody_of_word hty).trans (startWord_of_good_header htile hwhole hheader hengine)),
      fun hty htile hwhole hheader => starts (by simp [IsReelRow]) hty
        ((startBody_of_word hty).trans (startWord_of_bad_header htile hwhole hheader)),
      fun hty hind hfields => starts (by simp [IsReelRow]) hty
        ((startBody_of_transfer hty).trans (startTransfer_of_direct hind hfields)),
      fun hty => starts (by simp [IsReelRow]) hty (startBody_of_collect hty),
      fun st code f hty hends => starts (by simp [IsReelRow]) hty (startBody_of_load hty hends),
      fun st code f hty hends => starts (by simp [IsReelRow]) hty (startBody_of_arm hty hends),
      fun hty => starts (by simp [IsReelRow]) hty (startBody_of_teardown hty)⟩
  case timeout =>
    exact ⟨fun hwaits hlimit htime hgate hnamed hshort => answers_onDev unit rfl
        (descriptorWaitTimeout_of_overdue hy hwaits hlimit htime hgate hnamed hshort),
      fun hnot => answers_onDev unit rfl (descriptorWaitTimeout_of_not_due hy hnot)⟩
  case signal =>
    exact ⟨fun e hpool howned hadd => signalDesc_of_pool hsignal hpool howned hadd,
      fun e hlocal hadd => signalDesc_of_local hsignal hlocal hadd,
      fun hpool hlost => signalDesc_of_stale hsignal hpool hlost⟩
  case done =>
    have completed := descriptorComplete_becomes_of_one_done hdescs hopen hnew hdone hfresh hsilent hquiet
    exact completes_onDev unit rfl ⟨completed.settle.same, completed.settle.others,
      descriptorComplete_host_of_one_done hdescs hopen hnew hdone hfresh hsilent hquiet hmaster⟩
  case failed =>
    obtain ⟨last, due, stopped⟩ := descriptorComplete_becomes_of_one_failed hdescs hopen hnew hfailed hst
    have same := stopped.settle.same
    exact completes_onDev unit rfl ⟨congrArg Reel.state same, congrArg Reel.descs same, congrArg Reel.lastSeq same,
      congrArg Reel.stopSaid same, stopped.settle.others⟩
  case interrupt =>
    exact ⟨fun hnot => answers_onDev unit rfl (interruptModerationExpiry_of_not_due hl hnot),
      fun hdue htime => answers_onDev unit rfl (interruptModerationExpiry_of_due hl hdue htime)⟩

end Sys2Proof.Proofs
end

section
/-!
PROOFS. The splice drain (R245, Tables 10.10 and 10.11): a round's own sample, the reports of the children and the release.
-/
namespace Sys2Proof.Machine

variable {d : Dev} {port k ep : Nat} {set : BitVec 128}

theorem childPorts_setBank (b v : Nat) (d : Dev) : childPorts (setBank b v d) = childPorts d := by
  unfold setBank
  split <;> rfl

/-! ## The sums of a round at a device without children -/

section
variable {i n : Nat} (hretiring : retiringEpoch d = some ep) (hleaf : childPorts d = [])
  (hown : Sparse.get (0, 0) d.net.reports (k * 16 + 15) = (i + 1, n))
include hretiring hleaf hown

theorem drainForward_of_leaf (hrole : clapperRole d = 0) (hparent : parentPort d < 9) :
    drainForward k d = sendSet (parentPort d) 2 (drainSet false ep k i n) d := by
  simp [drainForward, hretiring, hleaf, hown, hrole, hparent]

variable (hrole : clapperRole d ≠ 0)
include hrole

theorem drainForward_of_agreeing (h : i % 2 ^ 48 = n % 2 ^ 48) : drainForward k d = setBank ep 0 d := by
  simp [drainForward, hretiring, hleaf, hown, hrole, h, toChildren, childPorts_setBank, -Nat.reducePow]

theorem drainForward_of_differing (h : i % 2 ^ 48 ≠ n % 2 ^ 48) : drainForward k d = d := by
  simp [drainForward, hretiring, hleaf, hown, hrole, h, -Nat.reducePow]

end

/-! ## A round's sample -/

/-- The units of an epoch that the device has injected, and those it has delivered or discarded, as a set carries them. -/
def ownInjected (ep : Nat) (d : Dev) : Nat := Sparse.get 0 d.net.injected ep % 2 ^ 48
def ownDelivered (ep : Nat) (d : Dev) : Nat := Sparse.get 0 d.net.delivered ep % 2 ^ 48

/-- Round `k` has begun with the device's own sample. -/
def roundSampled (ep k : Nat) (d : Dev) : Dev := { d with
  net.round := k, net.reports := Sparse.set (0, 0) d.net.reports (k * 16 + 15) (ownInjected ep d + 1, ownDelivered ep d) }

/-- The time of round `k` in its frame has come, and the round has not begun. -/
abbrev roundDue (k : Nat) (d : Dev) : Prop :=
  0 < k ∧ d.clk.placed = true ∧ d.clk.lastTick + 16 * k * tUs ≤ d.now ∧ 16 * k * tUs < framePeriod d ∧ d.net.round < k

theorem roundSampled_report (ep k : Nat) (d : Dev) :
    Sparse.get (0, 0) (roundSampled ep k d).net.reports (k * 16 + 15) = (ownInjected ep d + 1, ownDelivered ep d) := by
  simp only [roundSampled, Sparse.get_set_same]

theorem drainRound_of_none (h : retiringEpoch d = none) : drainRound k d = d := by simp only [drainRound, h]

section
variable (hretiring : retiringEpoch d = some ep)
include hretiring

theorem drainRound_of_not_due (h : ¬ roundDue k d) : drainRound k d = d := by
  simp only [drainRound, hretiring]
  exact if_neg h

theorem drainRound_of_due (h : roundDue k d) : drainRound k d = drainForward k (roundSampled ep k d) := by
  simp only [drainRound, hretiring]
  exact if_pos h

variable (hdue : roundDue k d) (hleaf : childPorts d = [])
include hdue hleaf

/-- A leaf sends its sample to its parent. -/
theorem drainRound_of_leaf (hrole : clapperRole d = 0) (hparent : parentPort d < 9) : drainRound k d =
    sendSet (parentPort d) 2 (drainSet false ep k (ownInjected ep d) (ownDelivered ep d)) (roundSampled ep k d) :=
  (drainRound_of_due hretiring hdue).trans
    (drainForward_of_leaf (d := roundSampled ep k d) hretiring hleaf (roundSampled_report ep k d) hrole hparent)

variable (hrole : clapperRole d ≠ 0)
include hrole

/-- A clapper without children ends the drain where its own counts agree. -/
theorem drainRound_of_agreeing (h : ownInjected ep d = ownDelivered ep d) :
    drainRound k d = setBank ep 0 (roundSampled ep k d) :=
  (drainRound_of_due hretiring hdue).trans
    (drainForward_of_agreeing (d := roundSampled ep k d) hretiring hleaf (roundSampled_report ep k d) hrole (by rw [h]))

theorem drainRound_of_differing (h : ownInjected ep d ≠ ownDelivered ep d) : drainRound k d = roundSampled ep k d :=
  (drainRound_of_due hretiring hdue).trans
    (drainForward_of_differing (d := roundSampled ep k d) hretiring hleaf (roundSampled_report ep k d) hrole
      (by simpa [ownInjected, ownDelivered] using h))

end

/-! ## Sets that arrive -/

/-- A drain set that is good and of the retiring epoch. -/
abbrev drainGood (ep : Nat) (set : BitVec 128) : Prop := crc16Good set = true ∧ bitsOf set.toNat 1 1 = ep

/-- The report of a child port has been taken into its round. -/
def reportTaken (port v : Nat) (d : Dev) : Dev := { d with
  net.reports := Sparse.set (0, 0) d.net.reports (bitsOf v 2 14 * 16 + port) (bitsOf v 16 48 + 1, bitsOf v 64 48) }

theorem drainReport_of_none (h : retiringEpoch d = none) : drainReport port set d = d := by simp only [drainReport, h]

theorem drainRelease_of_none (h : retiringEpoch d = none) : drainRelease port set d = d := by simp only [drainRelease, h]

section
variable (hretiring : retiringEpoch d = some ep)
include hretiring

theorem drainReport_of_child (hgood : drainGood ep set) (hreport : bitOf set.toNat 0 = false) (hchild : port ∈ childPorts d) :
    drainReport port set d = drainForward (bitsOf set.toNat 2 14) (reportTaken port set.toNat d) := by
  obtain ⟨hcrc, hep⟩ := hgood
  simp [drainReport, hretiring, hcrc, hep, hreport, hchild, reportTaken]

theorem drainReport_of_other (h : ¬ drainGood ep set ∨ bitOf set.toNat 0 = true ∨ port ∉ childPorts d) :
    drainReport port set d = d := by
  simp only [drainReport, hretiring]
  refine if_neg fun htaken => ?_
  simp only [Bool.and_eq_true, Bool.not_eq_true', decide_eq_true_eq, List.contains_eq_mem] at htaken
  obtain ⟨⟨⟨hcrc, hreport⟩, hep⟩, hchild⟩ := htaken
  rcases h with hbad | hrelease | hno
  · exact hbad ⟨hcrc, hep⟩
  · exact absurd hreport (by simp [hrelease])
  · exact hno hchild

theorem drainRelease_of_parent (hgood : drainGood ep set) (hrelease : bitOf set.toNat 0 = true) (hparent : port = parentPort d) :
    drainRelease port set d = (childPorts d).foldl (fun e p => sendSet p 2 set e) (setBank ep 0 d) := by
  obtain ⟨hcrc, hep⟩ := hgood
  simp [drainRelease, hretiring, hcrc, hep, hrelease, hparent, toChildren, childPorts_setBank]

theorem drainRelease_of_other (h : ¬ drainGood ep set ∨ bitOf set.toNat 0 = false ∨ port ≠ parentPort d) :
    drainRelease port set d = d := by
  simp only [drainRelease, hretiring]
  refine if_neg fun htaken => ?_
  simp only [Bool.and_eq_true, decide_eq_true_eq, beq_iff_eq] at htaken
  obtain ⟨⟨⟨hcrc, hrelease⟩, hep⟩, hparent⟩ := htaken
  rcases h with hbad | hreport | hno
  · exact hbad ⟨hcrc, hep⟩
  · exact absurd hrelease (by simp [hreport])
  · exact hno hparent

end

end Sys2Proof.Machine

namespace Sys2Proof.Proofs
open Sys2Proof.Machine

/-- Settles O48: each row of the drain by the epoch that retires, then a round by its time, a report and a release by
their port. -/
theorem spliceDrain : Obligations.SpliceDrain := by
  unfold Obligations.SpliceDrain
  rintro s _ port k set rfl hport
  have rounds {d' : Dev} (h : drainRound k s.dev = d') : Answers (.drainRound k) s d' := answers_onDev (ok := true) rfl rfl h
  have reports {d' : Dev} (h : drainReport port set s.dev = d') : Answers (.drainReport port set) s d' :=
    answers_onDev (decide_eq_true hport) rfl h
  have releases {d' : Dev} (h : drainRelease port set s.dev = d') : Answers (.drainRelease port set) s d' :=
    answers_onDev (decide_eq_true hport) rfl h
  refine ⟨fun hnone => ⟨rounds (drainRound_of_none hnone), reports (drainReport_of_none hnone),
    releases (drainRelease_of_none hnone)⟩, fun ep hretiring => ?_⟩
  exact ⟨fun hnot => rounds (drainRound_of_not_due hretiring hnot),
    fun hdue hleaf hrole hparent => rounds (drainRound_of_leaf hretiring hdue hleaf hrole hparent),
    fun hdue hleaf hrole => ⟨fun h => rounds (drainRound_of_agreeing hretiring hdue hleaf hrole h),
      fun h => rounds (drainRound_of_differing hretiring hdue hleaf hrole h)⟩,
    fun hgood hreport hchild => reports (drainReport_of_child hretiring hgood hreport hchild),
    fun h => reports (drainReport_of_other hretiring h),
    fun hgood hrelease hparent => releases (drainRelease_of_parent hretiring hgood hrelease hparent),
    fun h => releases (drainRelease_of_other hretiring h)⟩

end Sys2Proof.Proofs
end

section
/-!
PROOFS. Canvas routing (chapter 10): a packet that is read from an input buffer, its way on, its delivery, what the network
interface injects, and the sweep of what is old.
-/
namespace Sys2Proof.Machine

variable {d e f : Dev} {p : Packet} {rest : List Packet} {port vc k : Nat}

/-! ## The head of an input buffer -/

/-- The head `p` of an input buffer has been taken, `rest` is left, and its flits are freed. -/
def inputTaken (port vc : Nat) (p : Packet) (rest : List Packet) (d : Dev) : Dev := { d with
  net.inQ := Sparse.set [] d.net.inQ (8 * port + vc) rest
  ports := Sparse.modify {} d.ports port (fun x =>
    { x with freed := Sparse.modify 0 x.freed vc (· + flitsOf (packetSize p)) }) }

theorem takeInput_of_empty (mc : Bool) (h : Sparse.get [] d.net.inQ (8 * port + vc) = []) : takeInput port vc mc d = none := by
  simp only [takeInput, h]

theorem takeInput_of_other_kind {mc : Bool} (h : Sparse.get [] d.net.inQ (8 * port + vc) = p :: rest) (hmc : p.mc ≠ mc) :
    takeInput port vc mc d = none := by
  simp only [takeInput, h, if_neg hmc]

theorem takeInput_of_head (h : Sparse.get [] d.net.inQ (8 * port + vc) = p :: rest) :
    takeInput port vc p.mc d = some (p, inputTaken port vc p rest d) := by
  simp only [takeInput, h, if_true, inputTaken]

/-! ## The rows of an input buffer -/

/-- ROUTER_MULTICAST or ROUTER_UNICAST, as its instruction and as what it does. -/
def routerInstr (mc : Bool) (port vc : Nat) (spoilt : Bool) : Instr :=
  if mc then .routerMulticast port vc spoilt else .routerUnicast port vc spoilt
def routerRow (mc : Bool) (port vc : Nat) (spoilt : Bool) (d : Dev) : Dev :=
  if mc then routerMulticast port vc spoilt d else routerUnicast port vc spoilt d

/-- What a router does with a packet that it has admitted. -/
def passOn (mc : Bool) (p : Packet) (port : Nat) (d : Dev) : Dev :=
  if mc then arriveMulticast p port d else if port = 8 then deliver p d else routeUnicast p port d

theorem answers_routerRow {mc spoilt : Bool} {s : State} {d' : Dev} (hport : port < 10) (hvc : vc < 8)
    (h : routerRow mc port vc spoilt s.dev = d') : Answers (routerInstr mc port vc spoilt) s d' := by
  have units : (decide (port < 10) && decide (vc < 8)) = true := by simp [hport, hvc]
  cases mc
  · exact answers_onDev units rfl h
  · exact answers_onDev units rfl h

section
variable {mc : Bool} (hport : port < 9)
include hport

theorem routerRow_of_none (spoilt : Bool) (h : takeInput port vc mc d = none) : routerRow mc port vc spoilt d = d := by
  cases mc <;> simp [routerRow, routerMulticast, routerUnicast, Nat.ne_of_lt hport, h]

variable (htake : takeInput port vc mc d = some (p, e))
include htake

theorem routerRow_of_spoilt : routerRow mc port vc true d = inputSpoilt p port e := by
  cases mc <;> simp [routerRow, routerMulticast, routerUnicast, Nat.ne_of_lt hport, htake]

theorem routerRow_of_refused (h : admitted p port e = (false, f)) : routerRow mc port vc false d = f := by
  cases mc <;> simp [routerRow, routerMulticast, routerUnicast, Nat.ne_of_lt hport, htake, h]

theorem routerRow_of_admitted (h : admitted p port e = (true, f)) : routerRow mc port vc false d = passOn mc p port f := by
  cases mc <;> simp [routerRow, routerMulticast, routerUnicast, Nat.ne_of_lt hport, htake, h, passOn]

end

/-! ## The checks of a router -/

theorem inputSpoilt_of_transit (hport : port ≠ 8) (h : p.mc = true ∨ p.dst ≠ ownCoord d) : inputSpoilt p port d =
    raise 4 evFabricUe (srcPort port) (countUnits p.ep (copyUnits p d) (bumpQueue (portDie port) 2 d)) :=
  if_neg fun hends => hends.elim hport fun ⟨hmc, hdst⟩ => h.elim (by simp [hmc]) (· hdst)

theorem inputSpoilt_of_ending (h : port = 8 ∨ (p.mc = false ∧ p.dst = ownCoord d)) : inputSpoilt p port d =
    faultRun 2 evQueueUe (srcPort port) p.tenant (countUnits p.ep (copyUnits p d) (bumpQueue (portDie port) 2 d)) :=
  if_pos h

theorem admitted_of_bad_header (h : headerKept p d = false) :
    admitted p port d = (false, discardAt evFabricHeader 3 port p (copyUnits p d) d) := by
  simp [admitted, h]

theorem admitted_of_old (hheader : headerKept p d = true) (h : 2 ≤ packetAge p d) :
    admitted p port d = (false, discardAt evPktLifetime 0 port p (copyUnits p d) d) := by
  simp [admitted, hheader, h]

theorem admitted_of_idle_bank (hheader : headerKept p d = true) (hage : packetAge p d < 2) (h : bankState p.ep d = 0) :
    admitted p port d = (false, discardAt evEpochStale 1 port p (copyUnits p d) d) := by
  simp [admitted, hheader, Nat.not_le.2 hage, h]

/-- What a router asks of every packet: R234, its age, and a bank that is not idle (R245). -/
abbrev meetsChecks (p : Packet) (d : Dev) : Prop := headerKept p d = true ∧ packetAge p d < 2 ∧ bankState p.ep d ≠ 0

theorem admitted_of_good (h : meetsChecks p d) : admitted p port d = (true, d) := by
  obtain ⟨hheader, hage, hbank⟩ := h
  simp [admitted, hheader, Nat.not_le.2 hage, hbank]

/-! ## The way on (R235, R236, R241) -/

/-- The packet lies at this device in dimension `k`. -/
abbrev hereIn (p : Packet) (d : Dev) (k : Nat) : Prop := dimOf p.dst k = dimOf (ownCoord d) k

theorem routeUnicast_of_here (from_ : Nat) (h : ∀ k, k < 4 → hereIn p d k) : routeUnicast p from_ d = deliver p d := by
  have nowhere : ((List.range 4).find? fun k => dimOf p.dst k != dimOf (ownCoord d) k) = none :=
    List.find?_range_eq_none.2 fun k hk => by simp [h k hk]
  simp only [routeUnicast, nowhere]

section
variable (from_ : Nat) (hk : k < 4) (haway : ¬ hereIn p d k) (hbefore : ∀ j, j < k → hereIn p d j)
include hk haway hbefore

theorem first_away : ((List.range 4).find? fun k => dimOf p.dst k != dimOf (ownCoord d) k) = some k :=
  List.find?_range_eq_some.2 ⟨by simpa using haway, List.mem_range.2 hk, fun j hj => by simp [hbefore j hj]⟩

theorem routeUnicast_of_unreachable (h : direction p.ep k (dimOf p.dst k) d = 2) :
    routeUnicast p from_ d = discardAt evRouteUnreachable 2 from_ p 1 d := by
  simp only [routeUnicast, first_away hk haway hbefore, h, if_true]

theorem routeUnicast_of_reachable {dir : Nat} (hdir : direction p.ep k (dimOf p.dst k) d = dir) (h : dir ≠ 2) :
    routeUnicast p from_ d = sendOn p from_ (portOf k dir) (nextDl p from_ k dir d) d := by
  simp only [routeUnicast, first_away hk haway hbefore, hdir, if_neg h]

end

/-- A packet of another class than VC-S meets no slot conflict. -/
theorem sendOn_of_up (from_ dl : Nat) (hcls : p.cls ≠ 1) (hup : portDown (getPort port d) = false) :
    sendOn p from_ port dl d = toOutput port (2 * p.cls + dl) (packetBytes { p with dl := dl }) d := by
  have up : portDown (Sparse.get {} d.ports port) = false := hup
  simp [sendOn, up, hcls]

theorem arriveMulticast_of_passing (from_ : Nat) (hfar : dimOf (ownCoord d) p.mph ≠ farOf p)
    (hmask : bitOf (maskOf p.mask p.mph) (dimOf (ownCoord d) p.mph) = false) : arriveMulticast p from_ d =
      sendOn p from_ (portOf p.mph p.mdir) (nextDl p from_ p.mph p.mdir d) d := by
  simp [arriveMulticast, hfar, hmask]

theorem arriveMulticast_of_last (from_ : Nat) (hfar : dimOf (ownCoord d) p.mph = farOf p) (hlast : p.mph = 3)
    (hmask : bitOf (maskOf p.mask 3) (dimOf (ownCoord d) p.mph) = true) : arriveMulticast p from_ d = deliver p d := by
  rw [hlast] at hfar hmask
  simp [arriveMulticast, hlast, hfar, hfar ▸ hmask, spread]

/-! ## A packet that is passed on

The way on is judged by the dictionary, which a packet's taking leaves as it is. -/

theorem dictGet_congr (i j : Nat) (h : e.mgmt = d.mgmt) : dictGet i j e = dictGet i j d := by simp only [dictGet, h]

theorem ownCoord_congr (h : e.mgmt = d.mgmt) : ownCoord e = ownCoord d := by rw [ownCoord, dictGet_congr _ _ h, ownCoord]

theorem direction_congr (b k v : Nat) (h : e.mgmt = d.mgmt) : direction b k v e = direction b k v d := by
  rw [direction, dictGet_congr _ _ h, direction]

theorem nextDl_congr (p : Packet) (from_ k dir : Nat) (h : e.mgmt = d.mgmt) :
    nextDl p from_ k dir e = nextDl p from_ k dir d := by
  have line : dateline p.ep k e = dateline p.ep k d := by rw [dateline, dictGet_congr _ _ h, dateline]
  have size : dimSize k e = dimSize k d := by rw [dimSize, dictGet_congr _ _ h, dimSize]
  simp only [nextDl]
  rw [ownCoord_congr h, line, size]

section
variable (hdict : e.mgmt = d.mgmt) {mc : Bool}
include hdict

/-- A packet that T brings ends here, and so does one for this coordinate. -/
theorem passOn_of_here (hmc : mc = false) (h : port = 8 ∨ ∀ k, k < 4 → hereIn p d k) : passOn mc p port e = deliver p e := by
  simp only [hereIn, ← ownCoord_congr hdict] at h
  subst hmc
  rcases h with ht | hhere
  · exact if_pos ht
  · exact (congrArg (ite _ _) (routeUnicast_of_here port hhere)).trans (ite_self _)

section
variable (hmc : mc = false) (hport : port < 8) (hk : k < 4) (haway : ¬ hereIn p d k) (hbefore : ∀ j, j < k → hereIn p d j)
include hmc hport hk haway hbefore

theorem passOn_of_unreachable (h : direction p.ep k (dimOf p.dst k) d = 2) :
    passOn mc p port e = discardAt evRouteUnreachable 2 port p 1 e := by
  simp only [hereIn, ← ownCoord_congr hdict, ← direction_congr _ _ _ hdict] at haway hbefore h
  simp [passOn, hmc, Nat.ne_of_lt hport, routeUnicast_of_unreachable port hk haway hbefore h]

theorem passOn_of_reachable {dir dl : Nat} (hdir : direction p.ep k (dimOf p.dst k) d = dir)
    (hdl : nextDl p port k dir d = dl) (hreach : dir ≠ 2) (hcls : p.cls ≠ 1)
    (hup : portDown (getPort (portOf k dir) e) = false) :
    passOn mc p port e = toOutput (portOf k dir) (2 * p.cls + dl) (packetBytes { p with dl := dl }) e := by
  simp only [hereIn, ← ownCoord_congr hdict, ← direction_congr _ _ _ hdict, ← nextDl_congr _ _ _ _ hdict]
    at haway hbefore hdir hdl
  simp [passOn, hmc, Nat.ne_of_lt hport, routeUnicast_of_reachable port hk haway hbefore hdir hreach, hdl,
    sendOn_of_up port dl hcls hup]

end

section
variable (hmc : mc = true)
include hmc

theorem passOn_of_passing {dl : Nat} (hfar : dimOf (ownCoord d) p.mph ≠ farOf p)
    (hmask : bitOf (maskOf p.mask p.mph) (dimOf (ownCoord d) p.mph) = false) (hdl : nextDl p port p.mph p.mdir d = dl)
    (hcls : p.cls ≠ 1) (hup : portDown (getPort (portOf p.mph p.mdir) e) = false) :
    passOn mc p port e = toOutput (portOf p.mph p.mdir) (2 * p.cls + dl) (packetBytes { p with dl := dl }) e := by
  simp only [← ownCoord_congr hdict, ← nextDl_congr _ _ _ _ hdict] at hfar hmask hdl
  simp [passOn, hmc, arriveMulticast_of_passing port hfar hmask, hdl, sendOn_of_up port dl hcls hup]

theorem passOn_of_last (hfar : dimOf (ownCoord d) p.mph = farOf p) (hlast : p.mph = 3)
    (hmask : bitOf (maskOf p.mask 3) (dimOf (ownCoord d) p.mph) = true) : passOn mc p port e = deliver p e := by
  simp only [← ownCoord_congr hdict] at hfar hmask
  simp [passOn, hmc, arriveMulticast_of_last port hfar hlast hmask]

end
end

/-! ## Delivery (R232) -/

section
variable (hmc : p.mc = false) (htyp : p.typ ≠ 5)
include hmc htyp

theorem deliver_of_held (h : p.drank ∈ heldRanks p.tenant d) :
    deliver p d = countUnits p.ep 1 { d with net.local_ := d.net.local_ ++ [p] } := by
  simp [deliver, hmc, htyp, h]

theorem deliver_of_misdelivered (hsome : heldRanks p.tenant d ≠ []) (h : p.drank ∉ heldRanks p.tenant d) :
    deliver p d = discardAt evRankMisdelivered 7 9 p 1 d := by
  simp [deliver, hmc, htyp, hsome, h]

end

/-! ## Injection -/

theorem answers_injection {spoilt : Bool} {s : State} {d' : Dev} (hvc : vc < 8) (h : routerUnicast 9 vc spoilt s.dev = d') :
    Answers (.routerUnicast 9 vc spoilt) s d' := answers_routerRow (mc := false) (by decide) hvc h

theorem routerUnicast_of_held_injection (spoilt : Bool) (hheld : injectionHeld d = true) (hsome : d.net.inject ≠ [])
    (hfirst : d.net.staleRaised = false) :
    routerUnicast 9 vc spoilt d = raise 4 evEpochStale (srcNi 0) { d with net.staleRaised := true } := by
  simp [routerUnicast, hheld, hsome, holdInjection, hfirst]

/-- The first packet of VC-C goes before all others. -/
theorem pickInject_of_first_class {mc : Bool}
    (h : takeFirst (fun p => p.mc == mc && p.cls == 0) d.net.inject = some (p, rest)) :
    pickInject mc d = (some (p, rest), d) := by
  simp only [pickInject, h]

theorem routerUnicast_of_injected (hfree : injectionHeld d = false) (hpick : pickInject false d = (some (p, rest), e))
    (hpass : passCap p e = some f) : routerUnicast 9 vc false d = injectUnicast p { f with net.inject := rest } := by
  simp [routerUnicast, hfree, hpick, hpass]

/-- A packet as it leaves the network interface: its coordinate through the aliases, the injection epoch and the frame. -/
def stamped (p : Packet) (d : Dev) : Packet :=
  { p with dst := aliased p.dst d, ep := epoch d, injf := d.clk.frame % 16 }

/-- One unit has been injected under the epoch in effect. -/
def injectedOne (d : Dev) : Dev := { d with net.injected := bumpTable d.net.injected (epoch d) 1 }

section
variable (hmc : p.mc = false) (htyp : p.typ = 3)
include hmc htyp

theorem injectUnicast_of_own_response (h : aliased p.dst d = ownCoord d) :
    injectUnicast p d = deliver (stamped p d) (injectedOne d) := by
  simp [injectUnicast, destination, noteSent, stampInjection, injectUnits, hmc, htyp, h, stamped, injectedOne]

theorem injectUnicast_of_response (h : aliased p.dst d ≠ ownCoord d) (htwin : aliased p.dst d ≠ dictGet 0x6000 1 d) :
    injectUnicast p d = routeUnicast (stamped p d) 9 (injectedOne d) := by
  simp [injectUnicast, destination, noteSent, stampInjection, injectUnits, hmc, htyp, h, htwin, stamped, injectedOne]

end

/-! ## The rank cache and the caps -/

theorem rankCacheFill_of_none (h : d.net.fillWait = []) : rankCacheFill d = d := by simp only [rankCacheFill, h]

theorem rankStore_of_room {t rank w : Nat} (h : d.net.rankCache.length < 8192) : rankStore t rank w d =
    { d with net.rankCache := Sparse.set (2 ^ 32) d.net.rankCache (rankKey t rank) w } := by
  simp [rankStore, cacheRoom, h, Nat.not_le.2 h]

theorem rankCacheFill_of_read {t rank : Nat} {more : List (Nat × Nat)} {bs : Bytes} (h : d.net.fillWait = (t, rank) :: more)
    (hread : vaRead niTlb t 0 ((getRun t d).rankTable + 64 + 4 * rank) 4 d = (.ok, bs, e)) :
    rankCacheFill d = rankStore t rank (leNat bs) { e with net.fillWait := more } := by
  simp only [rankCacheFill, h, hread]

section
variable {t : Nat}

theorem injectionCapRelease_of_none (h : takeFirst (fun p => p.tenant == t) d.net.held = none) :
    injectionCapRelease t d = d := by
  simp only [injectionCapRelease, h]

variable (hheld : takeFirst (fun p => p.tenant == t) d.net.held = some (p, rest))
include hheld

theorem injectionCapRelease_of_short (h : passCap p d = none) : injectionCapRelease t d = d := by
  simp [injectionCapRelease, hheld, h]

theorem injectionCapRelease_of_full (h : passCap p d ≠ none) :
    injectionCapRelease t d = { d with net.held := rest, net.inject := p :: d.net.inject } := by
  have full : (passCap p d).isSome = true := Option.isSome_iff_ne_none.2 h
  simp [injectionCapRelease, hheld, full]

end

/-! ## The sweep (R245) -/

theorem Sparse.mem_erase_imp {α : Type} {m : Table α} {k : Nat} {x : Nat × α} (h : x ∈ Sparse.erase m k) : x ∈ m := by
  induction m with
  | nil => exact h
  | cons y m ih =>
    rw [Sparse.erase] at h
    split at h
    next => exact .tail _ (ih h)
    next => exact (List.mem_cons.1 h).elim (fun heq => heq ▸ .head _) fun hm => .tail _ (ih hm)

theorem Sparse.mem_insert_imp {α : Type} {m : Table α} {k : Nat} {v : α} {x : Nat × α} (h : x ∈ Sparse.insert m k v) :
    x = (k, v) ∨ x ∈ m := by
  induction m with
  | nil => exact .inl (List.mem_singleton.1 h)
  | cons y m ih =>
    rw [Sparse.insert] at h
    split at h
    next => exact (List.mem_cons.1 h).imp_right (.tail _)
    next =>
      split at h
      next => exact List.mem_cons.1 h
      next => exact (List.mem_cons.1 h).elim (fun heq => .inr (heq ▸ .head _)) fun hm => (ih hm).imp_right (.tail _)

/-- What a table lists after a write is the item written or was listed before. -/
theorem Sparse.mem_set_imp {α : Type} [DecidableEq α] {dflt : α} {m : Table α} {k : Nat} {v : α} {x : Nat × α}
    (h : x ∈ Sparse.set dflt m k v) : x = (k, v) ∨ x ∈ m := by
  rw [Sparse.set] at h
  split at h
  next => exact .inr (Sparse.mem_erase_imp h)
  next => exact Sparse.mem_insert_imp h

/-- No port holds a flit for replay. -/
def NoReplay (ports : Table Port) : Prop := ∀ x ∈ ports, x.2.replay = []

theorem NoReplay.get {ports : Table Port} (h : NoReplay ports) (port : Nat) : (Sparse.get {} ports port).replay = [] := by
  rcases Sparse.get_mem_or ({} : Port) ports port with hmem | hnone
  · exact h _ hmem
  · rw [hnone]

theorem NoReplay.modify {ports : Table Port} (h : NoReplay ports) (port : Nat) {g : Port → Port}
    (hg : ∀ x, (g x).replay = x.replay) : NoReplay (Sparse.modify {} ports port g) := by
  intro x hx
  rcases Sparse.mem_set_imp hx with rfl | hold
  · exact (hg _).trans (h.get port)
  · exact h x hold

theorem sweepReplay_of_none {x : Port} (port : Nat) (d : Dev) (h : x.replay = []) : sweepReplay port x d = d := by
  simp [sweepReplay, h, heldPackets]

theorem foldl_sweepReplay_of_none {ports : Table Port} (h : NoReplay ports) (d : Dev) :
    ports.foldl (fun d p => sweepReplay p.1 p.2 d) d = d := by
  induction ports with
  | nil => rfl
  | cons x ports ih =>
    rw [List.foldl_cons, sweepReplay_of_none x.1 d (h x (.head _))]
    exact ih fun y hy => h y (.tail _ hy)

/-- A packet that was alone in the input buffer numbered `q` has left it. -/
def inputSwept (q : Nat) (p : Packet) (d : Dev) : Dev := { d with
  net.inQ := [], ports := Sparse.modify {} d.ports (q / 8) (fun x =>
    { x with freed := Sparse.modify 0 x.freed (q % 8) (· + flitsOf (packetSize p)) }) }

theorem discardAt_frame (num counter port : Nat) (p : Packet) (units : Nat) (d : Dev) :
    (discardAt num counter port p units d).ports = d.ports ∧ (discardAt num counter port p units d).net.outQ = d.net.outQ := by
  unfold discardAt
  split
  · rw [raiseT_eq _ _ _ _ _ (by decide)]; exact ⟨rfl, rfl⟩
  · rw [raise_eq _ _ _ _ (by decide)]; exact ⟨rfl, rfl⟩

section
variable (hreplay : NoReplay d.ports) (hout : d.net.outQ = [])
include hreplay hout

theorem lifetimeSweep_of_nothing (h : d.net.inQ = []) : lifetimeSweep d = d := by
  simp only [lifetimeSweep, h, hout, List.foldl_nil]
  exact foldl_sweepReplay_of_none hreplay d

theorem lifetimeSweep_of_one_old {q : Nat} (h : d.net.inQ = [(q, [p])]) (hold : 2 ≤ packetAge p d) : lifetimeSweep d =
    discardAt evPktLifetime 0 (q / 8) p (copyUnits p (inputSwept q p d)) (inputSwept q p d) := by
  have gone : Sparse.modify [] [(q, [p])] q (fun l => l.filter fun p => !decide (2 ≤ packetAge p d)) = [] := by
    simp [Sparse.modify, Sparse.set, Sparse.get, Sparse.erase, hold]
  obtain ⟨hports, houtQ⟩ := discardAt_frame evPktLifetime 0 (q / 8) p (copyUnits p (inputSwept q p d)) (inputSwept q p d)
  have swept : NoReplay (inputSwept q p d).ports := by
    simp only [inputSwept]
    exact hreplay.modify (q / 8) (by intro; rfl)
  simp only [lifetimeSweep, h, List.foldl_cons, List.foldl_nil, List.filter_cons, List.filter_nil, hold, decide_true, if_true,
    List.isEmpty_cons, Bool.false_eq_true, if_false, Nat.zero_add, gone]
  rw [← inputSwept, houtQ, show (inputSwept q p d).net.outQ = [] from hout, List.foldl_nil, hports]
  exact foldl_sweepReplay_of_none swept _

end

end Sys2Proof.Machine

namespace Sys2Proof.Proofs
open Sys2Proof.Machine

/-- Settles O47: a packet at the head of an input buffer by what its router finds, a delivery by the ranks held, an injection by
its epoch, a rank by its cache, a held packet by its cap and the sweep by what stands in the buffers. -/
theorem routing : Obligations.Routing := by
  unfold Obligations.Routing
  rintro s _ rfl
  refine ⟨fun port vc hport hvc => ⟨fun hempty b => ?empty, fun p rest hhead => ?head⟩,
    fun p hmc htyp => ⟨deliver_of_held hmc htyp, deliver_of_misdelivered hmc htyp⟩,
    fun vc hvc hheld hsome hfirst => ?stale, fun vc p rest x hvc hfree hpick hmc htyp hpass => ?inject,
    fun hnone => answers_onDev (ok := true) rfl rfl (rankCacheFill_of_none hnone),
    fun t rank more bs e hwait hread hroom => ?fill, fun t ht => ?caps, fun hreplay hout => ?sweep⟩
  case empty =>
    have stays (mc : Bool) : Answers (routerInstr mc port vc b) s s.dev :=
      answers_routerRow (by omega) hvc (routerRow_of_none hport b (takeInput_of_empty mc hempty))
    exact ⟨stays false, stays true⟩
  case head =>
    have answers {b : Bool} {d' : Dev} (h : routerRow p.mc port vc b s.dev = d') : Answers (routerInstr p.mc port vc b) s d' :=
      answers_routerRow (by omega) hvc h
    have stays {mc : Bool} (b : Bool) (hmc : p.mc ≠ mc) : Answers (routerInstr mc port vc b) s s.dev :=
      answers_routerRow (by omega) hvc (routerRow_of_none hport b (takeInput_of_other_kind hhead hmc))
    have htake := takeInput_of_head hhead
    have hdict : (inputTaken port vc p rest s.dev).mgmt = s.dev.mgmt := rfl
    have passes {f : Dev} (hgood : meetsChecks p (inputTaken port vc p rest s.dev))
        (h : passOn p.mc p port (inputTaken port vc p rest s.dev) = f) : Answers (routerInstr p.mc port vc false) s f :=
      answers ((routerRow_of_admitted hport htake (admitted_of_good hgood)).trans h)
    refine ⟨fun b => ⟨fun hmc => ?_, fun hmc => ?_⟩, ⟨fun hin htransit => ?_, fun hends => ?_⟩, fun hbad => ?_,
      fun hheader hold => ?_, fun hheader hage hidle => ?_, fun hmc hgood hhere => ?_,
      fun k hmc hgood hrouter hk haway hbefore => ⟨fun hdir => ?_, fun hdir hcls hup => ?_⟩,
      fun hmc hgood => ⟨fun hfar hmask hcls hup => ?_, fun hfar hlast hmask => ?_⟩⟩
    · exact stays (mc := false) b (by simp [hmc])
    · exact stays (mc := true) b (by simp [hmc])
    · exact answers ((routerRow_of_spoilt hport htake).trans (inputSpoilt_of_transit hin htransit))
    · exact answers ((routerRow_of_spoilt hport htake).trans (inputSpoilt_of_ending hends))
    · exact answers (routerRow_of_refused hport htake (admitted_of_bad_header hbad))
    · exact answers (routerRow_of_refused hport htake (admitted_of_old hheader hold))
    · exact answers (routerRow_of_refused hport htake (admitted_of_idle_bank hheader hage hidle))
    · exact passes hgood (passOn_of_here hdict hmc hhere)
    · exact passes hgood (passOn_of_unreachable hdict hmc hrouter hk haway hbefore hdir)
    · exact passes hgood (passOn_of_reachable hdict hmc hrouter hk haway hbefore rfl rfl hdir hcls hup)
    · exact passes hgood (passOn_of_passing hdict hmc hfar hmask rfl hcls hup)
    · exact passes hgood (passOn_of_last hdict hmc hfar hlast hmask)
  case stale => exact answers_injection hvc (routerUnicast_of_held_injection false hheld hsome hfirst)
  case inject =>
    have injects {d' : Dev} (h : injectUnicast p { x with net.inject := rest } = d') :
        Answers (.routerUnicast 9 vc false) s d' :=
      answers_injection hvc ((routerUnicast_of_injected hfree (pickInject_of_first_class hpick) hpass).trans h)
    exact ⟨fun hown => injects (injectUnicast_of_own_response hmc htyp hown),
      fun hother htwin => injects (injectUnicast_of_response hmc htyp hother htwin)⟩
  case fill =>
    exact answers_onDev (ok := true) rfl rfl ((rankCacheFill_of_read hwait hread).trans (rankStore_of_room hroom))
  case caps =>
    have answers {d' : Dev} (h : injectionCapRelease t s.dev = d') : Answers (.injectionCapRelease t) s d' :=
      answers_onDev (decide_eq_true ht) rfl h
    exact ⟨fun hnone => answers (injectionCapRelease_of_none hnone), fun p rest hheld =>
      ⟨fun hshort => answers (injectionCapRelease_of_short hheld hshort),
        fun hfull => answers (injectionCapRelease_of_full hheld hfull)⟩⟩
  case sweep =>
    have answers {d' : Dev} (h : lifetimeSweep s.dev = d') : Answers .pktLifetimeSweep s d' :=
      answers_onDev (ok := true) rfl rfl h
    exact ⟨fun hnone => answers (lifetimeSweep_of_nothing hreplay hout hnone),
      fun q p hone hold => answers (lifetimeSweep_of_one_old hreplay hout hone hold)⟩

end Sys2Proof.Proofs
end

section
/-!
PROOFS. Link flits (chapter 12): what a slot sends, what a flit that arrives does, and the replay of what is held.
-/
namespace Sys2Proof.Machine

variable {d e f : Dev} {p q : Nat} {x y : Port}

/-! ## The change of one port -/

theorem getPort_setPort (p q : Nat) (x : Port) (d : Dev) : getPort q (setPort p x d) = if q = p then x else getPort q d :=
  Sparse.get_set (α := Port) {} d.ports p q x
@[simp] theorem getPort_setPort_same (p : Nat) (x : Port) (d : Dev) : getPort p (setPort p x d) = x := by simp [getPort_setPort]

@[simp] theorem setPort_net (p : Nat) (x : Port) (d : Dev) : (setPort p x d).net = d.net := rfl
@[simp] theorem modPort_net (p : Nat) (g : Port → Port) (d : Dev) : (modPort p g d).net = d.net := rfl
@[simp] theorem bumpPort_net (p i : Nat) (d : Dev) : (bumpPort p i d).net = d.net := rfl

theorem getPort_congr (h : e.ports = d.ports) (q : Nat) : getPort q e = getPort q d := by rw [getPort, getPort, h]

/-- Port `p` has become `x`; every other port is what it was. -/
def PortBecomes (p : Nat) (x : Port) (d d' : Dev) : Prop := ∀ q, getPort q d' = if q = p then x else getPort q d

theorem PortBecomes.same (h : PortBecomes p x d e) : getPort p e = x := (h p).trans (if_pos rfl)

theorem PortBecomes.others (h : PortBecomes p x d e) : ∀ q, q ≠ p → getPort q e = getPort q d :=
  fun q hq => (h q).trans (if_neg hq)

/-- Of two changes of a port the later stands. -/
theorem PortBecomes.trans (h : PortBecomes p x d e) (g : PortBecomes p y e f) : PortBecomes p y d f := by
  intro q
  rw [g q]
  split
  next => rfl
  next hq => exact h.others q hq

theorem setPort_becomes (p : Nat) (x : Port) (d : Dev) : PortBecomes p x d (setPort p x d) := fun q => getPort_setPort p q x d

theorem PortBecomes.refl (p : Nat) (d : Dev) : PortBecomes p (getPort p d) d d := by
  intro q
  split
  next hq => rw [hq]
  next => rfl

theorem PortBecomes.modPort (h : PortBecomes p x d e) (g : Port → Port) : PortBecomes p (g x) d (modPort p g e) :=
  h.trans (h.same ▸ setPort_becomes p (g (getPort p e)) e)

theorem PortBecomes.bump (h : PortBecomes p x d e) (i : Nat) :
    PortBecomes p { x with counts := bumpTable x.counts i 1 } d (bumpPort p i e) := h.modPort _

theorem PortBecomes.of_ports (h : PortBecomes p x d e) (hf : f.ports = e.ports) : PortBecomes p x d f :=
  fun q => (getPort_congr hf q).trans (h q)

theorem takeArmed_frame (target unit : Nat) (d : Dev) :
    (takeArmed target unit d).2 = { d with mem := (takeArmed target unit d).2.mem } := by
  simp only [takeArmed]
  split <;> rfl

/-! ## A flit that goes out (R273) -/

/-- A port whose counts and whose due NAK a flit that goes out has changed. -/
def Port.sent (x : Port) (nak : Bool) (n : Table Nat) : Port := { x with nakDue := nak, counts := n }

/-- The flit is counted, with the NAK that goes out in it. -/
def flitCounted (p : Nat) (d : Dev) : Dev :=
  bumpPort p 0 (if (getPort p d).nakDue then bumpPort p 2 (modPort p (fun y => { y with nakDue := false }) d) else d)

theorem flitCounted_net (p : Nat) (d : Dev) : (flitCounted p d).net = d.net := by
  unfold flitCounted
  split <;> simp only [bumpPort_net, modPort_net]

theorem flitCounted_becomes (p : Nat) (d : Dev) : ∃ nak n, PortBecomes p ((getPort p d).sent nak n) d (flitCounted p d) := by
  have start := PortBecomes.refl p d
  have said := (start.modPort fun y => { y with nakDue := false }).bump 2
  unfold flitCounted
  split
  next => exact ⟨false, _, said.bump 0⟩
  next => exact ⟨(getPort p d).nakDue, _, start.bump 0⟩

/-- Besides its port a flit that goes out changes the armed errors and what has left the device. -/
theorem emitFlit_frame (p : Nat) (data : Option HeldFlit) (d : Dev) : emitFlit p data d =
    { flitCounted p d with mem := (emitFlit p data d).mem, out := (emitFlit p data d).out } := by
  simp only [emitFlit, emit]
  rw [takeArmed_frame]
  rfl

theorem emitFlit_net (p : Nat) (data : Option HeldFlit) (d : Dev) : (emitFlit p data d).net = d.net := by
  rw [emitFlit_frame]
  exact flitCounted_net p d

theorem emitFlit_becomes (p : Nat) (data : Option HeldFlit) (d : Dev) :
    ∃ nak n, PortBecomes p ((getPort p d).sent nak n) d (emitFlit p data d) := by
  obtain ⟨nak, n, counted⟩ := flitCounted_becomes p d
  rw [emitFlit_frame]
  exact ⟨nak, n, counted.of_ports rfl⟩

theorem PortBecomes.settle (h : PortBecomes p x d e) : PortBecomes p x d (settle e) := h.of_ports rfl

/-- A flit goes out of a port that has become `x`. -/
theorem PortBecomes.emitFlit (h : PortBecomes p x d e) (data : Option HeldFlit) :
    ∃ nak n, PortBecomes p (x.sent nak n) d (emitFlit p data e) := by
  obtain ⟨nak, n, gone⟩ := emitFlit_becomes p data e
  exact ⟨nak, n, h.trans (h.same ▸ gone)⟩

/-! ## What a slot takes (R237, R275) -/

section
variable {spoilt : Bool} {v : Nat}

theorem linkTransmit_of_not_up (h : (getPort p d).state ≠ 2) : linkTransmit p spoilt d = d := by simp [linkTransmit, h]

variable (hup : (getPort p d).state = 2)
include hup

theorem linkTransmit_of_spoilt (h : 0 < (getPort p d).resend) :
    linkTransmit p true d = linkTransmit p false (dropReplayed p d) := by
  simp [linkTransmit, hup, h]

theorem linkTransmit_of_resend (h : 0 < (getPort p d).resend) : linkTransmit p false d = resendFlit p d := by
  simp [linkTransmit, hup, h]

theorem linkTransmit_of_new (hidle : (getPort p d).resend = 0) (hpick : pickChannel p d = (some v, e)) :
    linkTransmit p false d = sendNew p v e := by
  simp [linkTransmit, hup, hidle, hpick]

theorem linkTransmit_of_null (hidle : (getPort p d).resend = 0) (hpick : pickChannel p d = (none, e)) :
    linkTransmit p false d = emitFlit p none e := by
  simp [linkTransmit, hup, hidle, hpick]

end

/-- A slot whose flit due again is spoilt is the slot of the device that has dropped its packet. -/
theorem exec_transmit_of_dropped {s : State} (hp : p < 9) (hup : (getPort p s.dev).state = 2)
    (hdue : 0 < (getPort p s.dev).resend) (h : dropReplayed p s.dev = e) :
    exec (.linkFlitTransmit p true) s = exec (.linkFlitTransmit p false) { s with dev := e } := by
  have answers (b : Bool) (u : State) : Answers (.linkFlitTransmit p b) u (linkTransmit p b u.dev) :=
    answers_onDev (decide_eq_true hp) rfl rfl
  calc exec (.linkFlitTransmit p true) s
    _ = .next { s with dev := settle (linkTransmit p true s.dev) } := answers true s
    _ = .next { s with dev := settle (linkTransmit p false e) } := by rw [linkTransmit_of_spoilt hup hdue, h]
    _ = exec (.linkFlitTransmit p false) { s with dev := e } := (answers false { s with dev := e }).symm

/-! ## A flit that is sent again -/

section
variable {g : HeldFlit}

/-- The oldest flit that is to be sent again, `g`, has been taken up again at time `now`. -/
def Port.retaken (x : Port) (g : HeldFlit) (now : Nat) : Port := { x with
  replay := x.replay.set (x.replay.length - x.resend) { g with retakes := g.retakes + 1 }
  resend := x.resend - 1, timerAt := now }

variable (hg : (getPort p d).replay[(getPort p d).replay.length - (getPort p d).resend]? = some g)
include hg

theorem resendFlit_of_held : resendFlit p d = emitFlit p (some { g with retakes := g.retakes + 1 })
    (bumpPort p 3 (setPort p ((getPort p d).retaken g d.now) d)) := by
  simp only [resendFlit, hg, Port.retaken]

theorem resendFlit_net : (resendFlit p d).net = d.net := by
  rw [resendFlit_of_held hg, emitFlit_net, bumpPort_net, setPort_net]

theorem resendFlit_becomes : ∃ nak n, PortBecomes p (((getPort p d).retaken g d.now).sent nak n) d (resendFlit p d) := by
  rw [resendFlit_of_held hg]
  exact ((setPort_becomes p _ d).bump 3).emitFlit _

end

/-! ## New data -/

section
variable {v w : Nat} {b : Bytes} {rest : List Bytes} {sop : Bool}

/-- The data flit of a body that waits first on a channel, the bodies of `rest` being left. -/
def newFlit (x : Port) (v : Nat) (b : Bytes) (rest : List Bytes) (sop : Bool) : HeldFlit :=
  { fseq := x.fseq, vc := v, sop := sop, eop := rest.isEmpty, body := b, retakes := 0 }

/-- The port has taken that flit up for replay at time `now`; the packet was queued at `w`. -/
def Port.sending (x : Port) (now v w : Nat) (b : Bytes) (rest : List Bytes) (sop : Bool) : Port := { x with
  fseq := (x.fseq + 1) % 65536
  timerAt := if x.replay.isEmpty then now else x.timerAt
  replay := x.replay ++ [newFlit x v b rest sop]
  txLeft := Sparse.set (0, []) x.txLeft v (w, rest)
  rrNext := if rest.isEmpty then x.rrNext ^^^ 2 ^ (v / 2) * (if bitsOf x.rrNext (v / 2) 1 = v % 2 then 1 else 0)
    else x.rrNext }

/-- The flit has left its queue, and has taken a credit. -/
def newTaken (p v w : Nat) (b : Bytes) (rest : List Bytes) (sop : Bool) (d : Dev) : Dev := { d with
  ports := Sparse.set {} d.ports p ((getPort p d).sending d.now v w b rest sop)
  net.credits := Sparse.modify 0 d.net.credits (8 * p + v) (· + 1)
  net.outQ := if sop then Sparse.modify [] d.net.outQ (8 * p + v) (·.drop 1) else d.net.outQ }

theorem newTaken_becomes :
    PortBecomes p ((getPort p d).sending d.now v w b rest sop) d (newTaken p v w b rest sop d) :=
  setPort_becomes p _ d

/-- The time from which a port has nothing to send is noted. -/
def emptyNoted (p : Nat) (d : Dev) : Dev :=
  if outputEmpty p d then modPort p (fun x => { x with emptySince := d.now }) d else d

theorem emptyNoted_net (p : Nat) (d : Dev) : (emptyNoted p d).net = d.net := by
  unfold emptyNoted
  split
  next => exact modPort_net p _ d
  next => rfl

theorem PortBecomes.emptyNoted (h : PortBecomes p x d e) :
    ∃ t, PortBecomes p { x with emptySince := t } d (emptyNoted p e) := by
  unfold Machine.emptyNoted
  split
  next => exact ⟨_, h.modPort fun x => { x with emptySince := e.now }⟩
  next => exact ⟨x.emptySince, h⟩

variable (hwait : waitingFlits p v d = (w, b :: rest, sop))
include hwait

theorem sendNew_of_waiting : sendNew p v d =
    emitFlit p (some (newFlit (getPort p d) v b rest sop)) (emptyNoted p (newTaken p v w b rest sop d)) := by
  simp only [sendNew, hwait]
  rfl

theorem sendNew_credits : (sendNew p v d).net.credits = Sparse.modify 0 d.net.credits (8 * p + v) (· + 1) := by
  rw [sendNew_of_waiting hwait, emitFlit_net, emptyNoted_net, newTaken]

theorem sendNew_becomes : ∃ nak n t,
    PortBecomes p (Port.sent { (getPort p d).sending d.now v w b rest sop with emptySince := t } nak n) d (sendNew p v d) := by
  obtain ⟨t, noted⟩ := (newTaken_becomes (p := p) (v := v) (w := w) (b := b) (rest := rest) (sop := sop) (d := d)).emptyNoted
  rw [sendNew_of_waiting hwait]
  obtain ⟨nak, n, gone⟩ := noted.emitFlit (some (newFlit (getPort p d) v b rest sop))
  exact ⟨nak, n, t, gone⟩

theorem takenFlits_sendNew (u : Nat) :
    takenFlits p u (sendNew p v d) = if u = v then takenFlits p v d + 1 else takenFlits p u d := by
  rw [takenFlits, sendNew_credits hwait, Sparse.modify, Sparse.get_set, takenFlits, takenFlits]
  simp only [Nat.add_left_cancel_iff]

end

/-! ## A packet that leaves the replay buffer (R288) -/

theorem heldPackets_head (g : HeldFlit) (l : List HeldFlit) : ∃ r gs, heldPackets (g :: l) = (g :: r) :: gs := by
  rw [heldPackets]
  split
  next => exact ⟨_, _, rfl⟩
  next =>
    split
    · exact ⟨_, _, rfl⟩
    · exact ⟨_, _, rfl⟩

/-- Where every later flit starts a packet, a flit is a packet of its own. -/
theorem heldPackets_of_starts (g : HeldFlit) {l : List HeldFlit} (h : ∀ a ∈ l, a.sop = true) :
    heldPackets (g :: l) = [g] :: heldPackets l := by
  cases l with
  | nil => rfl
  | cons a l =>
    obtain ⟨r, gs, hl⟩ := heldPackets_head a l
    have starts : a.sop = true := h a (.head _)
    rw [heldPackets, hl]
    simp [starts]

/-- A packet of one flit at the front of the replay buffer of port `p` has left it; `rest` is due again. -/
def frontGone (p : Nat) (rest : List HeldFlit) (d : Dev) : Dev :=
  setPort p { getPort p d with replay := rest, resend := rest.length } d

theorem copyUnits_setPort (a : Packet) (p : Nat) (x : Port) (d : Dev) : copyUnits a (setPort p x d) = copyUnits a d := rfl

/-- Where the packet due again is one flit, it alone is lost. -/
theorem dropReplayed_of_whole_packet {g : HeldFlit} {rest : List HeldFlit} (heop : g.eop = true)
    (hreplay : (getPort p d).replay = g :: rest) (hresend : (getPort p d).resend = rest.length + 1)
    (hrest : ∀ a ∈ rest, a.fseq ≠ g.fseq ∧ a.sop = true) (hpackets : carriesRecords p g.vc = false) :
    dropReplayed p d = raise 4 evFabricUe (srcPort p) (countUnits (parsePacket g.body).ep
      (copyUnits (parsePacket g.body) (frontGone p rest d)) (frontGone p rest d)) := by
  have first : (g :: rest)[(g :: rest).length - (rest.length + 1)]? = some g := by simp
  have packet : ((heldPackets ((g :: rest).filter (·.vc == g.vc))).find? fun l => l.contains g) = some [g] := by
    rw [List.filter_cons_of_pos (by simp), heldPackets_of_starts g fun a ha => (hrest a (List.mem_filter.1 ha).1).2]
    simp
  have stays : (g :: rest).filter (fun a => !([g].contains a)) = rest := by
    rw [List.filter_cons_of_neg (by simp), List.filter_eq_self]
    intro a ha
    have other : a ≠ g := fun h => (hrest a ha).1 (h ▸ rfl)
    simp [other]
  have start : (g :: rest).drop ((g :: rest).length - (rest.length + 1)) = g :: rest := by simp
  simp only [dropReplayed, hreplay, hresend, first, packet, Option.getD_some, start, stays]
  simp [heop, hpackets, frontGone, copyUnits_setPort]

/-! ## A flit that arrives (R272 to R275) -/

section
variable {bs body : Bytes} {es : List Nat} {vc fseq : Nat} {sop eop : Bool}

theorem linkReceive_of_not_up (h : (getPort p d).state ≠ 2) : linkReceive p bs es d = d := if_pos h

theorem linkReceive_of_electrical (hup : (getPort p d).state = 2) (h : isOptical p = false) :
    linkReceive p bs es d = flitIn p false (padTo 80 bs) d := by
  simp [linkReceive, hup, h]

theorem linkReceive_of_optical (hup : (getPort p d).state = 2) (h : isOptical p = true) : linkReceive p bs es d =
    (List.range 8).foldl (fun e i => flitIn p (decide (15 < es.length)) (padTo 80 (bs.drop (80 * i))) e) (countFec p es d) := by
  simp only [linkReceive, hup, h, ne_eq, not_true_eq_false, if_false, if_true]

theorem flitIn_of_bad (h : flitGood bs = false) :
    flitIn p false bs d = flitFails p (bumpPort p 1 (raise 0 evLinkCrc (srcPort p) d)) := by
  simp [flitIn, h]

/-- The link header of a flit. -/
def flitHeader (bs : Bytes) : Nat := leNat (bs.take 12)

/-- The acknowledgement and the two counts of freed flits that a header carries have been taken. -/
def headerTaken (p h : Nat) (d : Dev) : Dev :=
  creditReturn p (bitsOf h 51 3) (bitsOf h 54 8) (creditReturn p (bitsOf h 40 3) (bitsOf h 43 8) (takeAck p (bitsOf h 24 16) d))

theorem flitIn_of_good (h : flitGood bs = true) (hnak : bitOf (flitHeader bs) 7 = false) : flitIn p false bs d =
    if bitsOf (flitHeader bs) 0 2 = 0 then
      dataFlit p (bitsOf (flitHeader bs) 2 3) (bitsOf (flitHeader bs) 8 16) (bitOf (flitHeader bs) 5) (bitOf (flitHeader bs) 6)
        ((bs.drop 12).take 64) (headerTaken p (flitHeader bs) d)
    else headerTaken p (flitHeader bs) d := by
  unfold flitHeader at *
  simp [flitIn, h, hnak, headerTaken]

/-! ## A data flit (R275) -/

theorem rewindPartial_of_none (h : Sparse.get [] (getPort p d).partials vc = []) : rewindPartial p vc sop d = d := by
  simp [rewindPartial, h]

section
variable (hseq : fseq = (getPort p d).expect) (hnone : Sparse.get [] (getPort p d).partials vc = [])
include hseq hnone

theorem dataFlit_of_whole_packet (hpackets : carriesRecords p vc = false) : dataFlit p vc fseq true true body d =
    { setPort p { getPort p d with
        expect := ((getPort p d).expect + 1) % 65536, discarding := false
        partials := Sparse.set [] (getPort p d).partials vc [], committedEop := (getPort p d).expect } d with
      net.inQ := Sparse.modify [] d.net.inQ (8 * p + vc) (· ++ [parsePacket body]) } := by
  subst hseq
  simp [dataFlit, rewindPartial_of_none hnone, packetIn, hpackets]

theorem dataFlit_of_start : dataFlit p vc fseq true false body d =
    setPort p { getPort p d with
      expect := ((getPort p d).expect + 1) % 65536, discarding := false
      partials := Sparse.set [] (getPort p d).partials vc body } d := by
  subst hseq
  simp [dataFlit, rewindPartial_of_none hnone]

end

section
variable (hseq : fseq ≠ (getPort p d).expect)
include hseq

/-- A flit that has been taken before is passed over. -/
theorem dataFlit_of_past (h : ((getPort p d).expect + 65536 - fseq) % 65536 < 32768) :
    dataFlit p vc fseq sop eop body d = d := by
  simp only [dataFlit, if_neg hseq, if_pos h]

/-- A flit ahead of the expected one says that others are lost. -/
theorem dataFlit_of_ahead (h : 32768 ≤ ((getPort p d).expect + 65536 - fseq) % 65536) :
    dataFlit p vc fseq sop eop body d = flitFails p d := by
  simp only [dataFlit, if_neg hseq, if_neg (Nat.not_lt.2 h)]

end
end

/-! ## Replay (R275 to R277) -/

section
variable {ack : Nat}

theorem nakReceive_of_not_up (h : (getPort p d).state ≠ 2) : nakReceive p ack d = d := if_neg h

theorem takeAck_of_none_covered (h : coveredFlits ack (getPort p d).replay = 0) : takeAck p ack d = d := if_pos (.inl h)

theorem nakReceive_of_none_covered (hup : (getPort p d).state = 2) (h : coveredFlits ack (getPort p d).replay = 0) :
    nakReceive p ack d = replayAfter p ack d := by
  rw [nakReceive, if_pos hup, takeAck_of_none_covered h]

section
variable (hnone : coveredFlits ack (getPort p d).replay = 0)
include hnone

theorem replayAfter_of_below_limit (h : ∀ g ∈ (getPort p d).replay, g.retakes < dictGet (0x4000 + p) 6 d) :
    replayAfter p ack d = setPort p { getPort p d with resend := (getPort p d).replay.length, timerAt := d.now } d := by
  have below : (getPort p d).replay.any (fun g => decide (dictGet (0x4000 + p) 6 d ≤ g.retakes)) = false :=
    List.any_eq_false.2 fun g hg => by simp [h g hg]
  simp only [replayAfter, hnone, List.drop_zero, below, Bool.false_eq_true, if_false]

theorem replayAfter_of_at_limit (h : ∃ g ∈ (getPort p d).replay, dictGet (0x4000 + p) 6 d ≤ g.retakes) :
    replayAfter p ack d = startRetrain p (sendSet p 4 0 d) := by
  have reached : (getPort p d).replay.any (fun g => decide (dictGet (0x4000 + p) 6 d ≤ g.retakes)) = true :=
    List.any_eq_true.2 (h.imp fun g hg => ⟨hg.1, decide_eq_true hg.2⟩)
  simp only [replayAfter, hnone, List.drop_zero, reached, if_true, retrainAndAsk]

end

/-- A held flit is unacknowledged, and none is being sent again. -/
abbrev replayWaits (x : Port) : Prop := coveredFlits x.ackedTo x.replay < x.replay.length ∧ x.resend = 0

/-- The replay timer has run out. -/
abbrev replayLate (p : Nat) (d : Dev) : Prop :=
  2 * filteredDelay p d + 2000 * (fecDelay p : Int) + 96000 ≤ (((d.now - (getPort p d).timerAt) * 50 : Nat) : Int)

theorem replayTimer_of_due (hup : (getPort p d).state = 2) (hwaits : replayWaits (getPort p d)) (hlate : replayLate p d) :
    replayTimer p d = replayAfter p (getPort p d).ackedTo (bumpPort p 4 d) :=
  if_pos ⟨hup, by simpa using hwaits, hlate⟩

theorem replayTimer_of_not_due (h : (getPort p d).state ≠ 2 ∨ ¬ replayWaits (getPort p d) ∨ ¬ replayLate p d) :
    replayTimer p d = d := by
  refine if_neg fun ⟨hup, hwaits, hlate⟩ => ?_
  rcases h with hdown | hidle | hearly
  · exact hdown hup
  · exact hidle (by simpa using hwaits)
  · exact hearly hlate

end

end Sys2Proof.Machine

namespace Sys2Proof.Proofs
open Sys2Proof.Machine

/-- Settles O49: a slot by what is due again and what is waiting, a flit that arrives by its CRC, its kind and its FSEQ, a NAK by
the retakes of what is held and the replay timer by its time. -/
theorem linkFlits : Obligations.LinkFlits := by
  unfold Obligations.LinkFlits
  rintro s _ p rfl hp
  have unit : decide (p < 9) = true := decide_eq_true hp
  have transmits {b : Bool} {d' : Dev} (h : linkTransmit p b s.dev = d') : Answers (.linkFlitTransmit p b) s d' :=
    answers_onDev unit rfl h
  have receives {bs : Bytes} {es : List Nat} {d' : Dev} (h : linkReceive p bs es s.dev = d') :
      Answers (.linkFlitReceive p bs es) s d' := answers_onDev unit rfl h
  have naks {a : Nat} {d' : Dev} (h : nakReceive p (a % 65536) s.dev = d') : Answers (.nakReceive p a) s d' :=
    answers_onDev unit rfl h
  have expires {d' : Dev} (h : replayTimer p s.dev = d') : Answers (.replayTimerExpiry p) s d' := answers_onDev unit rfl h
  refine ⟨fun hdown => ?down, fun g hup hresend _ hg => ?again,
    fun g rest hup _ heop hreplay hresend hrest hpackets => ?spoilt, fun v w b rest sop hup hidle hpick hwait => ?new,
    fun e hup hidle hpick => transmits (linkTransmit_of_null hup hidle hpick), fun bs es hup helectrical => ?flit,
    fun bs es hup hoptical => receives (linkReceive_of_optical hup hoptical), fun a ha hup hnone => ?nak,
    fun hup hwaits hlate => expires (replayTimer_of_due hup hwaits hlate),
    fun hnot => expires (replayTimer_of_not_due (.inr hnot))⟩
  case down =>
    exact ⟨fun b => transmits (linkTransmit_of_not_up hdown), fun bs es => receives (linkReceive_of_not_up hdown),
      fun a => naks (nakReceive_of_not_up hdown), expires (replayTimer_of_not_due (.inl hdown))⟩
  case again =>
    obtain ⟨nak, n, sent⟩ := resendFlit_becomes hg
    refine completes_onDev unit rfl ?_
    rw [linkTransmit_of_resend hup hresend]
    have same := sent.settle.same
    exact ⟨(congrArg Port.resend same :), (congrArg Port.fseq same :), (congrArg Port.replay same :), resendFlit_net hg,
      sent.settle.others⟩
  case spoilt =>
    have due : 0 < (getPort p s.dev).resend := by omega
    exact exec_transmit_of_dropped hp hup due (dropReplayed_of_whole_packet heop hreplay hresend hrest hpackets)
  case new =>
    obtain ⟨nak, n, t, sent⟩ := sendNew_becomes hwait
    refine completes_onDev unit rfl ?_
    rw [linkTransmit_of_new hup hidle hpick]
    have same := sent.settle.same
    exact ⟨(congrArg Port.fseq same :), (congrArg Port.replay same :),
      (takenFlits_sendNew hwait v).trans (if_pos rfl), fun u _ hu => (takenFlits_sendNew hwait u).trans (if_neg hu),
      sent.settle.others⟩
  case flit =>
    have flits {d' : Dev} (h : flitIn p false (padTo 80 bs) s.dev = d') : Answers (.linkFlitReceive p bs es) s d' :=
      receives ((linkReceive_of_electrical hup helectrical).trans h)
    refine ⟨fun hbad => flits (flitIn_of_bad hbad), fun hgood hnak => ?_⟩
    have header := flitIn_of_good (p := p) (d := s.dev) hgood hnak
    have data {d' : Dev} (hkind : bitsOf (flitHeader (padTo 80 bs)) 0 2 = 0) (h : dataFlit p
        (bitsOf (flitHeader (padTo 80 bs)) 2 3) (bitsOf (flitHeader (padTo 80 bs)) 8 16)
        (bitOf (flitHeader (padTo 80 bs)) 5) (bitOf (flitHeader (padTo 80 bs)) 6) (((padTo 80 bs).drop 12).take 64)
        (headerTaken p (flitHeader (padTo 80 bs)) s.dev) = d') : Answers (.linkFlitReceive p bs es) s d' :=
      flits ((header.trans (if_pos hkind)).trans h)
    refine ⟨fun hkind => flits (header.trans (if_neg hkind)), fun hkind hseq hsop heop hpackets hnone => data hkind ?_,
      fun hkind hseq hsop heop hnone => data hkind ?_, fun hkind hseq =>
        ⟨fun hpast => data hkind (dataFlit_of_past hseq hpast), fun hahead => data hkind (dataFlit_of_ahead hseq hahead)⟩⟩
    · rw [flitHeader, hsop, heop]
      exact dataFlit_of_whole_packet hseq hnone hpackets
    · rw [flitHeader, hsop, heop]
      exact dataFlit_of_start hseq hnone
  case nak =>
    rw [← Nat.mod_eq_of_lt ha] at hnone
    have replays := nakReceive_of_none_covered hup hnone
    exact ⟨fun hbelow => naks (replays.trans (replayAfter_of_below_limit hnone hbelow)),
      fun hlimit => naks (replays.trans (replayAfter_of_at_limit hnone hlimit))⟩

end Sys2Proof.Proofs
end

section
/-!
PROOFS. What an access of a tenant's space, an add to a pool counter and the completion of an operation leave: the state of
the remote transactions (R169 to R176, R190, R262, R323).
-/
namespace Sys2Proof.Machine

/-! ## Folds and events -/

/-- A walk whose every step leaves the remote transactions of the device it carries leaves them. -/
theorem foldl_rem {α β : Type} (dev : α → Dev) {f : α → β → α} (h : ∀ a b, (dev (f a b)).rem = (dev a).rem) (l : List β)
    (a : α) : (dev (l.foldl f a)).rem = (dev a).rem := by
  induction l generalizing a with
  | nil => rfl
  | cons b l ih => exact (ih _).trans (h a b)

section
variable (d : Dev)

@[simp] theorem raiseEvent_rem (e : Event) : (raiseEvent e d).rem = d.rem := by rw [raiseEvent_frame]

@[simp] theorem raise_rem (cls num src detail : Nat) : (raise cls num src d detail).rem = d.rem := raiseEvent_rem d _

@[simp] theorem raiseT_rem (cls num src t detail : Nat) : (raiseT cls num src t d detail).rem = d.rem := raiseEvent_rem d _

@[simp] theorem faultRun_rem (cls num src t detail : Nat) : (faultRun cls num src t d detail).rem = d.rem := by
  unfold faultRun
  extract_lets r d1
  split <;> exact raiseEvent_rem d _

@[simp] theorem mirrorSend_rem (m : MirrorRec) : (mirrorSend m d).rem = d.rem := by rw [mirrorSend_frame]

/-! ## Physical memory (R174, R176) -/

@[simp] theorem countCorrected_rem (a : Nat) : (countCorrected a d).rem = d.rem := by
  unfold countCorrected
  split <;> exact raise_rem _ _ _ _ _

@[simp] theorem countUncorrectable_rem (a : Nat) : (countUncorrectable a d).rem = d.rem := by
  unfold countUncorrectable
  split <;> rfl

@[simp] theorem physRead_rem (a n : Nat) : (physRead a n d).2.2.rem = d.rem := by
  refine foldl_rem id (fun e p => ?_) _ d
  split
  · exact countCorrected_rem _ _
  · rfl

@[simp] theorem tableRead_rem (a : Nat) : (tableRead a d).2.2.rem = d.rem := by
  unfold tableRead
  extract_lets r
  have read : r.2.2.rem = d.rem := physRead_rem d a 8
  split
  · exact (countUncorrectable_rem _ _).trans read
  · exact read

/-! ## The walk and the caches (R169 to R172) -/

@[simp] theorem walk3_rem (t va e2 : Nat) (upper : List Cached) (clean : Bool) : (walk3 t va e2 upper clean d).dev.rem = d.rem :=
  tableRead_rem d _

@[simp] theorem walk2_rem (t va e1 : Nat) (upper : List Cached) (clean : Bool) :
    (walk2 t va e1 upper clean d).dev.rem = d.rem := by
  simp only [walk2, apply_ite Walked.dev, apply_ite Dev.rem, walk3_rem, tableRead_rem, ite_self]

@[simp] theorem walk1_rem (t va : Nat) : (walk1 t va d).dev.rem = d.rem := by
  simp only [walk1, apply_ite Walked.dev, apply_ite Dev.rem, walk2_rem, tableRead_rem, ite_self]

@[simp] theorem cacheFill_rem (size : Nat) (x : Cached) (l : List Cached) : (cacheFill size x l d).2.rem = d.rem := by
  unfold cacheFill
  extract_lets l1 v
  split
  · rfl
  · split <;> rfl

@[simp] theorem fillTlb_rem (w : Nat) (x : Cached) : (fillTlb w x d).rem = d.rem := cacheFill_rem d _ _ _

@[simp] theorem fillWalks_rem (die : Nat) (x : Cached) : (fillWalks die x d).rem = d.rem := cacheFill_rem d _ _ _

theorem stillHeld_rem {fresh : Cached → Bool} {evict : Cached → Dev → Dev} (h : ∀ x d, (evict x d).rem = d.rem)
    (l : List Cached) : (stillHeld fresh evict l d).2.rem = d.rem := by
  induction l generalizing d with
  | nil => rfl
  | cons x l ih =>
    unfold stillHeld
    extract_lets f
    split
    · rfl
    · split
      · rfl
      · exact (ih _).trans (h x f.2)

@[simp] theorem tlbHit_rem (w t va : Nat) (fresh : Cached → Bool) : (tlbHit w t va fresh d).2.rem = d.rem :=
  stillHeld_rem d (by intros; rfl) _

@[simp] theorem walkHit_rem (die bits t va : Nat) (fresh : Cached → Bool) : (walkHit die bits t va fresh d).2.rem = d.rem :=
  stillHeld_rem d (by intros; rfl) _

@[simp] theorem cachedWalk_rem (die t va : Nat) (fresh : Cached → Bool) : (cachedWalk die t va fresh d).dev.rem = d.rem := by
  unfold cachedWalk
  extract_lets h2 h1
  split
  · simp only [walk3_rem, h2, walkHit_rem]
  · split <;> simp only [walk2_rem, walk1_rem, h1, h2, walkHit_rem]

@[simp] theorem translate_rem (w t va : Nat) (write : Bool) : (translate w t va write d).2.rem = d.rem := by
  unfold translate
  extract_lets now leafNow h g r p d1
  have hit : h.2.rem = d.rem := tlbHit_rem d _ _ _ _
  have dieHit : g.2.rem = d.rem := by
    simp only [g]
    split
    · exact (tlbHit_rem _ _ _ _ _).trans hit
    · exact hit
  have walked : r.dev.rem = d.rem := (cachedWalk_rem _ _ _ _ _).trans dieHit
  split
  · exact hit
  · split
    · dsimp only
      split
      · exact dieHit
      · exact (fillTlb_rem _ _ _).trans dieHit
    · split
      · exact walked
      · exact walked
      · extract_lets d2
        have upper : d1.rem = d.rem := (foldl_rem id (fun _ _ => fillWalks_rem _ _ _) _ _).trans walked
        have shared : d2.rem = d.rem := by
          simp only [d2]
          split
          · exact (fillTlb_rem _ _ _).trans upper
          · exact upper
        exact (fillTlb_rem _ _ _).trans shared

@[simp] theorem place_rem (w t ctx va : Nat) (write : Bool) : (place w t ctx va write d).2.rem = d.rem := by
  unfold place
  split
  · rfl
  · split
    · exact translate_rem d _ _ _ _
    · split
      · rfl
      · split <;> rfl

/-! ## Reads of a tenant's space (R422, R323) -/

@[simp] theorem hostFetch_rem (fn addr n : Nat) : (hostFetch fn addr n d).2.2.rem = d.rem := by
  unfold hostFetch
  extract_lets mine
  split
  · rfl
  · split
    · rfl
    · split
      · rfl
      · split <;> rfl

@[simp] theorem askRepair_rem (t va pa : Nat) : (askRepair t va pa d).rem = d.rem := by
  unfold askRepair
  extract_lets line
  split
  · rfl
  · split
    · rfl
    · exact mirrorSend_rem _ _

@[simp] theorem meetUe_rem (t va pa n : Nat) : (meetUe t va pa n d).2.rem = d.rem := by
  unfold meetUe
  extract_lets bad first
  split
  · exact foldl_rem id (fun _ _ => askRepair_rem _ _ _ _) _ _
  · exact (faultRun_rem _ _ _ _ _ _).trans (countUncorrectable_rem _ _)

@[simp] theorem readChunk_rem (w t ctx va n : Nat) : (readChunk w t ctx va n d).2.2.rem = d.rem := by
  have placed : (place w t ctx va false d).2.rem = d.rem := place_rem d ..
  unfold readChunk
  split <;> rename_i hplace <;> rw [hplace] at placed
  · exact placed
  · exact (hostFetch_rem _ _ _ _).trans placed
  · extract_lets r m
    have read : r.2.2.rem = d.rem := (physRead_rem _ _ _).trans placed
    split
    · exact (meetUe_rem _ _ _ _ _).trans read
    · exact read

@[simp] theorem vaRead_rem (w t ctx va n : Nat) : (vaRead w t ctx va n d).2.2.rem = d.rem := by
  refine foldl_rem (fun acc : Met × Bytes × Dev => acc.2.2) (fun acc c => ?_) _ _
  dsimp only
  split
  · exact readChunk_rem _ _ _ _ _ _
  · exact readChunk_rem _ _ _ _ _ _
  · rfl

/-! ## Adds to pool counters (R190, R199) -/

@[simp] theorem counterUe_rem (t : Nat) (owner : Option Nat) : (counterUe t owner d).rem = d.rem := by
  unfold counterUe
  cases owner
  · exact raise_rem _ _ _ _ _
  · exact faultRun_rem _ _ _ _ _ _

@[simp] theorem poolTouch_rem (i : Nat) : (poolTouch i d).rem = d.rem := by
  unfold poolTouch
  extract_lets e d1
  split
  · rfl
  · split
    · exact raise_rem _ _ _ _ _
    · exact counterUe_rem _ _ _

@[simp] theorem mirrorAdd_rem (t i v : Nat) (keep : Bool) : (mirrorAdd t i v keep d).rem = d.rem := by
  unfold mirrorAdd
  extract_lets ctx
  split
  · exact mirrorSend_rem _ _
  · rfl

@[simp] theorem poolAdd_rem (i v : Nat) (remote : Bool) : (poolAdd i v d remote).2.rem = d.rem := by
  have touched : (poolTouch i d).rem = d.rem := poolTouch_rem d i
  unfold poolAdd
  extract_lets e n d0 d1 d2
  have mirrored : d2.rem = d.rem := by
    simp only [d2]
    split
    · exact (mirrorAdd_rem _ _ _ _ _).trans touched
    · exact touched
  split
  · exact touched
  · split
    · exact touched
    · dsimp only
      split <;> exact mirrored

/-! ## The report of an operation (R262, R305, R306) -/

@[simp] theorem chainOpBytes_rem (x : ChainInst) (op : Nat) : (chainOpBytes x op d).2.2.rem = d.rem := vaRead_rem d ..

@[simp] theorem finishWord_rem (t e number : Nat) (ok : Bool) (status code : Nat) :
    (finishWord t e number ok status d code).rem = d.rem := rfl

@[simp] theorem chainWordDone_rem (x : ChainInst) (ok : Bool) : (chainWordDone x ok d).rem = d.rem := by
  unfold chainWordDone
  split <;> rfl

@[simp] theorem abandonChain_rem (number : Nat) : (abandonChain number d).rem = d.rem := by
  unfold abandonChain
  split
  · rfl
  · exact chainWordDone_rem _ _ _

@[simp] theorem chainOpDone_rem (number op : Nat) : (chainOpDone number op d).rem = d.rem := by
  unfold chainOpDone
  split
  · rfl
  next x _ =>
    extract_lets r sig d0 c d1
    have read : d1.rem = d.rem := chainOpBytes_rem d x op
    split
    · have added := poolAdd_rem d1 (bitsOf sig 0 14) 1 false
      split <;> rename_i hadd <;> rw [hadd] at added
      · exact added.trans read
      · exact (faultRun_rem _ _ _ _ _ _).trans (added.trans read)
    · exact read

@[simp] theorem reportOp_rem (o : Origin) (t rank status acount : Nat) : (reportOp o t rank status acount d).rem = d.rem := by
  unfold reportOp
  extract_lets good
  cases o with
  | word tile number =>
    simp only [finishWord_rem, apply_ite Dev.rem, raiseT_rem, faultRun_rem, ite_self]
  | chain number op =>
    simp only [apply_ite Dev.rem, chainOpDone_rem, abandonChain_rem, raiseT_rem, faultRun_rem, ite_self]

end

end Sys2Proof.Machine
end

section
/-!
PROOFS. Peer records (R253, R256): where a SEQ stands in the window, what a classification, a mark and a fence make of it.
-/
namespace Sys2Proof.Machine

/-! ## Bits -/

theorem bitOf_eq_testBit (n i : Nat) : bitOf n i = n.testBit i := by
  rw [Nat.testBit_eq_decide_div_mod_eq]
  rfl

/-- A bit that is clear is set by adding its weight. -/
theorem bitOf_add_two_pow {n i : Nat} (h : bitOf n i = false) : bitOf (n + 2 ^ i) i = true := by
  rw [bitOf_eq_testBit] at h ⊢
  rw [Nat.add_comm, Nat.testBit_two_pow_add_eq, h]
  rfl

variable {r : PeerRec} {q : Nat}

/-! ## Places of the window -/

/-- SEQ `q` lies above H. -/
abbrev PeerRec.isAhead (r : PeerRec) (q : Nat) : Prop := 0 < (q + 2 ^ 32 - r.h) % 2 ^ 32 ∧ (q + 2 ^ 32 - r.h) % 2 ^ 32 < 2 ^ 31

/-- SEQ `q` has a place in the window. -/
abbrev PeerRec.inWindow (r : PeerRec) (q : Nat) : Prop := ¬ r.isAhead q ∧ r.place q < 4096

/-- H itself has the first place of the window. -/
theorem PeerRec.inWindow_of_h (h : r.h = q) : r.inWindow q := by
  have top : (q + 2 ^ 32 - r.h) % 2 ^ 32 = 0 := by omega
  refine ⟨fun ahead => ?_, ?_⟩
  · omega
  · rw [PeerRec.place]; omega

/-! ## Marks and fences -/

theorem PeerRec.mark_h (r : PeerRec) (q : Nat) : (r.mark q).h = r.h := by
  unfold PeerRec.mark
  split <;> rfl

theorem PeerRec.fence_h (r : PeerRec) (q : Nat) : (r.fence q).h = r.h := by
  unfold PeerRec.fence
  split <;> rfl

theorem PeerRec.place_mark (r : PeerRec) (q x : Nat) : (r.mark q).place x = r.place x := by
  rw [PeerRec.place, PeerRec.mark_h, PeerRec.place]

theorem PeerRec.place_fence (r : PeerRec) (q x : Nat) : (r.fence q).place x = r.place x := by
  rw [PeerRec.place, PeerRec.fence_h, PeerRec.place]

theorem PeerRec.mark_applied (r : PeerRec) (q : Nat) : bitOf (r.mark q).applied (r.place q) = true := by
  unfold PeerRec.mark
  split
  next hset => exact hset
  next hclear => exact bitOf_add_two_pow (Bool.eq_false_iff.2 hclear)

theorem PeerRec.fence_fenced (r : PeerRec) (q : Nat) : bitOf (r.fence q).fenced (r.place q) = true := by
  unfold PeerRec.fence
  split
  next hset => exact hset
  next hclear => exact bitOf_add_two_pow (Bool.eq_false_iff.2 hclear)

theorem PeerRec.inWindow_mark (h : r.inWindow q) : (r.mark q).inWindow q := by
  rwa [PeerRec.inWindow, PeerRec.isAhead, PeerRec.place_mark, PeerRec.mark_h]

theorem PeerRec.inWindow_fence (h : r.inWindow q) : (r.fence q).inWindow q := by
  rwa [PeerRec.inWindow, PeerRec.isAhead, PeerRec.place_fence, PeerRec.fence_h]

/-! ## Classification -/

/-- A pair whose first part is known; stated of any pair, so that a classification need not be evaluated. -/
theorem pair_of_fst {α β : Type} {v : α × β} {a : α} (h : v.1 = a) : v = (a, v.2) := Prod.ext h rfl

theorem PeerRec.classify_of_ahead (h : r.isAhead q) :
    r.classify q = (.apply, r.shift ((q + 2 ^ 32 - r.h) % 2 ^ 32) q) := if_pos h

theorem PeerRec.classify_of_far (hbehind : ¬ r.isAhead q) (h : 4096 ≤ r.place q) : r.classify q = (.old, r) :=
  (if_neg hbehind).trans (if_pos h)

theorem PeerRec.classify_of_inWindow (h : r.inWindow q) : r.classify q =
    if bitOf r.applied (r.place q) || bitOf r.fenced (r.place q) then (.duplicate, r) else (.apply, r) :=
  (if_neg h.1).trans (if_neg (Nat.not_le.2 h.2))

theorem PeerRec.classify_of_seen (h : r.inWindow q)
    (hseen : bitOf r.applied (r.place q) = true ∨ bitOf r.fenced (r.place q) = true) : (r.classify q).1 = .duplicate := by
  rw [PeerRec.classify_of_inWindow h, if_pos (Bool.or_eq_true_iff.2 hseen)]

/-- What is to be applied has a place in the window that its classification leaves. -/
theorem PeerRec.inWindow_of_apply (h : (r.classify q).1 = .apply) : (r.classify q).2.inWindow q := by
  by_cases ahead : r.isAhead q
  · rw [PeerRec.classify_of_ahead ahead]
    exact PeerRec.inWindow_of_h rfl
  · by_cases far : 4096 ≤ r.place q
    · rw [PeerRec.classify_of_far ahead far] at h
      cases h
    · have inside : r.inWindow q := ⟨ahead, Nat.not_le.1 far⟩
      rw [PeerRec.classify_of_inWindow inside]
      split <;> exact inside

/-- A SEQ that has been applied is a duplicate from then on. -/
theorem PeerRec.classify_mark_of_apply (h : (r.classify q).1 = .apply) :
    (((r.classify q).2.mark q).classify q).1 = .duplicate := by
  refine PeerRec.classify_of_seen (PeerRec.inWindow_mark (PeerRec.inWindow_of_apply h)) (.inl ?_)
  rw [PeerRec.place_mark]
  exact PeerRec.mark_applied _ q

/-- A SEQ that has been fenced is a duplicate from then on. -/
theorem PeerRec.classify_fence_of_inWindow (h : r.inWindow q) : ((r.fence q).classify q).1 = .duplicate := by
  refine PeerRec.classify_of_seen (PeerRec.inWindow_fence h) (.inr ?_)
  rw [PeerRec.place_fence]
  exact PeerRec.fence_fenced r q

end Sys2Proof.Machine
end

section
/-!
PROOFS. Remote requests at their target (R255 to R257, R193, R195): what a put, a get, a query and an add make of the device.
-/
namespace Sys2Proof.Machine

variable {p : Packet} {d e : Dev}

/-! ## The rows that take a request -/

def isPut (p : Packet) : Bool := p.typ == 0 && (opcOf p == 0 || opcOf p == 3)
def isGet (p : Packet) : Bool := p.typ == 0 && opcOf p == 1
def isQuery (p : Packet) : Bool := p.typ == 0 && opcOf p == 2
def isAdd (p : Packet) : Bool := p.typ == 2

/-- A row takes the first of its requests that waits, for the rank that it names. -/
def requestRow (f : Packet → Bool) (arrives : Packet → Dev → Dev) (d : Dev) : Dev :=
  match takeLocal f d with
  | none => d
  | some (p, e) => forRank (takenRank p.tenant p.drank e) (arrives p) e

/-- Command `c` takes the requests that satisfy `f`, each of which does what `arrives` says. -/
inductive IsRequestRow : Instr → (Packet → Bool) → (Packet → Dev → Dev) → Prop where
  | put : IsRequestRow .txreqPut isPut putArrives
  | get : IsRequestRow .txreqGet isGet getArrives
  | query : IsRequestRow .txreqQuery isQuery queryArrives
  | add : IsRequestRow .caddPacket isAdd caddArrives

section
variable {c : Instr} {f : Packet → Bool} {arrives : Packet → Dev → Dev}

theorem answers_requestRow (hrow : IsRequestRow c f arrives) {s : State} {d' : Dev} (h : requestRow f arrives s.dev = d') :
    Answers c s d' := by
  cases hrow <;> exact answers_onDev (ok := true) rfl rfl h

theorem requestRow_of_none (h : takeLocal f d = none) : requestRow f arrives d = d := by simp only [requestRow, h]

theorem requestRow_of_own (h : takeLocal f d = some (p, e)) (hown : takenRank p.tenant p.drank e = false) :
    requestRow f arrives d = arrives p e := by
  simp only [requestRow, h, hown]
  rfl

/-- Whatever it asks, a malformed request is discarded and counted. -/
theorem arrives_of_bad (hrow : IsRequestRow c f arrives) (h : requestBad p = true) : arrives p e = bumpRem 5 e := by
  cases hrow <;> exact if_pos h

end

/-! ## The context that a request reaches -/

theorem Met.done_ok : Met.ok.done = true := rfl

theorem targetCtx_of_unheld (h : heldRanks p.tenant e = []) : targetCtx p e = none := by simp [targetCtx, h]

theorem targetCtx_of_held (h : heldRanks p.tenant e ≠ []) : targetCtx p e = some (rankCtx p.tenant p.drank e) := by
  simp [targetCtx, h]

section
variable (hgood : requestBad p = false) (hnone : heldRanks p.tenant e = [])
include hgood hnone

theorem putArrives_of_unheld : putArrives p e = refuse p (putFirst p) 4 e := by
  simp only [putArrives, hgood, targetCtx_of_unheld hnone, Bool.false_eq_true, if_false]

theorem getArrives_of_unheld : getArrives p e = refuse p (bitsOf (blockOf p) 0 32) 4 e := by
  simp only [getArrives, hgood, targetCtx_of_unheld hnone, Bool.false_eq_true, if_false]

theorem queryArrives_of_unheld : queryArrives p e = refuse p (bitsOf (blockOf p) 64 32) 4 e := by
  simp only [queryArrives, hgood, targetCtx_of_unheld hnone, Bool.false_eq_true, if_false]

theorem caddArrives_of_unheld : caddArrives p e =
    refuse p (bitsOf (blockOf p) 0 32) 4 (staleAdd (bitsOf (blockOf p) 50 14) (some p.tenant) e) := by
  simp only [caddArrives, hgood, targetCtx_of_unheld hnone, Bool.false_eq_true, if_false]

end

section
variable {r w : PeerRec} {e1 e2 e3 : Dev}
variable (hgood : requestBad p = false) (hheld : heldRanks p.tenant e ≠ [])
include hgood hheld

/-! ## Puts -/

/-- Every SEQ of a range stands in the window as applied. -/
def allApplied (r : PeerRec) (first n : Nat) : Bool :=
  (seqRange first n).all fun q => decide (r.place q < 4096) && bitOf r.applied (r.place q)

theorem putArrives_of_multicast (hmc : p.mc = true) (hwrite : vaWrite niTlb p.tenant (rankCtx p.tenant p.drank e)
    (bitsOf (blockOf p) 64 48) true (p.payload.drop 16) e = (.ok, e1)) : putArrives p e = e1 := by
  simp only [putArrives, hgood, targetCtx_of_held hheld, hmc, hwrite, Met.done_ok, Bool.false_eq_true, if_false, true_or, if_true,
    Bool.true_or]

section
variable (hmc : p.mc = false) (hseq : bitsOf (blockOf p) 0 32 ≠ 0)
  (hread : readPeer p.tenant (rankCtx p.tenant p.drank e) p.srank e = (.ok, r, e1))
include hmc hseq hread

theorem putArrives_of_old (hold : r.classify (bitsOf (blockOf p) 0 32) = (.old, w)) : putArrives p e = bumpRem 5 e1 := by
  simp only [putArrives, hgood, targetCtx_of_held hheld, hmc, hseq, hread, hold, Met.done_ok, Bool.false_eq_true, if_false,
    or_self, if_true]

/-- A put packet that is applied is answered, where it is the last of its put, by whether all of them have been. -/
theorem putArrives_of_applied (happly : r.classify (bitsOf (blockOf p) 0 32) = (.apply, w))
    (hwrite : vaWrite niTlb p.tenant (rankCtx p.tenant p.drank e) (bitsOf (blockOf p) 64 48) true (p.payload.drop 16) e1 =
      (.ok, e2))
    (hwindow : writeWindow p.tenant (rankCtx p.tenant p.drank e) p.srank (w.mark (bitsOf (blockOf p) 0 32)) e2 = (.ok, e3)) :
    putArrives p e =
      if bitOf (blockOf p) 52 then
        answer true (response p (putFirst p)
          (if allApplied (w.mark (bitsOf (blockOf p) 0 32)) (putFirst p) (bitsOf (blockOf p) 112 11 + 1) then 0 else 1)) e3
      else e3 := by
  have written : (if (r.classify (bitsOf (blockOf p) 0 32)).1 = .duplicate then (Met.ok, bumpRem 4 e1)
      else vaWrite niTlb p.tenant (rankCtx p.tenant p.drank e) (bitsOf (blockOf p) 64 48) true (p.payload.drop 16) e1) =
      (.ok, e2) := by
    rw [happly, hwrite]
    rfl
  unfold allApplied
  simp only [putArrives, hgood, targetCtx_of_held hheld, hmc, hseq, hread, written, Met.done_ok, Bool.false_eq_true, if_false,
    or_self, if_true, Bool.true_and]
  simp only [happly, reduceCtorEq, or_self, if_false, hwindow, Met.done_ok, if_true]

end

/-! ## Gets -/

/-- A get of at most 192 bytes is answered with one packet of data and a response without data. -/
theorem getArrives_of_short {data : Bytes} (hshort : bitsOf (blockOf p) 112 11 < 3)
    (hfetch : vaFetch niTlb p.tenant (rankCtx p.tenant p.drank e) (bitsOf (blockOf p) 64 48)
      ((bitsOf (blockOf p) 112 11 + 1) * 64) e = (.ok, data, e1)) :
    getArrives p e = inject (response p (bitsOf (blockOf p) 0 32) 0)
      (inject (response p (bitsOf (blockOf p) 0 32) 0 (2 ^ 56) (data.take 224)) e1) := by
  have one_piece : ((bitsOf (blockOf p) 112 11 + 1) * 64 + 223) / 224 = 1 := by omega
  simp [getArrives, hgood, targetCtx_of_held hheld, hfetch, one_piece, Met.done_ok, answer]

/-! ## Queries -/

section
variable (hread : readPeer p.tenant (rankCtx p.tenant p.drank e) p.srank e = (.ok, r, e1))
  (htop : (bitsOf (blockOf p) 64 32 + (bitsOf (blockOf p) 112 11 + 1) - 1) % 2 ^ 32 = r.h)
include hread htop

/-- A queried range whose first SEQ has left the window is answered so. -/
theorem queryArrives_of_far (hfar : 4096 ≤ r.place (bitsOf (blockOf p) 64 32)) :
    queryArrives p e = inject (response p (bitsOf (blockOf p) 64 32) 7) (bumpRem 7 e1) := by
  obtain ⟨not_ahead, -⟩ : r.inWindow r.h := PeerRec.inWindow_of_h rfl
  simp only [queryArrives, hgood, targetCtx_of_held hheld, hread, htop, if_neg not_ahead, hfar, Met.done_ok, answer,
    Bool.false_eq_true, if_false, true_or, if_true, Bool.false_and]

/-- The queried SEQs that have not been applied. -/
def missingOf (p : Packet) (r : PeerRec) : List Nat :=
  (seqRange (bitsOf (blockOf p) 64 32) (bitsOf (blockOf p) 112 11 + 1)).filter fun q => !bitOf r.applied (r.place q)

/-- A queried range inside the window is answered once what is missing of it has been fenced. -/
theorem queryArrives_of_inWindow (hnear : r.place (bitsOf (blockOf p) 64 32) < 4096)
    (hwindow : writeWindow p.tenant (rankCtx p.tenant p.drank e) p.srank ((missingOf p r).foldl (fun r q => r.fence q) r)
      (bumpRem 7 e1) = (.ok, e2)) :
    queryArrives p e = answer true (response p (bitsOf (blockOf p) 64 32) (if missingOf p r = [] then 5 else 6)
      ((bitsOf (blockOf p) 112 11 + 1 - (missingOf p r).length) % 1024 * 2 ^ 67)) e2 := by
  obtain ⟨not_ahead, inside⟩ : r.inWindow r.h := PeerRec.inWindow_of_h rfl
  have within : ¬ (4096 ≤ r.place (bitsOf (blockOf p) 64 32) ∨ 4096 ≤ r.place r.h) := by omega
  rw [missingOf] at hwindow ⊢
  simp only [queryArrives, hgood, targetCtx_of_held hheld, hread, htop, if_neg not_ahead, if_neg within, hwindow,
    Met.done_ok, Bool.false_eq_true, if_false, if_true, List.isEmpty_iff]

end

/-! ## Adds -/

theorem caddArrives_of_multicast (hmc : p.mc = true) :
    caddArrives p e = (applyAdd p.tenant (bitsOf (blockOf p) 50 14) (bitsOf (blockOf p) 64 32) e).2 := by
  simp [caddArrives, hgood, targetCtx_of_held hheld, hmc]

end

/-- A put of one packet begins with its own SEQ. -/
theorem putFirst_of_single (h : bitsOf (blockOf p) 112 11 = 0) : putFirst p = bitsOf (blockOf p) 0 32 := by
  have small : bitsOf (blockOf p) 0 32 < 2 ^ 32 := Nat.mod_lt _ (by decide)
  unfold putFirst
  split <;> omega

theorem seqRange_one {q : Nat} (h : q < 2 ^ 32) : seqRange q 1 = [q] := by
  simp only [seqRange, List.range_one, List.map_cons, List.map_nil, Nat.add_zero, Nat.mod_eq_of_lt h]

/-- Once its SEQ is marked, all of a put of one packet is applied. -/
theorem allApplied_of_single {r w : PeerRec} {q : Nat} (hq : q < 2 ^ 32) (happly : r.classify q = (.apply, w)) :
    allApplied (w.mark q) q 1 = true := by
  have inside : w.inWindow q := by simpa [happly] using PeerRec.inWindow_of_apply (r := r) (q := q) (by rw [happly])
  obtain ⟨-, near⟩ := PeerRec.inWindow_mark inside
  have marked := PeerRec.mark_applied w q
  rw [← PeerRec.place_mark w q q] at marked
  simp [allApplied, seqRange_one hq, near, marked]

section
variable {t i v : Nat}

theorem applyAdd_of_foreign (h : ownsPool t i e = false) : applyAdd t i v e = (2, faultRun 1 evCounterRange (srcNi 0) t e) := by
  simp [applyAdd, h]

theorem applyAdd_of_applied {e1 : Dev} (hown : ownsPool t i e = true) (hpos : 0 < v)
    (hadd : poolAdd i v (modTCount (sliceOf i) (fun c => { c with ctrRemote := satAdd 64 c.ctrRemote 1 }) e) true =
      (.applied, e1)) : applyAdd t i v e = (0, e1) := by
  simp [applyAdd, hown, hadd, Nat.ne_of_gt hpos]

end

end Sys2Proof.Machine
end

section
/-!
PROOFS. Remote transactions at their requester (R258 to R263): responses, the timers of an entry, its completion, and the
cache of peer records.
-/
namespace Sys2Proof.Machine

variable {d e : Dev} {p : Packet} {tag typ : Nat}

/-! ## Completion (R262, Table 11.5) -/

theorem getTrack_setTrack_same (tag : Nat) (g : Track) (d : Dev) : getTrack tag (setTrack tag g d) = g :=
  Sparse.get_set_same (α := Track) {} d.rem.track tag g

theorem getTrack_congr (h : e.rem.track = d.rem.track) (tag : Nat) : getTrack tag e = getTrack tag d := by
  rw [getTrack, getTrack, h]

/-- An entry after its operation has completed. -/
def Track.completed (g : Track) (status now : Nat) : Track :=
  if status = 0 ∧ g.attempt = 0 then {} else { g with state := .quar, doneFrame := now, data := [] }

/-- The report of a completed operation leaves the entry as its completion put it. -/
theorem getTrack_completeOp (tag status acount : Nat) (d : Dev) :
    getTrack tag (completeOp tag status acount d) = (getTrack tag d).completed status d.clk.ticksPlaced := by
  unfold completeOp
  extract_lets g g1 d1 r d2
  have noted : d2.rem.track = d1.rem.track := by
    simp only [d2]
    split <;> rfl
  rw [forRank_eq]
  exact (getTrack_congr ((congrArg Remote.track (reportOp_rem d2 ..)).trans noted) tag).trans (getTrack_setTrack_same ..)

/-! ## Responses (R258, R259, R263) -/

/-- The row that takes responses of a type: 1 those of puts, gets and queries, 3 those of adds. -/
theorem answers_takeResponse {c : Instr} (hrow : (c, typ) = (Instr.txrsp, 1) ∨ (c, typ) = (Instr.cack, 3)) {s : State} {d' : Dev}
    (h : takeResponse typ s.dev = d') : Answers c s d' := by
  simp only [Prod.mk.injEq] at hrow
  rcases hrow with ⟨rfl, rfl⟩ | ⟨rfl, rfl⟩ <;> exact answers_onDev (ok := true) rfl rfl h

theorem takeResponse_of_none (h : takeLocal (fun p => p.typ == typ) d = none) : takeResponse typ d = d := by
  simp only [takeResponse, h]

/-- The entry that a response names. -/
def responseTag (p : Packet) : Nat := bitsOf (blockOf p) 32 14

/-- The TSTAT of a response. -/
def responseStat (p : Packet) : Nat := bitsOf (blockOf p) 50 6

/-- Entry `g` is one that response `p` can be for: its tenant, SEQ and kind agree, and its outcome is not yet unknown. -/
abbrev Answered (typ : Nat) (p : Packet) (g : Track) : Prop :=
  g.tenant = p.tenant ∧ g.seq = bitsOf (blockOf p) 0 32 ∧ (typ = 3 → g.kind = 2) ∧ g.unknown = false

/-- The response is of the entry's present attempt. -/
abbrev OfAttempt (p : Packet) (g : Track) : Prop := g.attempt = bitsOf (blockOf p) 46 4

section
variable (htake : takeLocal (fun p => p.typ == typ) d = some (p, e))
include htake

theorem takeResponse_of_reserved (h : 7 < responseStat p) : takeResponse typ d = bumpRem 3 e := by
  rw [responseStat] at h
  simp only [takeResponse, htake, if_pos h]

variable (hstat : responseStat p ≤ 7)
include hstat

theorem takeResponse_of_closed (h : (getTrack (responseTag p) e).open_ = false) : takeResponse typ d = bumpRem 2 e := by
  rw [responseStat] at hstat
  rw [responseTag] at h
  simp only [takeResponse, htake, if_neg (Nat.not_lt.2 hstat), h, true_or, if_true]

variable (hopen : (getTrack (responseTag p) e).open_ = true) (hmine : Answered typ p (getTrack (responseTag p) e))
include hopen hmine

/-- A response to an open entry goes by its attempt and by what the entry waits for. -/
theorem takeResponse_of_open : takeResponse typ d =
    if (getTrack (responseTag p) e).attempt ≠ bitsOf (blockOf p) 46 4 then bumpRem 3 e
    else if (getTrack (responseTag p) e).state = .wait then
      forRank (takenRank (getTrack (responseTag p) e).tenant (getTrack (responseTag p) e).srank e)
        (waitResponse p (responseTag p) (responseStat p)) e
    else if (getTrack (responseTag p) e).state = .resolve then resolveResponse p (responseTag p) (responseStat p) e
    else e := by
  unfold responseTag responseStat at *
  obtain ⟨htenant, hseq, hkind, hknown⟩ := hmine
  have named : ¬ ((getTrack (bitsOf (blockOf p) 32 14) e).open_ = false ∨
      (getTrack (bitsOf (blockOf p) 32 14) e).tenant ≠ p.tenant ∨
      (getTrack (bitsOf (blockOf p) 32 14) e).seq ≠ bitsOf (blockOf p) 0 32 ∨
      (typ = 3 ∧ (getTrack (bitsOf (blockOf p) 32 14) e).kind ≠ 2)) := by
    rintro (hclosed | hother | hother | ⟨htyp, hother⟩)
    · exact Bool.false_ne_true (hclosed.symm.trans hopen)
    · exact hother htenant
    · exact hother hseq
    · exact hother (hkind htyp)
  simp only [takeResponse, htake, if_neg (Nat.not_lt.2 hstat), if_neg named, hknown, Bool.false_eq_true, if_false]

theorem takeResponse_of_stale (h : ¬ OfAttempt p (getTrack (responseTag p) e)) : takeResponse typ d = bumpRem 3 e :=
  (takeResponse_of_open htake hstat hopen hmine).trans (if_pos h)

end

section
variable (htake : takeLocal (fun p => p.typ == typ) d = some (p, e)) (hstat : responseStat p ≤ 7)
  (hmine : Answered typ p (getTrack (responseTag p) e)) (hattempt : OfAttempt p (getTrack (responseTag p) e))
include htake hstat hmine hattempt

theorem takeResponse_of_waiting (hstate : (getTrack (responseTag p) e).state = .wait)
    (hown : takenRank (getTrack (responseTag p) e).tenant (getTrack (responseTag p) e).srank e = false) :
    takeResponse typ d = waitResponse p (responseTag p) (responseStat p) e := by
  have hopen : (getTrack (responseTag p) e).open_ = true := by rw [Track.open_, hstate]; rfl
  rw [takeResponse_of_open htake hstat hopen hmine, if_neg (fun hother => hother hattempt), if_pos hstate, hown]
  rfl

theorem takeResponse_of_resolving (hstate : (getTrack (responseTag p) e).state = .resolve) :
    takeResponse typ d = resolveResponse p (responseTag p) (responseStat p) e := by
  have hopen : (getTrack (responseTag p) e).open_ = true := by rw [Track.open_, hstate]; rfl
  rw [takeResponse_of_open htake hstat hopen hmine, if_neg (fun hother => hother hattempt), if_neg (by rw [hstate]; decide),
    if_pos hstate]

end

theorem waitResponse_of_done (h : (getTrack tag e).kind ≠ 1) : waitResponse p tag 0 e = completeOp tag 0 0 e := if_neg h

theorem waitResponse_of_incomplete (hattempt : (getTrack tag e).attempt < 11) (htime : e.now < deadlineAt (getTrack tag e) e) :
    waitResponse p tag 1 e = replay tag e := if_pos ⟨hattempt, htime⟩

/-! ## The timers of an entry (R258 to R260, Table 11.7) -/

/-- The entry waits for a response, or for a query's. -/
abbrev Track.waits (g : Track) : Prop := g.state = .wait ∧ g.unknown = false
abbrev Track.resolves (g : Track) : Prop := g.state = .resolve ∧ g.unknown = false

theorem responseTimeout_of_due (hwaits : (getTrack tag d).waits) (hattempt : (getTrack tag d).attempt < 11)
    (hdue : (getTrack tag d).attemptTx + respTime (getTrack tag d) d ≤ d.now) (hbefore : d.now < deadlineAt (getTrack tag d) d) :
    responseTimeout tag d = replay tag d := if_pos ⟨hwaits.1, hwaits.2, hattempt, hdue, hbefore⟩

theorem responseTimeout_of_not_due (h : ¬ (getTrack tag d).waits ∨ 11 ≤ (getTrack tag d).attempt ∨
    d.now < (getTrack tag d).attemptTx + respTime (getTrack tag d) d ∨ deadlineAt (getTrack tag d) d ≤ d.now) :
    responseTimeout tag d = d := by
  refine if_neg fun ⟨hstate, hknown, hattempt, hdue, hbefore⟩ => ?_
  rcases h with hidle | hlast | hearly | hover
  · exact hidle ⟨hstate, hknown⟩
  · omega
  · omega
  · omega

section
variable (hwaits : (getTrack tag d).waits) (hdue : deadlineAt (getTrack tag d) d ≤ d.now)
include hwaits hdue

theorem transactionDeadline_of_get (h : (getTrack tag d).kind = 1) :
    transactionDeadline tag d = setTrack tag { getTrack tag d with unknown := true } d :=
  (if_pos ⟨hwaits.1, hwaits.2, hdue⟩).trans (if_pos h)

theorem transactionDeadline_of_other (h : (getTrack tag d).kind ≠ 1) : transactionDeadline tag d =
    sendQuery tag (bumpRem 1 (setTrack tag { getTrack tag d with state := .resolve, resolveAt := d.now } d)) :=
  (if_pos ⟨hwaits.1, hwaits.2, hdue⟩).trans (if_neg h)

end

theorem transactionDeadline_of_not_due (h : ¬ (getTrack tag d).waits ∨ d.now < deadlineAt (getTrack tag d) d) :
    transactionDeadline tag d = d := by
  refine if_neg fun ⟨hstate, hknown, hdue⟩ => ?_
  rcases h with hidle | hearly
  · exact hidle ⟨hstate, hknown⟩
  · omega

theorem queryResend_of_due (hresolves : (getTrack tag d).resolves)
    (hdue : (getTrack tag d).queryAt + respTime (getTrack tag d) d ≤ d.now ∨ (getTrack tag d).queryEpoch ≠ epoch d) :
    queryResend tag d = sendQuery tag d := if_pos ⟨hresolves.1, hresolves.2, hdue⟩

theorem queryResend_of_not_due (h : ¬ (getTrack tag d).resolves ∨
    (d.now < (getTrack tag d).queryAt + respTime (getTrack tag d) d ∧ (getTrack tag d).queryEpoch = epoch d)) :
    queryResend tag d = d := by
  refine if_neg fun ⟨hstate, hknown, hdue⟩ => ?_
  rcases h with hidle | ⟨hearly, hepoch⟩
  · exact hidle ⟨hstate, hknown⟩
  · rcases hdue with hlate | hswitched
    · omega
    · exact hswitched hepoch

/-- An entry in RESOLVE has its resolution time behind it. -/
abbrev resolutionOver (g : Track) (d : Dev) : Prop := g.resolveAt + tenantGet g.tenant 0x35 d * tMs ≤ d.now

theorem resolveTimeout_of_due (hstate : (getTrack tag d).state = .resolve) (hdue : resolutionOver (getTrack tag d) d) :
    resolveTimeout tag d = setTrack tag { getTrack tag d with unknown := true } d := if_pos ⟨hstate, hdue⟩

theorem resolveTimeout_of_not_due (h : (getTrack tag d).state ≠ .resolve ∨ ¬ resolutionOver (getTrack tag d) d) :
    resolveTimeout tag d = d :=
  if_neg fun ⟨hstate, hdue⟩ => h.elim (fun hidle => hidle hstate) fun hearly => hearly hdue

theorem lifetimeHoldExpiry_of_due (hopen : (getTrack tag d).open_ = true) (hunknown : (getTrack tag d).unknown = true)
    (hdue : (getTrack tag d).lastTxFrame + 4 ≤ d.clk.ticksPlaced) : lifetimeHoldExpiry tag d = completeOp tag 3 0 d :=
  if_pos ⟨hopen, hunknown, hdue⟩

theorem lifetimeHoldExpiry_of_not_due (h : (getTrack tag d).unknown = false ∨
    d.clk.ticksPlaced < (getTrack tag d).lastTxFrame + 4) : lifetimeHoldExpiry tag d = d := by
  refine if_neg fun ⟨_, hunknown, hdue⟩ => ?_
  rcases h with hknown | hearly
  · exact Bool.false_ne_true (hknown.symm.trans hunknown)
  · omega

theorem quarantineEnd_of_due (hstate : (getTrack tag d).state = .quar)
    (hdue : (getTrack tag d).doneFrame + 4 ≤ d.clk.ticksPlaced) : quarantineEnd tag d = setTrack tag {} d :=
  if_pos ⟨hstate, hdue⟩

theorem quarantineEnd_of_not_due (h : (getTrack tag d).state ≠ .quar ∨ d.clk.ticksPlaced < (getTrack tag d).doneFrame + 4) :
    quarantineEnd tag d = d :=
  if_neg fun ⟨hstate, hdue⟩ => h.elim (fun hidle => hidle hstate) fun hearly => by omega

/-! ## The cache of peer records (R253) -/

theorem windowCacheFill_of_none (h : d.rem.fillWait = []) : windowCacheFill d = d := by simp only [windowCacheFill, h]

theorem cacheRoom_of_room {α : Type} {c : Table α} (pinned : Table Bool) (d : Dev) (h : c.length < 8192) :
    cacheRoom c pinned d = (c, d) := if_pos h

/-- A peer record that is read enters a cache with room, and is no longer waited for. -/
theorem windowCacheFill_of_room {t srank peer : Nat} {rest : List (Nat × Nat × Nat)} {r : PeerRec}
    (hwait : d.rem.fillWait = (t, srank, peer) :: rest) (hread : readPeer t (rankCtx t srank d) peer d = (.ok, r, e))
    (hroom : e.rem.windowCache.length < 8192) (hpin : Sparse.get false e.net.pinned (rankKey t peer) = false) :
    windowCacheFill d = { e with
      rem.fillWait := rest, rem.windowCache := Sparse.set false e.rem.windowCache (windowKey t srank peer) true } := by
  have room := cacheRoom_of_room e.rem.windowPinned e hroom
  unfold windowCacheFill
  rw [hwait]
  dsimp only
  rw [hread]
  dsimp only
  rw [room, hpin]
  rfl

end Sys2Proof.Machine

namespace Sys2Proof.Proofs
open Sys2Proof.Machine

/-- Settles O46: a SEQ by its place in the window, a request by what stands at its target, a response by its entry, and each
timer by whether its time has come. -/
theorem remoteTransactions : Obligations.RemoteTransactions := by
  unfold Obligations.RemoteTransactions
  refine ⟨fun r q _ happly => PeerRec.classify_mark_of_apply happly,
    fun r q hnear hbehind => PeerRec.classify_fence_of_inWindow ⟨hbehind, hnear⟩, ?_⟩
  rintro s _ rfl
  have idle {c : Instr} {f : Packet → Bool} {arrives : Packet → Dev → Dev} (hrow : IsRequestRow c f arrives)
      (h : takeLocal f s.dev = none) : Answers c s s.dev := answers_requestRow hrow (requestRow_of_none h)
  have takes {c : Instr} {f : Packet → Bool} {arrives : Packet → Dev → Dev} (hrow : IsRequestRow c f arrives) {p : Packet}
      {e d' : Dev} (h : takeLocal f s.dev = some (p, e)) (hown : takenRank p.tenant p.drank e = false)
      (ht : arrives p e = d') : Answers c s d' := answers_requestRow hrow ((requestRow_of_own h hown).trans ht)
  refine ⟨idle .put, idle .get, idle .query, idle .add, fun p e c f hrow htake hown hbad => ?bad,
    fun p e htake hown hgood => ?put, fun p e htake hown hgood => ?get, fun p e htake hown hgood => ?query,
    fun p e htake hown hgood => ?add, fun c typ hrow => ?response, fun tag status acount => getTrack_completeOp ..,
    fun tag htag => ?timers, fun hnone => ?nofill, fun t srank peer rest r e hwait hread hroom hpin => ?fill⟩
  case bad =>
    simp only [Prod.mk.injEq] at hrow
    rcases hrow with ⟨rfl, rfl⟩ | ⟨rfl, rfl⟩ | ⟨rfl, rfl⟩ | ⟨rfl, rfl⟩
    · exact takes .put htake hown (arrives_of_bad .put hbad)
    · exact takes .get htake hown (arrives_of_bad .get hbad)
    · exact takes .query htake hown (arrives_of_bad .query hbad)
    · exact takes .add htake hown (arrives_of_bad .add hbad)
  case put =>
    have puts {d' : Dev} : putArrives p e = d' → Answers .txreqPut s d' := takes .put htake hown
    have small : bitsOf (blockOf p) 0 32 < 2 ^ 32 := Nat.mod_lt _ (by decide)
    refine ⟨fun hnone => puts (putArrives_of_unheld hgood hnone),
      fun hheld hmc e1 hwrite => puts (putArrives_of_multicast hgood hheld hmc hwrite),
      fun hheld hmc hseq r e1 hread => ⟨fun hold => puts (putArrives_of_old hgood hheld hmc hseq hread (pair_of_fst hold)),
        fun e2 e3 happly hwrite hwindow => ?_⟩⟩
    have verdict : r.classify (bitsOf (blockOf p) 0 32) = (.apply, (r.classify (bitsOf (blockOf p) 0 32)).2) :=
      pair_of_fst happly
    have applied := putArrives_of_applied hgood hheld hmc hseq hread verdict hwrite hwindow
    refine ⟨fun hlast => puts (applied.trans (if_neg (Bool.eq_false_iff.1 hlast))), fun hlast hsingle => puts ?_⟩
    rw [applied, if_pos hlast, hsingle, putFirst_of_single hsingle, allApplied_of_single small verdict]
    rfl
  case get =>
    have gets {d' : Dev} : getArrives p e = d' → Answers .txreqGet s d' := takes .get htake hown
    exact ⟨fun hnone => gets (getArrives_of_unheld hgood hnone),
      fun data e1 hheld hshort hfetch => gets (getArrives_of_short hgood hheld hshort hfetch)⟩
  case query =>
    have queries {d' : Dev} : queryArrives p e = d' → Answers .txreqQuery s d' := takes .query htake hown
    exact ⟨fun hnone => queries (queryArrives_of_unheld hgood hnone), fun r e1 hheld hread htop =>
      ⟨fun hfar => queries (queryArrives_of_far hgood hheld hread htop hfar),
        fun e2 hnear hwindow => queries (queryArrives_of_inWindow hgood hheld hread htop hnear hwindow)⟩⟩
  case add =>
    have adds {d' : Dev} : caddArrives p e = d' → Answers .caddPacket s d' := takes .add htake hown
    refine ⟨fun hnone => adds (caddArrives_of_unheld hgood hnone), fun hheld hmc => ?_⟩
    have applies := caddArrives_of_multicast hgood hheld hmc
    exact ⟨fun hforeign => adds (applies.trans (congrArg Prod.snd (applyAdd_of_foreign hforeign))),
      fun e1 hown hpos hadd => adds (applies.trans (congrArg Prod.snd (applyAdd_of_applied hown hpos hadd)))⟩
  case response =>
    have answers {d' : Dev} : takeResponse typ s.dev = d' → Answers c s d' := answers_takeResponse hrow
    refine ⟨fun hnone => answers (takeResponse_of_none hnone), fun p e htake =>
      ⟨fun hreserved => answers (takeResponse_of_reserved htake hreserved),
        fun hstat hclosed => answers (takeResponse_of_closed htake hstat hclosed),
        fun hstat hopen hmine hother => answers (takeResponse_of_stale htake hstat hopen hmine hother),
        fun hmine hattempt hstate hown => ?_, fun hmine hattempt hstate => ?_⟩⟩
    · have waits {n : Nat} {d' : Dev} (hstat : responseStat p = n) (hn : n ≤ 7) (h : waitResponse p (responseTag p) n e = d') :
          Answers c s d' :=
        answers ((takeResponse_of_waiting htake (hstat ▸ hn) hmine hattempt hstate hown).trans (hstat ▸ h))
      exact ⟨fun hstat hkind => waits hstat (by decide) (waitResponse_of_done hkind),
        fun hstat hagain htime => waits hstat (by decide) (waitResponse_of_incomplete hagain htime),
        fun hstat => waits hstat (by decide) rfl, fun hstat => waits hstat (by decide) rfl,
        fun hstat => waits hstat (by decide) rfl⟩
    · have resolves {n : Nat} {d' : Dev} (hstat : responseStat p = n) (hn : n ≤ 7)
          (h : resolveResponse p (responseTag p) n e = d') : Answers c s d' :=
        answers ((takeResponse_of_resolving htake (hstat ▸ hn) hmine hattempt hstate).trans (hstat ▸ h))
      exact ⟨fun hstat => resolves hstat (by decide) rfl, fun hstat => resolves hstat (by decide) rfl,
        fun hstat => resolves hstat (by decide) rfl⟩
  case timers =>
    have unit : tagOk tag = true := decide_eq_true htag
    refine ⟨fun hwaits hattempt hdue hbefore => ?_, fun hnot => ?_, fun hwaits hdue => ⟨fun hget => ?_, fun hother => ?_⟩,
      fun hnot => ?_, fun hresolves hdue => ?_, fun hnot => ?_, fun hstate hdue => ?_, fun hnot => ?_,
      fun hopen hunknown hdue => ?_, fun hnot => ?_, fun hstate hdue => ?_, fun hnot => ?_⟩
    · exact answers_onDev unit rfl (responseTimeout_of_due hwaits hattempt hdue hbefore)
    · exact answers_onDev unit rfl (responseTimeout_of_not_due hnot)
    · exact answers_onDev unit rfl (transactionDeadline_of_get hwaits hdue hget)
    · exact answers_onDev unit rfl (transactionDeadline_of_other hwaits hdue hother)
    · exact answers_onDev unit rfl (transactionDeadline_of_not_due hnot)
    · exact answers_onDev unit rfl (queryResend_of_due hresolves hdue)
    · exact answers_onDev unit rfl (queryResend_of_not_due hnot)
    · exact answers_onDev unit rfl (resolveTimeout_of_due hstate hdue)
    · exact answers_onDev unit rfl (resolveTimeout_of_not_due (hnot.imp id Nat.not_le.2))
    · exact answers_onDev unit rfl (lifetimeHoldExpiry_of_due hopen hunknown hdue)
    · exact answers_onDev unit rfl (lifetimeHoldExpiry_of_not_due hnot)
    · exact answers_onDev unit rfl (quarantineEnd_of_due hstate hdue)
    · exact answers_onDev unit rfl (quarantineEnd_of_not_due hnot)
  case nofill => exact answers_onDev (ok := true) rfl rfl (windowCacheFill_of_none hnone)
  case fill => exact answers_onDev (ok := true) rfl rfl (windowCacheFill_of_room hwait hread hroom hpin)

end Sys2Proof.Proofs
end

section
/-!
PROOFS. Chain operations (R304 to R306, Tables 13.6 and 13.7): the next operation of a chain that has started, as its row meets
it, what each action does, and the end of the chain.
-/
namespace Sys2Proof.Machine

variable {act number : Nat} {d d0 e f g : Dev} {b : Bytes} {x0 x : ChainInst}

/-- The started chain of a number. -/
abbrev chainOf? (number : Nat) (d : Dev) : Option ChainInst := d.coll.chains.find? fun x => x.number == number

/-! ## The rows -/

/-- Command `c` is the row of action `act` for chain `number`. -/
def IsChainRow (number act : Nat) (c : Instr) : Prop :=
  (act, c) = (0, .chainPut number) ∨ (act, c) = (1, .chainAdd number) ∨ (act, c) = (2, .chainHandin number) ∨
    (act, c) = (3, .chainSignal number) ∨ (act, c) = (4, .chainMput number)

theorem exec_chainRow {c : Instr} (hrow : IsChainRow number act c) (s : State) :
    exec c s = onDev true (chainOp act number) s := by
  simp only [IsChainRow, Prod.mk.injEq] at hrow
  rcases hrow with ⟨rfl, rfl⟩ | ⟨rfl, rfl⟩ | ⟨rfl, rfl⟩ | ⟨rfl, rfl⟩ | ⟨rfl, rfl⟩ <;> rfl

theorem chainOp_of_none (act : Nat) (h : chainOf? number d = none) : chainOp act number d = d := by simp only [chainOp, h]

/-- A row for a chain of a run's own rank works in the run frame of the chain. -/
theorem chainOp_of_own (act : Nat) (h : chainOf? number d = some x0) (hctx : rankCtx x0.tenant x0.rank d = 0) :
    chainOp act number d = untagged (chainOpNow act number (tagWork [(0, x0.r)] d)) := by
  simp only [chainOp, h, hctx]
  rfl

/-! ## An operation and its trigger (R305) -/

/-- The action that an operation names. -/
abbrev opAct (b : Bytes) : Nat := fieldAt b 0 1

/-- An operation with its FENCE set begins once every earlier one has completed. -/
abbrev FenceMet (x : ChainInst) (b : Bytes) : Prop := bitOf (fieldAt b 1 1) 0 = false ∨ x.waiting = []

/-- Whether an operation has a trigger, and the wait for it. -/
abbrev triggered (b : Bytes) : Bool := bitOf (fieldAt b 2 2) 15
abbrev triggerWait (number : Nat) (x : ChainInst) (b : Bytes) (e : Dev) : Bool × Dev :=
  poolWait (.chain number) (bitsOf (fieldAt b 2 2) 0 14) (fieldAt b 8 4 + fieldAt b 4 2 * x.r) e

/-- What an operation does that no earlier one holds back: its action, once its trigger is there. -/
def opBegins (number : Nat) (x : ChainInst) (b : Bytes) (e : Dev) : Dev :=
  if triggered b then
    (if (triggerWait number x b e).1 then chainAct x (opAct b) b (triggerWait number x b e).2 else (triggerWait number x b e).2)
  else chainAct x (opAct b) b e

/-- The device in which an operation acts: its trigger, where it has one, is there. -/
abbrev MayAct (number : Nat) (x : ChainInst) (b : Bytes) (e f : Dev) : Prop :=
  (triggered b = false ∧ f = e) ∨ (triggered b = true ∧ triggerWait number x b e = (true, f))

theorem opBegins_of_untriggered (htrigger : triggered b = true) (h : triggerWait number x b e = (false, f)) :
    opBegins number x b e = f := by
  rw [opBegins, if_pos htrigger, h]
  rfl

theorem opBegins_of_mayAct (h : MayAct number x b e f) : opBegins number x b e = chainAct x (opAct b) b f := by
  rcases h with ⟨hnone, rfl⟩ | ⟨htrigger, hwait⟩
  · exact if_neg (Bool.eq_false_iff.1 hnone)
  · rw [opBegins, if_pos htrigger, hwait]
    rfl

/-! ## The end of a chain -/

theorem chainInstanceEnd_of_none (h : chainOf? number d = none) : chainInstanceEnd number d = d := by
  simp only [chainInstanceEnd, h]

section
variable (hx0 : chainOf? number d = some x0) (hsettle : settleMputs x0 d = d0) (hx : chainOf? number d0 = some x)
include hx0 hsettle hx

theorem chainInstanceEnd_of_complete (hissued : x.op = x.count) (hdone : x.waiting = []) : chainInstanceEnd number d =
    autoStarts (chainWordDone x true { d0 with coll.chains := d0.coll.chains.filter fun y => y.number != number }) := by
  have complete : x.op = x.count ∧ x.waiting.isEmpty = true := ⟨hissued, List.isEmpty_iff.2 hdone⟩
  simp only [chainInstanceEnd, hx0, hsettle, hx, if_pos complete]

theorem chainInstanceEnd_of_going (h : x.op ≠ x.count ∨ x.waiting ≠ []) : chainInstanceEnd number d = d0 := by
  have going : ¬ (x.op = x.count ∧ x.waiting.isEmpty = true) :=
    fun ⟨hissued, hdone⟩ => h.elim (fun hleft => hleft hissued) fun hleft => hleft (List.isEmpty_iff.1 hdone)
  simp only [chainInstanceEnd, hx0, hsettle, hx, if_neg going]

/-! ## The next operation of a chain (R305) -/

theorem chainOpNow_of_all_issued (h : x.count ≤ x.op) : chainOpNow act number d = d0 := by
  simp only [chainOpNow, hx0, hsettle, hx, if_pos h]

variable (hnext : x.op < x.count) (hbytes : chainOpBytes x x.op d0 = (.ok, b, e))
include hnext hbytes

/-- Of an operation that can be read, the action, the fence, the ranges and the trigger decide, in this order. -/
theorem chainOpNow_of_read : chainOpNow act number d =
    if opAct b ≠ act ∧ opAct b ≤ 4 then e
    else if bitOf (fieldAt b 1 1) 0 && !x.waiting.isEmpty && chainOpGood x.tenant b e then e
    else if chainOpGood x.tenant b e = false then chainConfig x e
    else opBegins number x b e := by
  simp only [chainOpNow, hx0, hsettle, hx, if_neg (Nat.not_le.2 hnext), hbytes, Met.done_ok, Bool.true_eq_false, if_false,
    opBegins, triggerWait]
  rcases poolWait _ _ _ e with ⟨_ | _, h⟩ <;> rfl

theorem chainOpNow_of_other_row (hother : opAct b ≠ act) (hknown : opAct b ≤ 4) : chainOpNow act number d = e :=
  (chainOpNow_of_read hx0 hsettle hx hnext hbytes).trans (if_pos ⟨hother, hknown⟩)

theorem chainOpNow_of_bad (hmeets : opAct b = act ∨ 4 < opAct b) (hbad : chainOpGood x.tenant b e = false) :
    chainOpNow act number d = chainConfig x e := by
  have meets : ¬ (opAct b ≠ act ∧ opAct b ≤ 4) := by omega
  rw [chainOpNow_of_read hx0 hsettle hx hnext hbytes, if_neg meets, hbad, Bool.and_false, if_neg Bool.false_ne_true, if_pos rfl]

variable (hact : opAct b = act) (hgood : chainOpGood x.tenant b e = true)
include hact hgood

theorem chainOpNow_of_fenced (h : ¬ FenceMet x b) : chainOpNow act number d = e := by
  obtain ⟨hfence, hwaiting⟩ := not_or.1 h
  have held : (bitOf (fieldAt b 1 1) 0 && !x.waiting.isEmpty && chainOpGood x.tenant b e) = true := by
    simp [(Bool.not_eq_false _).mp hfence, hwaiting, hgood]
  rw [chainOpNow_of_read hx0 hsettle hx hnext hbytes, if_neg (fun h => h.1 hact), if_pos held]

variable (hfence : FenceMet x b)
include hfence

theorem chainOpNow_of_free : chainOpNow act number d = opBegins number x b e := by
  have free : ¬ (bitOf (fieldAt b 1 1) 0 && !x.waiting.isEmpty && chainOpGood x.tenant b e) = true := by
    rcases hfence with hclear | hdone
    · simp [hclear]
    · simp [hdone]
  rw [chainOpNow_of_read hx0 hsettle hx hnext hbytes, if_neg (fun h => h.1 hact), if_neg free, hgood, if_neg (by decide)]

end

/-! ## The actions (Table 13.7) -/

section
variable {bs : Bytes} {n : Nat}

/-- The tracked put and the tracked add of an operation. -/
def chainPutOf (x : ChainInst) (b : Bytes) : Track :=
  { tenant := x.tenant, srank := x.rank, rank := fieldAt b 0x0C 4, kind := 0, side := 1
    local_ := bitsOf (fieldAt b 0x10 8) 0 48, remote := fieldAt b 0x18 8, len := (bitsOf (fieldAt b 0x10 8) 48 11 + 1) * 64
    window := x.window + 1, origin := .chain x.number x.op }
def chainAddOf (x : ChainInst) (b : Bytes) : Track :=
  { tenant := x.tenant, srank := x.rank, rank := fieldAt b 0x0C 4, kind := 2, counter := fieldAt b 0x10 8
    value := fieldAt b 0x18 8, origin := .chain x.number x.op }

theorem chainAct_put (h : dispatchOp (chainPutOf x b) (rankCtx x.tenant x.rank f) f = (.sent, g)) :
    chainAct x 0 b f = chainIssued x.number true g := by
  rw [chainPutOf] at h
  simp only [chainAct, h]

theorem chainAct_add (h : dispatchOp (chainAddOf x b) (rankCtx x.tenant x.rank f) f = (.sent, g)) :
    chainAct x 1 b f = chainIssued x.number true g := by
  rw [chainAddOf] at h
  simp only [chainAct, h]

/-- A hand-in that passes its checks hands its bytes in, and is complete at once. -/
theorem chainAct_handin {k : Ctx} {h : Dev} (hctx : liveCtx x.tenant (bitsOf (fieldAt b 0x0C 4) 0 12) f = some k)
    (hcheck : handInCheck x.tenant (rankCtx x.tenant x.rank f) (bitsOf (fieldAt b 0x0C 4) 0 12) (bitsOf (fieldAt b 0x0C 4) 12 16)
      k.segb 16 false true f = .ok)
    (hfetch : vaFetch niTlb x.tenant (rankCtx x.tenant x.rank f) (bitsOf (fieldAt b 0x10 8) 0 48) k.segb f = (.ok, bs, g))
    (hbytes : handInBytes x.tenant (rankCtx x.tenant x.rank f) (bitsOf (fieldAt b 0x0C 4) 0 12)
      (bitsOf (fieldAt b 0x0C 4) 12 16) 0 bs g = (.ok, h)) :
    chainAct x 2 b f = chainOpDone x.number x.op (chainIssued x.number true h) := by
  simp only [chainAct, hctx, hcheck, hfetch, hbytes, Met.done_ok, if_true]

/-- A signal adds to its counter, and is complete at once. -/
theorem chainAct_signal (h : poolAdd (bitsOf (fieldAt b 0x10 8) 0 14) (fieldAt b 0x18 8) f = (.applied, g)) :
    chainAct x 3 b f = chainOpDone x.number x.op (chainIssued x.number true g) := by
  simp only [chainAct, h]

/-- Packets that are injected one after another stand at the end of the queue in their order. -/
theorem foldl_inject_eq (ps : List Packet) (d : Dev) :
    ∃ l : List Packet, l.length = ps.length ∧
      ps.foldl (fun d p => inject p d) d = { d with net.inject := d.net.inject ++ l } := by
  induction ps generalizing d with
  | nil => exact ⟨[], rfl, by rw [List.append_nil]; rfl⟩
  | cons p ps ih =>
    obtain ⟨l, hlength, hfold⟩ := ih (inject p d)
    refine ⟨{ p with src := ownCoord d } :: l, congrArg (· + 1) hlength, hfold.trans ?_⟩
    simp only [inject, List.append_assoc, List.singleton_append]

/-- The packets of a multicast put. -/
def mputPackets (x : ChainInst) (b bs : Bytes) (g : Dev) : List Packet :=
  let n := (bitsOf (fieldAt b 0x10 8) 48 11 + 1) * 64
  let k := (n + 223) / 224
  (List.range k).map fun i =>
    { typ := 0, cls := slotClass x.tenant x.window g, tenant := x.tenant, srank := x.rank, mc := true
      dst := bitsOf (fieldAt b 0x0C 4) 0 12 * 64, window := x.window + 1
      payload := leBytes 16 ((if i + 1 = k then 2 ^ 52 else 0) + (fieldAt b 0x18 8 + 224 * i) % 2 ^ 48 * 2 ^ 64 +
        (k - 1) * 2 ^ 112) ++ (bs.drop (224 * i)).take 224 }

theorem chainAct_mput (h : vaFetch niTlb x.tenant (rankCtx x.tenant x.rank f) (bitsOf (fieldAt b 0x10 8) 0 48)
    ((bitsOf (fieldAt b 0x10 8) 48 11 + 1) * 64) f = (.ok, bs, g)) :
    chainAct x 4 b f = chainIssued x.number true ((mputPackets x b bs g).foldl (fun d p => inject p d) g) := by
  simp only [chainAct, h, Met.done_ok, if_true, mputPackets]

end

end Sys2Proof.Machine

namespace Sys2Proof.Proofs
open Sys2Proof.Machine

/-- Settles O52: a row by the operation that its chain is at, an action by what it dispatches, hands in, adds or sends, and the
end of a chain by what is left of it. -/
theorem chainOperations : Obligations.ChainOperations := by
  unfold Obligations.ChainOperations
  rintro s _ number rfl
  have ends {d' : Dev} : chainInstanceEnd number s.dev = d' → Answers (.chainInstanceEnd number) s d' :=
    answers_onDev (ok := true) rfl rfl
  refine ⟨fun hnone => ⟨fun act c hrow => ?_, ends (chainInstanceEnd_of_none hnone)⟩, fun x0 x d0 hx0 hsettle hx =>
      ⟨fun hissued hdone => ends (chainInstanceEnd_of_complete hx0 hsettle hx hissued hdone),
        fun hleft => ends (chainInstanceEnd_of_going hx0 hsettle hx hleft)⟩,
    fun x0 x d0 hx0 hctx hsettle hx => ?_⟩
  · exact answers_onDev rfl (exec_chainRow hrow s) (chainOp_of_none act hnone)
  have here : chainOf? number (tagWork [(0, x0.r)] s.dev) = some x0 := hx0
  have answers {act : Nat} {c : Instr} (hrow : IsChainRow number act c) {d' : Dev}
      (h : chainOpNow act number (tagWork [(0, x0.r)] s.dev) = d') : Answers c s (untagged d') :=
    answers_onDev rfl (exec_chainRow hrow s) ((chainOp_of_own act hx0 hctx).trans (congrArg untagged h))
  refine ⟨fun hissued act c hrow => answers hrow (chainOpNow_of_all_issued here hsettle hx hissued),
    fun b e hnext hbytes => ⟨fun act c hrow hother hknown => ?_, fun act c hrow hmeets hbad => ?_,
      fun act c hrow hact hgood hfence => ?_, fun act c f hrow hact hgood hfence htrigger hwait => ?_,
      fun f hgood hfence hmay => ?_⟩⟩
  · exact answers hrow (chainOpNow_of_other_row here hsettle hx hnext hbytes hother hknown)
  · exact answers hrow (chainOpNow_of_bad here hsettle hx hnext hbytes hmeets hbad)
  · exact answers hrow (chainOpNow_of_fenced here hsettle hx hnext hbytes hact hgood hfence)
  · exact answers hrow ((chainOpNow_of_free here hsettle hx hnext hbytes hact hgood hfence).trans
      (opBegins_of_untriggered htrigger hwait))
  have acts {act : Nat} (hact : opAct b = act) : chainOpNow act number (tagWork [(0, x0.r)] s.dev) = chainAct x act b f :=
    hact ▸ (chainOpNow_of_free here hsettle hx hnext hbytes rfl hgood hfence).trans (opBegins_of_mayAct hmay)
  refine ⟨fun g hact hsent => answers (.inl rfl) ((acts hact).trans (chainAct_put hsent)),
    fun g hact hsent => answers (.inr (.inl rfl)) ((acts hact).trans (chainAct_add hsent)),
    fun k bs g h hact hlive hcheck hfetch hin =>
      answers (.inr (.inr (.inl rfl))) ((acts hact).trans (chainAct_handin hlive hcheck hfetch hin)),
    fun g hact hadd => answers (.inr (.inr (.inr (.inl rfl)))) ((acts hact).trans (chainAct_signal hadd)),
    fun bs g hact hfetch => ?mput⟩
  case mput =>
    obtain ⟨l, hlength, hfold⟩ := foldl_inject_eq (mputPackets x b bs g) g
    have sent := (acts hact).trans (chainAct_mput hfetch)
    rw [hfold] at sent
    refine ⟨_, answers (.inr (.inr (.inr (.inr rfl)))) sent, ?_, ⟨l, rfl⟩, rfl⟩
    rw [mputPackets, List.length_map, List.length_range] at hlength
    rw [← hlength]
    exact List.length_append

end Sys2Proof.Proofs
end

section
/-!
PROOFS. Training and lanes (chapter 12): what begins and ends a port's training, what its handshake brings up, and the waking,
the sleeping and the noise floor of its lanes (R278 to R287).
-/
namespace Sys2Proof.Machine

variable {d e : Dev} {p l : Nat} {x : Port}

/-! ## What leaves the ports as they are -/

section
variable (d : Dev)

@[simp] theorem raiseEvent_ports (a : Event) : (raiseEvent a d).ports = d.ports := by rw [raiseEvent_frame]

@[simp] theorem raise_ports (cls num src detail : Nat) : (raise cls num src d detail).ports = d.ports := raiseEvent_ports d _

@[simp] theorem raiseEvent_net (a : Event) : (raiseEvent a d).net = d.net := by rw [raiseEvent_frame]

@[simp] theorem raise_net (cls num src detail : Nat) : (raise cls num src d detail).net = d.net := raiseEvent_net d _

@[simp] theorem raise_now (cls num src detail : Nat) : (raise cls num src d detail).now = d.now := by rw [raise, raiseEvent_frame]

@[simp] theorem faultRun_ports (cls num src t detail : Nat) : (faultRun cls num src t d detail).ports = d.ports := by
  unfold faultRun
  extract_lets r d1
  split <;> exact raiseEvent_ports d _

@[simp] theorem sendSet_ports (q ostype : Nat) (set : BitVec 128) : (sendSet q ostype set d).ports = d.ports := by
  unfold sendSet
  split <;> rfl

@[simp] theorem sendSet_net (q ostype : Nat) (set : BitVec 128) : (sendSet q ostype set d).net = d.net := by
  unfold sendSet
  split <;> rfl

@[simp] theorem takeHaltRequest_ports (t : Nat) (q : Stretch) : (takeHaltRequest t q d).ports = d.ports := by
  unfold takeHaltRequest
  extract_lets r
  split
  next => split <;> rfl
  next => rfl

@[simp] theorem takeStretch_ports (t : Nat) (q : Stretch) : (takeStretch t q d).ports = d.ports := by
  unfold takeStretch
  extract_lets r
  split
  next =>
    split
    next =>
      split
      next => exact faultRun_ports d _ _ _ _ _
      next => rfl
    next => rfl
  next => rfl

@[simp] theorem sendStretch_ports (t : Nat) (q : Stretch) : (sendStretch t q d).ports = d.ports := by
  unfold sendStretch
  extract_lets r g d1
  have sent : d1.ports = d.ports := by
    unfold d1
    split <;> rfl
  split
  next => exact (takeHaltRequest_ports d1 t q).trans sent
  next => exact (takeStretch_ports d1 t q).trans sent

@[simp] theorem failoverStretch_ports (logf : Nat) (fin : Bool) : (failoverStretch logf fin d).ports = d.ports :=
  List.foldlRecOn (motive := fun e => e.ports = d.ports) _ _ rfl fun e he t _ => (sendStretch_ports e t _).trans he

@[simp] theorem openSuspicion_ports : (openSuspicion d).ports = d.ports := by
  unfold openSuspicion
  split
  next => rfl
  next => rw [failoverStretch_ports, raise_ports]

@[simp] theorem twinPortRetrain_ports : (twinPortRetrain d).ports = d.ports := openSuspicion_ports _

@[simp] theorem delaySample_ports (q : Nat) (v : Int) : (delaySample q v d).ports = d.ports := by
  unfold delaySample
  extract_lets history
  split
  next => rw [raise_ports]
  next => rfl

end

/-! ## Tables that are written in a row -/

theorem Sparse.get_foldl_modify {α : Type} [DecidableEq α] (dflt : α) (g : Nat → α → α) (m : Table α) {is : List Nat}
    (h : is.Nodup) (j : Nat) : Sparse.get dflt (is.foldl (fun m i => Sparse.modify dflt m i (g i)) m) j =
      if j ∈ is then g j (Sparse.get dflt m j) else Sparse.get dflt m j := by
  induction is generalizing m with
  | nil => rfl
  | cons i is ih =>
    obtain ⟨hi, his⟩ := List.nodup_cons.1 h
    rw [List.foldl_cons, ih _ his, Sparse.modify, Sparse.get_set]
    by_cases hj : j = i
    · simp [hj, hi]
    · simp [hj]

/-- Where the keys differ, an item holds the value written under its own. -/
theorem Sparse.get_foldl_set {α : Type} [DecidableEq α] (dflt : α) {key : Nat → Nat} (hkey : key.Injective) (v : Nat → α)
    (m : Table α) (is : List Nat) (j : Nat) : Sparse.get dflt (is.foldl (fun m i => Sparse.set dflt m (key i) (v i)) m) (key j) =
      if j ∈ is then v j else Sparse.get dflt m (key j) := by
  induction is generalizing m with
  | nil => rfl
  | cons i is ih =>
    rw [List.foldl_cons, ih, Sparse.get_set]
    by_cases hj : j = i
    · simp [hj]
    · simp [hj, hkey.ne hj]

/-! ## Lanes -/

/-- Lanes `is` of a port's table changed, lane `i` by `g i`. -/
def lanesChanged (is : List Nat) (g : Nat → Lane → Lane) (m : Table Lane) : Table Lane :=
  is.foldl (fun m i => Sparse.modify {} m i (g i)) m

/-- The same on the device. -/
def changeLanes (p : Nat) (is : List Nat) (g : Nat → Lane → Lane) (d : Dev) : Dev :=
  is.foldl (fun d i => modLane p i (g i) d) d

theorem changeLanes_net (p : Nat) (is : List Nat) (g : Nat → Lane → Lane) (d : Dev) : (changeLanes p is g d).net = d.net :=
  List.foldlRecOn (motive := fun (e : Dev) => e.net = d.net) _ _ rfl fun _ he _ _ => he

theorem modLanes_eq_changeLanes (p lo : Nat) (f : Lane → Lane) (d : Dev) :
    modLanes p lo f d = changeLanes p ((List.range (laneCount p)).filter (lo ≤ ·)) (fun _ => f) d := rfl

theorem PortBecomes.changeLanes (h : PortBecomes p x d e) (is : List Nat) (g : Nat → Lane → Lane) :
    PortBecomes p { x with lanes := lanesChanged is g x.lanes } d (changeLanes p is g e) := by
  induction is generalizing x e with
  | nil => exact h
  | cons i is ih => exact ih (h.modPort fun y => { y with lanes := Sparse.modify {} y.lanes i (g i) })

theorem PortBecomes.getLane (h : PortBecomes p x d e) (l : Nat) : getLane p l e = Sparse.get {} x.lanes l :=
  congrArg (fun y : Port => Sparse.get ({} : Lane) y.lanes l) h.same

theorem get_lanesChanged {is : List Nat} (g : Nat → Lane → Lane) (m : Table Lane) (his : is.Nodup) (hl : l ∈ is) :
    Sparse.get {} (lanesChanged is g m) l = g l (Sparse.get {} m l) := by
  rw [lanesChanged, Sparse.get_foldl_modify _ g m his, if_pos hl]

theorem getLane_modLane (p l i : Nat) (f : Lane → Lane) (d : Dev) :
    getLane p i (modLane p l f d) = if i = l then f (getLane p l d) else getLane p i d := by
  rw [getLane, modLane, modPort, getPort_setPort_same, Sparse.modify, Sparse.get_set]
  rfl

@[simp] theorem getLane_modLane_same (p l : Nat) (f : Lane → Lane) (d : Dev) :
    getLane p l (modLane p l f d) = f (getLane p l d) := by rw [getLane_modLane, if_pos rfl]

/-- Only what a change makes of the lane itself matters. -/
theorem modLane_congr {f g : Lane → Lane} (h : f (getLane p l d) = g (getLane p l d)) : modLane p l f d = modLane p l g d := by
  unfold getLane at h
  simp only [modLane, modPort, Sparse.modify, h]

/-! ## Limits of training (R278, R280, R287) -/

/-- The port has gone down at time `now`. -/
def Port.downAt (x : Port) (now : Nat) : Port := { x with state := 4, wasDown := true, startAt := now }

theorem portGoesDown_of_canvas (hp : p < 8) : portGoesDown p d = modPort p (·.downAt d.now) d :=
  if_neg (Nat.ne_of_lt hp)

section
variable {ph : Nat}

theorem phaseTimeout_of_late (hstate : (getPort p d).state = 1) (hlate : (getPort p d).startAt + phaseLimit ph * tUs ≤ d.now)
    (hp : p < 8) : phaseTimeout p ph d = modPort p (·.downAt d.now) (raise 4 evLinkTrainFail (srcPort p) d) := by
  rw [phaseTimeout, if_pos ⟨hstate, hlate⟩, portGoesDown_of_canvas hp, raise_now]

theorem phaseTimeout_of_not_due (h : (getPort p d).state ≠ 1 ∨ d.now < (getPort p d).startAt + phaseLimit ph * tUs) :
    phaseTimeout p ph d = d := if_neg (by omega)

end

theorem retrainTimeout_of_late (hstate : (getPort p d).state = 3) (hlate : (getPort p d).startAt + 2000 * tUs ≤ d.now)
    (hp : p < 8) : retrainTimeout p d = modPort p (·.downAt d.now) (raise 4 evLinkDown (srcPort p) (bumpPort p 6 d)) := by
  rw [retrainTimeout, if_pos ⟨hstate, hlate⟩, portGoesDown_of_canvas hp, raise_now]
  rfl

theorem retrainTimeout_of_not_due (h : (getPort p d).state ≠ 3 ∨ d.now < (getPort p d).startAt + 2000 * tUs) :
    retrainTimeout p d = d := if_neg (by omega)

/-! ## A port that trains (R277 to R280) -/

/-- Lane `l` as training begins. -/
def Lane.trains (y : Lane) : Lane := { y with tx := laneTrain, rx := laneTrain, step := 0, failures := 0 }

/-- Port `p` has begun to train at time `now`, in state `st`: nothing is partly received, every lane trains, and what is held for
replay stays. -/
def Port.training (x : Port) (p st now : Nat) : Port := { x with
  state := st, startAt := now, resend := 0, partials := [], discarding := false, nakDue := false
  txChange := none, rxChange := none, demandWake := false
  lanes := lanesChanged ((List.range (laneCount p)).filter (0 ≤ ·)) (fun _ => Lane.trains) x.lanes }

theorem Port.training_lanes (x : Port) (p st now : Nat) (hl : l < laneCount p) :
    Sparse.get {} (x.training p st now).lanes l = (Sparse.get {} x.lanes l).trains :=
  get_lanesChanged _ _ (List.nodup_range.filter _) (by simpa using hl)

/-- Port `p` enters state `st`, and trains. -/
def beginTraining (p st : Nat) (d : Dev) : Dev :=
  trainLanes p (dropPartials p (modPort p (fun x => { x with state := st, startAt := d.now, resend := 0 }) d))

theorem dropPartials_net (p : Nat) (d : Dev) : (dropPartials p d).net = d.net :=
  List.foldlRecOn (motive := fun (e : Dev) => e.net = d.net) _ _ rfl fun _ he _ _ => he

theorem PortBecomes.dropPartials (h : PortBecomes p x d e) :
    PortBecomes p { x with partials := [], discarding := false, nakDue := false } d (dropPartials p e) :=
  (h.modPort fun y => { y with partials := [], discarding := false, nakDue := false }).of_ports
    (List.foldlRecOn (motive := fun (f : Dev) => f.ports = _) _ _ rfl fun _ hf _ _ => hf)

theorem beginTraining_net (p st : Nat) (d : Dev) : (beginTraining p st d).net = d.net := by
  rw [beginTraining, trainLanes, modLanes_eq_changeLanes, changeLanes_net, modPort_net, dropPartials_net, modPort_net]

theorem beginTraining_becomes (p st : Nat) (d : Dev) :
    PortBecomes p ((getPort p d).training p st d.now) d (beginTraining p st d) := by
  have entered := (PortBecomes.refl p d).modPort fun x => { x with state := st, startAt := d.now, resend := 0 }
  have cancelled := entered.dropPartials.modPort fun x => { x with txChange := none, rxChange := none, demandWake := false }
  exact cancelled.changeLanes _ _

theorem downRetry_of_due (hstate : (getPort p d).state = 4) (hdue : (getPort p d).startAt + 1000 * tMs ≤ d.now) :
    downRetry p d = beginTraining p 1 d := by
  rw [downRetry, if_pos ⟨hstate, hdue⟩, startTraining]
  exact if_neg (by omega)

theorem downRetry_of_not_due (h : (getPort p d).state ≠ 4 ∨ d.now < (getPort p d).startAt + 1000 * tMs) :
    downRetry p d = d := if_neg (by omega)

/-- A retrain that has begun is counted, and LINK_RETRAIN raised. -/
def retrainBegun (p : Nat) (d : Dev) : Dev := raise 4 evLinkRetrain (srcPort p) (bumpPort p 5 (beginTraining p 3 d))

theorem startRetrain_of_not_up (h : (getPort p d).state ≠ 2) : startRetrain p d = d := if_pos h

theorem startRetrain_of_up (h : (getPort p d).state = 2) :
    startRetrain p d = if p = 8 then twinPortRetrain (retrainBegun p d) else retrainBegun p d := if_neg (not_not_intro h)

theorem retrainBegun_becomes (p : Nat) (d : Dev) :
    ∃ n, PortBecomes p { (getPort p d).training p 3 d.now with counts := n } d (retrainBegun p d) :=
  ⟨_, ((beginTraining_becomes p 3 d).bump 5).of_ports (raise_ports ..)⟩

section
variable (hup : (getPort p d).state = 2)
include hup

theorem startRetrain_becomes : ∃ n, PortBecomes p { (getPort p d).training p 3 d.now with counts := n } d (startRetrain p d) := by
  obtain ⟨n, begun⟩ := retrainBegun_becomes p d
  rw [startRetrain_of_up hup]
  split
  next => exact ⟨n, begun.of_ports (twinPortRetrain_ports _)⟩
  next => exact ⟨n, begun⟩

theorem startRetrain_net (hp : p < 8) : (startRetrain p d).net = d.net := by
  rw [startRetrain_of_up hup, if_neg (Nat.ne_of_lt hp), retrainBegun, raise_net, bumpPort_net, beginTraining_net]

end

/-! ## The handshake (R278, R279) -/

theorem sendWidth_net (p n : Nat) (d : Dev) : (sendWidth p n d).net = d.net := by simp [sendWidth]

theorem PortBecomes.sendWidth (h : PortBecomes p x d e) (n : Nat) :
    ∃ c, PortBecomes p { x with txChange := c } d (sendWidth p n e) :=
  ⟨_, (h.modPort fun y => { y with txChange := some (n, pcsCount p true e + 8) }).of_ports (by simp [Machine.sendWidth])⟩

/-- Both directions start anew at time `now` from the far end's resume point. -/
def Port.resumed (x : Port) (resume now : Nat) : Port := { x with
  state := 2, wasDown := false, replay := resumeFrom resume x.replay, resend := (resumeFrom resume x.replay).length
  fseq := (resume + 1 + (resumeFrom resume x.replay).length) % 65536, ackedTo := resume, timerAt := now
  expect := (x.committedEop + 1) % 65536, freed := [], reported := [], wide := true, rxWide := true
  unitAt := now, unitCount := 0, rxUnitAt := now, rxUnitCount := 0, emptySince := now }

/-- What lane `l` becomes when its port comes up. -/
def laneUp (snr : List Int) (l : Nat) (y : Lane) : Lane :=
  { y with tx := laneActive, rx := laneActive, snr := snr[l]?.getD y.snr }

section
variable (p resume : Nat) (held : List Nat) (snr : List Int) (d : Dev)

/-- The port is up with the credits that the far end reports. -/
def creditsTaken : Dev := { d with
  ports := Sparse.set {} d.ports p ((getPort p d).resumed resume d.now)
  net.credits := (List.range 8).foldl (fun m v => Sparse.set 0 m (8 * p + v) (held[v]?.getD 0)) d.net.credits }

/-- And its lanes are active. -/
def portUp : Dev := changeLanes p (List.range (laneCount p)) (laneUp snr) (creditsTaken p resume held d)

/-- LINK_UP follows where the port was down. -/
def upRaised : Dev :=
  if (getPort p d).wasDown then raise 4 evLinkUp (srcPort p) (portUp p resume held snr d) else portUp p resume held snr d

/-- NARROW follows at once where nothing demands more. -/
def upNarrowed : Dev :=
  if demandWithin p 0 (upRaised p resume held snr d) then upRaised p resume held snr d
  else sendWidth p 2 (upRaised p resume held snr d)

theorem comesUp_eq : comesUp p resume held snr d =
    if p = 8 then twinPortUp (upNarrowed p resume held snr d) else upNarrowed p resume held snr d := rfl

theorem comesUp_net : (comesUp p resume held snr d).net = (portUp p resume held snr d).net := by
  have raised : (upRaised p resume held snr d).net = (portUp p resume held snr d).net := by
    unfold upRaised
    split
    next => exact raise_net ..
    next => rfl
  have narrowed : (upNarrowed p resume held snr d).net = (upRaised p resume held snr d).net := by
    unfold upNarrowed
    split
    next => rfl
    next => exact sendWidth_net ..
  rw [comesUp_eq, ← raised, ← narrowed]
  split <;> rfl

/-- The credits of a channel are those that the far end reports. -/
theorem takenFlits_comesUp {v : Nat} (hv : v < 8) : takenFlits p v (comesUp p resume held snr d) = held[v]?.getD 0 := by
  have apart : Function.Injective (8 * p + ·) := fun _ _ => Nat.add_left_cancel
  rw [takenFlits, comesUp_net, portUp, changeLanes_net]
  exact (Sparse.get_foldl_set 0 apart (fun v => held[v]?.getD 0) _ _ v).trans (if_pos (List.mem_range.2 hv))

end

section
variable {resume : Nat} {held : List Nat} {snr : List Int}

/-- Port `p` has come up at time `now`: every lane is active, and `c` is the width change that waits. -/
def Port.up (x : Port) (p resume now : Nat) (snr : List Int) (c : Option (Nat × Nat)) : Port :=
  { x.resumed resume now with lanes := lanesChanged (List.range (laneCount p)) (laneUp snr) x.lanes, txChange := c }

theorem Port.up_lanes (now : Nat) (c : Option (Nat × Nat)) (hl : l < laneCount p) :
    Sparse.get {} (x.up p resume now snr c).lanes l = laneUp snr l (Sparse.get {} x.lanes l) :=
  get_lanesChanged _ _ List.nodup_range (List.mem_range.2 hl)

theorem PortBecomes.upNarrowed (h : PortBecomes p x d e) (resume : Nat) (held : List Nat) (snr : List Int) :
    ∃ c, PortBecomes p (x.up p resume e.now snr c) d (upNarrowed p resume held snr e) := by
  obtain rfl := h.same
  have credited : PortBecomes p _ d (creditsTaken p resume held e) :=
    h.trans (setPort_becomes p ((Machine.getPort p e).resumed resume e.now) e)
  have up : PortBecomes p _ d (portUp p resume held snr e) := credited.changeLanes _ _
  have raised : PortBecomes p ((Machine.getPort p e).up p resume e.now snr (Machine.getPort p e).txChange) d
      (upRaised p resume held snr e) := by
    unfold upRaised
    split
    next => exact up.of_ports (raise_ports ..)
    next => exact up
  unfold Machine.upNarrowed
  split
  next => exact ⟨(Machine.getPort p e).txChange, raised⟩
  next => exact raised.sendWidth 2

theorem PortBecomes.comesUp (h : PortBecomes p x d e) (resume : Nat) (held : List Nat) (snr : List Int) :
    ∃ c, PortBecomes p (x.up p resume e.now snr c) d (comesUp p resume held snr e) := by
  obtain ⟨c, narrowed⟩ := h.upNarrowed resume held snr
  rw [comesUp_eq]
  split
  next => exact ⟨c, narrowed.of_ports rfl⟩
  next => exact ⟨c, narrowed⟩

end

section
variable {coord pcode serial resume t1 t2 t3 t4 : Nat} {held : List Nat} {snr : List Int}

/-- The port knows who its peer is. -/
def Port.peered (x : Port) (coord pcode serial : Nat) : Port :=
  { x with peerCoord := coord, peerPort := pcode, peerSerial := serial }

/-- The peer has been noted, and the delay of the exchange that the handshake carries. -/
def handshakeNoted (p coord pcode serial t1 t2 t3 t4 : Nat) (d : Dev) : Dev :=
  let named := setPort p ((getPort p d).peered coord pcode serial) d
  delaySample p (exchangeDelay p t1 t2 t3 t4 named) named

theorem handshakeNoted_becomes (p coord pcode serial t1 t2 t3 t4 : Nat) (d : Dev) :
    PortBecomes p ((getPort p d).peered coord pcode serial) d (handshakeNoted p coord pcode serial t1 t2 t3 t4 d) :=
  (setPort_becomes p _ d).of_ports (delaySample_ports ..)

theorem linkHandshake_of_not_training (h1 : (getPort p d).state ≠ 1) (h3 : (getPort p d).state ≠ 3) :
    linkHandshake p coord pcode serial resume held snr t1 t2 t3 t4 d = d := if_pos ⟨h1, h3⟩

variable (hstate : (getPort p d).state = 1 ∨ (getPort p d).state = 3)
include hstate

theorem linkHandshake_of_miscabled (h : peerExpected p coord pcode d = false) :
    linkHandshake p coord pcode serial resume held snr t1 t2 t3 t4 d = raise 4 evLinkMiscabled (srcPort p)
      (modPort p (fun y => { y with state := 5 }) (setPort p ((getPort p d).peered coord pcode serial) d)) := by
  rw [linkHandshake, if_neg (by omega)]
  exact if_neg fun expected => Bool.false_ne_true (h.symm.trans expected)

theorem linkHandshake_of_expected (h : peerExpected p coord pcode d = true) (hresume : resume < 65536) :
    linkHandshake p coord pcode serial resume held snr t1 t2 t3 t4 d =
      comesUp p resume held snr (handshakeNoted p coord pcode serial t1 t2 t3 t4 d) := by
  rw [linkHandshake, if_neg (by omega), Nat.mod_eq_of_lt hresume]
  exact if_pos h

end

/-! ## Width changes (R281) -/

section
variable {set : BitVec 128} {tx : Bool} {n unit : Nat}

/-- The first good copy of a change to two lanes or to all of them, on a port that is up. -/
abbrev widthTaken (p : Nat) (set : BitVec 128) (x : Port) : Prop :=
  x.state = 2 ∧ crc16Good set = true ∧ x.rxChange = none ∧ (bitsOf set.toNat 0 6 = 2 ∨ bitsOf set.toNat 0 6 = laneCount p)

theorem widthChange_of_taken (h : widthTaken p set (getPort p d)) : widthChange p set d =
    setPort p { getPort p d with rxChange := some (bitsOf set.toNat 0 6, bitsOf set.toNat 6 32) } d := if_pos h

theorem widthChange_of_not_taken (h : ¬ widthTaken p set (getPort p d)) : widthChange p set d = d := if_neg h

/-- The width change of a direction that waits for its PCS unit. -/
def Port.change (x : Port) (tx : Bool) : Option (Nat × Nat) := if tx then x.txChange else x.rxChange

/-- The PCS unit named lies ahead. -/
abbrev unitAhead (p : Nat) (tx : Bool) (unit : Nat) (d : Dev) : Prop :=
  2 ^ 31 ≤ (pcsCount p tx d + 2 ^ 32 - unit % 2 ^ 32) % 2 ^ 32

/-- A direction of port `p` has taken the width of `n` lanes, its PCS units counted on from now. -/
def widthSwitched (p : Nat) (tx : Bool) (n : Nat) (d : Dev) : Dev :=
  let x := getPort p d
  let c := pcsCount p tx d
  bumpPort p 9 (setPort p (if tx then
    { x with txChange := none, wide := n == laneCount p, unitAt := d.now, unitCount := c }
    else { x with rxChange := none, rxWide := n == laneCount p, rxUnitAt := d.now, rxUnitCount := c }) d)

/-- The lanes that leave the stripe ramp down at the transmitter, and sleep at the receiver. -/
def lanesLeave (p : Nat) (tx : Bool) (now : Nat) : Dev → Dev :=
  modLanes p 2 fun l => if tx then { l with tx := laneRampDn, step := 0, rampAt := now } else { l with rx := laneSleep }

theorem widthApply_of_none (h : (getPort p d).change tx = none) : widthApply p tx d = d := by
  unfold Port.change at h
  simp only [widthApply, h]

section
variable (hchange : (getPort p d).change tx = some (n, unit))
include hchange

theorem widthApply_of_not_due (h : (getPort p d).state ≠ 2 ∨ unitAhead p tx unit d) : widthApply p tx d = d := by
  unfold Port.change at hchange
  simp only [widthApply, hchange]
  exact if_pos h

theorem widthApply_of_due (hup : (getPort p d).state = 2) (h : ¬ unitAhead p tx unit d) : widthApply p tx d =
    if n = laneCount p then widthSwitched p tx n d else lanesLeave p tx d.now (widthSwitched p tx n d) := by
  unfold Port.change at hchange
  simp only [widthApply, hchange]
  rw [if_neg (not_or.2 ⟨not_not_intro hup, h⟩)]
  cases tx <;> simp [widthSwitched, lanesLeave]

end

/-- A change waits for a port that is up and for its PCS unit; then the direction takes its width, and lanes leave where that is
not the full one. -/
theorem answers_widthChangeApply {s : State} (hp : p < 9) (hchange : (getPort p s.dev).change tx = some (n, unit)) :
    ((getPort p s.dev).state ≠ 2 ∨ unitAhead p tx unit s.dev → Answers (.widthChangeApply p tx) s s.dev) ∧
    ((getPort p s.dev).state = 2 → ¬ unitAhead p tx unit s.dev → n = laneCount p →
      Answers (.widthChangeApply p tx) s (widthSwitched p tx n s.dev)) ∧
    ((getPort p s.dev).state = 2 → ¬ unitAhead p tx unit s.dev → n ≠ laneCount p →
      Answers (.widthChangeApply p tx) s (lanesLeave p tx s.dev.now (widthSwitched p tx n s.dev))) := by
  have answers {d' : Dev} (h : widthApply p tx s.dev = d') : Answers (.widthChangeApply p tx) s d' :=
    answers_onDev (decide_eq_true hp) rfl h
  exact ⟨fun hnot => answers (widthApply_of_not_due hchange hnot),
    fun hup hdue hfull => answers ((widthApply_of_due hchange hup hdue).trans (if_pos hfull)),
    fun hup hdue hnarrow => answers ((widthApply_of_due hchange hup hdue).trans (if_neg hnarrow))⟩

end

/-! ## Waking and sleeping of a port (R283) -/

theorem wakeStart_of_demand (hcan : canWake p d = true) (h : demandWithin p (4 * tUs) d = true) :
    wakeStart p d = beginWake p d := by simp [wakeStart, hcan, h]

theorem wakeStart_of_not (h : canWake p d = false ∨ demandWithin p (4 * tUs) d = false) : wakeStart p d = d :=
  if_neg (by rcases h with h | h <;> simp [h])

/-- Something has waited longer than the demand-wake delay. -/
abbrev waitedLong (p : Nat) (d : Dev) : Prop := dictGet (0x4000 + p) 5 d * 10 * tNs < longestWait p d

theorem demandWake_of_waited (hcan : canWake p d = true) (h : waitedLong p d) :
    demandWake p d = beginWake p (bumpPort p 7 (modPort p (fun x => { x with demandWake := true }) d)) :=
  if_pos (by simp [hcan, h])

theorem demandWake_of_not (h : canWake p d = false ∨ ¬ waitedLong p d) : demandWake p d = d :=
  if_neg (by rcases h with h | h <;> simp [h])

/-- The sending direction is wide, and nothing asks that it stay so. -/
abbrev mayNarrow (p : Nat) (d : Dev) : Prop :=
  (getPort p d).state = 2 ∧ (getPort p d).wide = true ∧ (getPort p d).txChange = none ∧
    demandWithin p (10 * tUs) d = false ∧ wakeHeld p d = false

theorem sleepStart_of_idle (h : mayNarrow p d) :
    sleepStart p d = sendWidth p 2 (setPort p { getPort p d with demandWake := false } d) := if_pos h

theorem sleepStart_of_not (h : ¬ mayNarrow p d) : sleepStart p d = d := if_neg h

/-! ## The ramp of a lane (R284) -/

theorem foldl_emit {β : Type} (o : Out) (is : List β) (d : Dev) :
    is.foldl (fun d _ => emit o d) d = { d with out := d.out ++ List.replicate is.length o } := by
  induction is generalizing d with
  | nil => simp
  | cons i is ih =>
    rw [List.foldl_cons, ih]
    simp [emit, List.replicate_succ]

/-- The time of the lane's next step. -/
abbrev nextRamp (y : Lane) : Nat := y.rampAt + (y.step + 1) * rampStep

/-- The lane has moved to its next step, at amplitude `a`. -/
def rampedTo (p l a : Nat) (d : Dev) : Dev :=
  emit (.drive p l a) (modLane p l (fun y => { y with step := (getLane p l d).step + 1 }) d)

theorem laneRamp_of_not_due (h : ((getLane p l d).tx ≠ 5 ∧ (getLane p l d).tx ≠ 3) ∨ d.now < nextRamp (getLane p l d)) :
    laneRamp p l d = d := if_pos h

section
variable (hdue : nextRamp (getLane p l d) ≤ d.now)
include hdue

theorem laneRamp_of_due (hramps : (getLane p l d).tx = 5 ∨ (getLane p l d).tx = 3) : laneRamp p l d =
    let stepped := rampedTo p l (if (getLane p l d).tx = 5 then (getLane p l d).step + 1 else 16 - ((getLane p l d).step + 1)) d
    if (getLane p l d).step + 1 < 16 then stepped
    else if (getLane p l d).tx = 5 then
      (List.range 16).foldl (fun d _ => emit (.qualifier p l) d) (modLane p l (fun y => { y with tx := 6 }) stepped)
    else modLane p l (fun y => { y with tx := 4 }) stepped := by
  have ramping : ¬ (((getLane p l d).tx ≠ 5 ∧ (getLane p l d).tx ≠ 3) ∨ d.now < nextRamp (getLane p l d)) := by omega
  exact if_neg ramping

theorem laneRamp_of_ramping (hramps : (getLane p l d).tx = 5 ∨ (getLane p l d).tx = 3) (hstep : (getLane p l d).step < 15) :
    laneRamp p l d = rampedTo p l (if (getLane p l d).tx = 5 then (getLane p l d).step + 1 else 15 - (getLane p l d).step) d := by
  have level : 16 - ((getLane p l d).step + 1) = 15 - (getLane p l d).step := by omega
  rw [laneRamp_of_due hdue hramps, level]
  exact if_pos (by omega)

variable (hstep : (getLane p l d).step = 15)
include hstep

/-- A lane that reaches 0 sleeps. -/
theorem laneRamp_of_bottom (hdown : (getLane p l d).tx = 3) :
    laneRamp p l d = modLane p l (fun y => { y with tx := 4 }) (rampedTo p l 0 d) := by
  simp [laneRamp_of_due hdue (.inr hdown), hstep, hdown]

/-- A lane that reaches full swing sends the qualifier sixteen times. -/
theorem laneRamp_of_top (hup : (getLane p l d).tx = 5) : laneRamp p l d =
    (List.range 16).foldl (fun d _ => emit (.qualifier p l) d) (modLane p l (fun y => { y with tx := 6 }) (rampedTo p l 16 d)) := by
  simp [laneRamp_of_due hdue (.inl hup), hstep, hup]

theorem laneRamp_of_top_state (hup : (getLane p l d).tx = 5) : (getLane p l (laneRamp p l d)).tx = 6 ∧
    (laneRamp p l d).out = d.out ++ .drive p l 16 :: List.replicate 16 (.qualifier p l) := by
  rw [laneRamp_of_top hdue hstep hup, foldl_emit]
  refine ⟨congrArg Lane.tx (getLane_modLane_same p l _ (rampedTo p l 16 d)), ?_⟩
  simp [rampedTo, emit, modLane, modPort, setPort]

end

/-! ## The receiver of a lane (R284) -/

section
variable {v : Int} {q : BitVec 128}

/-- A sleeping lane sees more than its threshold. -/
abbrev seesEnergy (p l : Nat) (v : Int) (d : Dev) : Prop :=
  (getLane p l d).rx = 4 ∧ signedOf 32 (dictGet (0x4000 + p) 4 d) < v

theorem energyDetect_of_seen (h : seesEnergy p l v d) :
    energyDetect p l v d = modLane p l (fun y => { y with rx := 5, energyAt := d.now }) d := if_pos h

theorem energyDetect_of_not (h : ¬ seesEnergy p l v d) : energyDetect p l v d = d := if_neg h

/-- A searching lane finds the qualifier in time. -/
abbrev findsQualifier (p l : Nat) (q : BitVec 128) (d : Dev) : Prop :=
  (getLane p l d).rx = 5 ∧ q = qualifierWord ∧ d.now ≤ (getLane p l d).energyAt + 2 * tUs

theorem qualifierMatch_of_found (h : findsQualifier p l q d) :
    qualifierMatch p l q d = modLane p l (fun y => { y with rx := 6 }) d := if_pos h

theorem qualifierMatch_of_not (h : ¬ findsQualifier p l q d) : qualifierMatch p l q d = d := if_neg h

end

theorem qualifierTimeout_of_late (hrx : (getLane p l d).rx = 5) (h : (getLane p l d).energyAt + 2 * tUs ≤ d.now) :
    qualifierTimeout p l d = modLane p l (fun y => { y with rx := 4, falseWakes := satAdd 64 y.falseWakes 1 }) d :=
  if_pos ⟨hrx, h⟩

theorem qualifierTimeout_of_not (h : (getLane p l d).rx ≠ 5 ∨ d.now < (getLane p l d).energyAt + 2 * tUs) :
    qualifierTimeout p l d = d := if_neg fun ⟨hrx, hlate⟩ => h.elim (· hrx) (Nat.not_lt.2 hlate)

theorem relockComplete_of_receiver (h : (getLane p l d).rx = 6) :
    relockComplete p l false d = modLane p l (fun y => { y with rx := 2, wakes := satAdd 64 y.wakes 1 }) d := if_pos h

theorem relockComplete_of_receiver_not (h : (getLane p l d).rx ≠ 6) : relockComplete p l false d = d := if_neg h

/-! ## The transmitter of a lane (R284, R285) -/

theorem relockComplete_of_sender_not (h : (getLane p l d).tx ≠ 6) : relockComplete p l true d = d := if_neg h

/-- The far receiver's lane is active. -/
def senderActive (p l : Nat) (d : Dev) : Dev := modLane p l (fun y => { y with tx := 2, failures := 0 }) d

theorem upperLanes_all {n : Nat} (b : Nat → Bool) :
    ((List.range n).filter (2 ≤ ·)).all b = true ↔ ∀ i, 2 ≤ i → i < n → b i = true := by
  simp only [List.all_eq_true, List.mem_filter, List.mem_range, decide_eq_true_eq, and_imp]
  exact forall_congr' fun i => imp.swap

section
variable (htx : (getLane p l d).tx = 6)
include htx

theorem relockComplete_of_last (h : ∀ i, 2 ≤ i → i < laneCount p → (getLane p i (senderActive p l d)).tx = 2) :
    relockComplete p l true d = sendWidth p (laneCount p) (senderActive p l d) :=
  (if_pos htx).trans (if_pos ((upperLanes_all _).2 fun i h2 hi => beq_iff_eq.2 (h i h2 hi)))

theorem relockComplete_of_others (h : ∃ i, 2 ≤ i ∧ i < laneCount p ∧ (getLane p i (senderActive p l d)).tx ≠ 2) :
    relockComplete p l true d = senderActive p l d := by
  obtain ⟨i, h2, hi, hother⟩ := h
  exact (if_pos htx).trans (if_neg fun all => hother (beq_iff_eq.1 ((upperLanes_all _).1 all i h2 hi)))

end

theorem laneWakeLate_of_not_due
    (h : ((getLane p l d).tx ≠ 5 ∧ (getLane p l d).tx ≠ 6) ∨ d.now < (getLane p l d).rampAt + 4 * tUs) :
    laneWakeLate p l d = d := if_pos h

/-- The lane is tried again, and LANE_WAKE_LATE raised. -/
def wakeRetried (p l : Nat) (d : Dev) : Dev :=
  raise 4 evLaneWakeLate (srcLane p l) (modLane p l (fun y => { y with
    failures := (getLane p l d).failures + 1, lateWakes := satAdd 64 (getLane p l d).lateWakes 1
    tx := 5, step := 0, rampAt := d.now }) d)

section
variable (htx : (getLane p l d).tx = 5 ∨ (getLane p l d).tx = 6) (hlate : (getLane p l d).rampAt + 4 * tUs ≤ d.now)
include htx hlate

theorem laneWakeLate_of_late : laneWakeLate p l d = if 1 ≤ (getLane p l d).failures then
    startRetrain p (raise 4 evLaneFault (srcLane p l) (modLane p l (fun y => { y with tx := 7 }) (wakeRetried p l d)))
    else wakeRetried p l d := by
  have due : ¬ (((getLane p l d).tx ≠ 5 ∧ (getLane p l d).tx ≠ 6) ∨ d.now < (getLane p l d).rampAt + 4 * tUs) := by omega
  rw [laneWakeLate, wakeRetried]
  exact if_neg due

theorem laneWakeLate_of_first (h : (getLane p l d).failures = 0) : laneWakeLate p l d = wakeRetried p l d :=
  (laneWakeLate_of_late htx hlate).trans (if_neg (by omega))

theorem laneWakeLate_of_second (h : 0 < (getLane p l d).failures) : laneWakeLate p l d =
    startRetrain p (raise 4 evLaneFault (srcLane p l) (modLane p l (fun y => { y with tx := 7 }) (wakeRetried p l d))) :=
  (laneWakeLate_of_late htx hlate).trans (if_pos h)

end

/-! ## The noise floor (R286) -/

section
variable {v : Int}

/-- A sleeping lane near the end of its frame. -/
abbrev measures (p l : Nat) (d : Dev) : Prop :=
  (getLane p l d).rx = 4 ∧ d.clk.lastTick + framePeriod d ≤ d.now + 2 * tUs

/-- The lane with one more floor. -/
def Lane.measured (y : Lane) (p : Nat) (v : Int) : Lane :=
  { y with floors := ((if isOptical p then max v (-4000) else v) :: y.floors).take 16 }

/-- The floor has been noted. -/
def floorNoted (p l : Nat) (v : Int) (d : Dev) : Dev := modLane p l (fun _ => (getLane p l d).measured p v) d

theorem noiseFloor_of_not (h : ¬ measures p l d) : noiseFloor p l v d = d := if_neg h

variable (htime : measures p l d)
include htime

theorem noiseFloor_of_time : noiseFloor p l v d =
    if marginShort p ((getLane p l d).measured p v) d then
      if (getLane p l d).marginRaised then floorNoted p l v d
      else raise 4 evNoiseMargin (srcLane p l) (modLane p l (fun y => { y with marginRaised := true }) (floorNoted p l v d))
        (unsignedOf 32 (largestFloor ((getLane p l d).measured p v)))
    else modLane p l (fun y => { y with marginRaised := false }) (floorNoted p l v d) := by
  have noted : modLane p l (·.measured p v) d = floorNoted p l v d := modLane_congr rfl
  have lane : getLane p l (floorNoted p l v d) = (getLane p l d).measured p v := getLane_modLane_same ..
  refine (if_pos htime).trans ?_
  unfold Lane.measured at noted lane ⊢
  simp only [noted, lane]
  rfl

theorem noiseFloor_of_wide (h : marginShort p ((getLane p l d).measured p v) d = false) : noiseFloor p l v d =
    modLane p l (fun y => { y with marginRaised := false }) (floorNoted p l v d) := by
  simp only [noiseFloor_of_time htime, h, Bool.false_eq_true, if_false]

variable (hshort : marginShort p ((getLane p l d).measured p v) d = true)
include hshort

theorem noiseFloor_of_short (h : (getLane p l d).marginRaised = false) : noiseFloor p l v d =
    raise 4 evNoiseMargin (srcLane p l) (modLane p l (fun y => { y with marginRaised := true }) (floorNoted p l v d))
      (unsignedOf 32 (largestFloor ((getLane p l d).measured p v))) := by
  simp only [noiseFloor_of_time htime, hshort, h, Bool.false_eq_true, if_true, if_false]

theorem noiseFloor_of_raised (h : (getLane p l d).marginRaised = true) : noiseFloor p l v d = floorNoted p l v d := by
  simp only [noiseFloor_of_time htime, hshort, h, if_true]

end

end Sys2Proof.Machine

namespace Sys2Proof.Proofs
open Sys2Proof.Machine

/-- Settles O50: each end of a time by the port's state, a retrain and a handshake by what the port becomes, a width change by its
PCS unit, a port's waking and sleeping by demand, and each row of a lane by the state of the lane. -/
theorem trainingAndLanes : Obligations.TrainingAndLanes := by
  unfold Obligations.TrainingAndLanes
  rintro s _ p rfl hp
  have unit : decide (p < 9) = true := decide_eq_true hp
  refine ⟨fun ph h1 h5 => ?phase,
    fun hstate hlate hcanvas => answers_onDev unit rfl (retrainTimeout_of_late hstate hlate hcanvas),
    fun hnot => answers_onDev unit rfl (retrainTimeout_of_not_due hnot), fun hstate hdue => ?retry,
    fun hnot => answers_onDev unit rfl (downRetry_of_not_due hnot), fun c hc => ?retrain,
    fun coord pcode serial resume held snr t1 t2 t3 t4 => ?handshake,
    fun set => ⟨fun htaken => answers_onDev unit rfl (widthChange_of_taken htaken),
      fun hnot => answers_onDev unit rfl (widthChange_of_not_taken hnot)⟩,
    fun hnone => answers_onDev unit rfl (widthApply_of_none hnone), fun hnone => answers_onDev unit rfl (widthApply_of_none hnone),
    fun n pcs hchange => answers_widthChangeApply (tx := true) hp hchange,
    fun n pcs hchange => answers_widthChangeApply (tx := false) hp hchange, ?waking, fun l hl => ?lane⟩
  case phase =>
    have phased : (decide (p < 9) && decide (1 ≤ ph) && decide (ph ≤ 5)) = true := by simp [hp, h1, h5]
    exact ⟨fun hstate hlate hcanvas => answers_onDev phased rfl (phaseTimeout_of_late hstate hlate hcanvas),
      fun hnot => answers_onDev phased rfl (phaseTimeout_of_not_due hnot)⟩
  case retry =>
    refine completes_onDev unit rfl ?_
    rw [downRetry_of_due hstate hdue]
    have trains := (beginTraining_becomes p 1 s.dev).settle
    have same := trains.same
    refine ⟨(congrArg Port.state same :), (congrArg Port.startAt same :), (congrArg Port.replay same :), fun l hl => ?_⟩
    have lane := (trains.getLane l).trans (Port.training_lanes _ _ _ _ hl)
    exact ⟨congrArg Lane.tx lane, congrArg Lane.rx lane⟩
  case retrain =>
    have row : exec c s = onDev (decide (p < 9)) (startRetrain p) s := by rcases hc with rfl | rfl <;> rfl
    refine ⟨fun hdown => answers_onDev unit row (startRetrain_of_not_up hdown), fun hup => completes_onDev unit row ?_⟩
    obtain ⟨n, begun⟩ := startRetrain_becomes hup
    have trains := begun.settle
    have same := trains.same
    refine ⟨(congrArg Port.state same :), (congrArg Port.startAt same :), (congrArg Port.replay same :),
      (congrArg Port.partials same :), startRetrain_net hup, fun l hl => ?_⟩
    have lane := (trains.getLane l).trans (Port.training_lanes (getPort p s.dev) p 3 s.dev.now hl)
    exact ⟨congrArg Lane.tx lane, congrArg Lane.rx lane⟩
  case handshake =>
    refine ⟨fun h1 h3 => answers_onDev unit rfl (linkHandshake_of_not_training h1 h3),
      fun hstate hother => answers_onDev unit rfl (linkHandshake_of_miscabled hstate hother),
      fun hstate hpeer hresume => completes_onDev unit rfl ?_⟩
    rw [linkHandshake_of_expected hstate hpeer hresume]
    obtain ⟨change, comes⟩ := (handshakeNoted_becomes p coord pcode serial t1 t2 t3 t4 s.dev).comesUp resume held snr
    have up := comes.settle
    have same := up.same
    have sends : (getPort p _).replay = _ := congrArg Port.replay same
    refine ⟨(congrArg Port.state same :), (congrArg Port.peerCoord same :), (congrArg Port.expect same :), sends,
      (congrArg Port.resend same :).trans (congrArg List.length sends.symm),
      fun v hv => takenFlits_comesUp p resume held snr _ hv, fun l hl => ?_⟩
    have lane := (up.getLane l).trans (Port.up_lanes _ _ hl)
    exact ⟨congrArg Lane.tx lane, congrArg Lane.rx lane⟩
  case waking =>
    exact ⟨fun hcan hdemand => answers_onDev unit rfl (wakeStart_of_demand hcan hdemand),
      fun hnot => answers_onDev unit rfl (wakeStart_of_not hnot),
      fun hcan hwaited => answers_onDev unit rfl (demandWake_of_waited hcan hwaited),
      fun hnot => answers_onDev unit rfl (demandWake_of_not hnot),
      fun hidle => answers_onDev unit rfl (sleepStart_of_idle hidle), fun hnot => answers_onDev unit rfl (sleepStart_of_not hnot)⟩
  case lane =>
    have lane : laneOk p l = true := by simp [laneOk, hp, hl]
    refine ⟨fun hramps hdue hstep => answers_onDev lane rfl (laneRamp_of_ramping hdue hramps hstep),
      fun hdown hdue hstep => ?bottom,
      fun hup hdue hstep => completes_onDev lane rfl (laneRamp_of_top_state hdue hstep hup),
      fun hnot => answers_onDev lane rfl (laneRamp_of_not_due hnot),
      fun v => ⟨fun hover => answers_onDev lane rfl (energyDetect_of_seen hover),
        fun hnot => answers_onDev lane rfl (energyDetect_of_not hnot)⟩,
      fun q => ⟨fun hfound => answers_onDev lane rfl (qualifierMatch_of_found hfound),
        fun hnot => answers_onDev lane rfl (qualifierMatch_of_not hnot)⟩,
      fun hrx hlate => answers_onDev lane rfl (qualifierTimeout_of_late hrx hlate),
      fun hnot => answers_onDev lane rfl (qualifierTimeout_of_not hnot),
      fun hrx => answers_onDev lane rfl (relockComplete_of_receiver hrx),
      fun hrx => answers_onDev lane rfl (relockComplete_of_receiver_not hrx),
      fun htx => answers_onDev lane rfl (relockComplete_of_sender_not htx),
      fun htx => ⟨fun hall => answers_onDev lane rfl (relockComplete_of_last htx hall),
        fun hother => answers_onDev lane rfl (relockComplete_of_others htx hother)⟩,
      fun hnot => answers_onDev lane rfl (laneWakeLate_of_not_due hnot),
      fun htx hlate => ⟨fun hfirst => answers_onDev lane rfl (laneWakeLate_of_first htx hlate hfirst),
        fun hsecond => answers_onDev lane rfl (laneWakeLate_of_second htx hlate hsecond)⟩,
      fun v => ⟨fun hnot => answers_onDev lane rfl (noiseFloor_of_not hnot),
        fun htime hwide => answers_onDev lane rfl (noiseFloor_of_wide htime hwide),
        fun htime hshort hquiet => answers_onDev lane rfl (noiseFloor_of_short htime hshort hquiet),
        fun htime hshort hraised => answers_onDev lane rfl (noiseFloor_of_raised htime hshort hraised)⟩⟩
    case bottom =>
      have bottom := laneRamp_of_bottom hdue hstep hdown
      rw [rampedTo, hstep] at bottom
      exact answers_onDev lane rfl bottom

end Sys2Proof.Proofs
end

section
/-!
PROOFS. Collectives (chapter 13): what an arrival of scheduled data makes of the device, what a step sends and writes, what the
adder checks do to a unit, and how a segment ends (R297 to R302, R309, R311).
-/
namespace Sys2Proof.Machine

variable {p : Packet} {c : Ctx} {x : CollInst} {pl : StepPlan} {d e f : Dev} {t rank cctx cseg pos sp u n : Nat}

/-! ## The exchange space (R296, R297) -/

theorem exchangeVa_eq (c : Ctx) (cseg off : Nat) : exchangeVa c cseg off =
    if off < c.psz then c.stage + cseg * roundUp (c.segb + c.psz) 64 + c.segb + off
    else c.result + cseg * roundUp c.rsz 64 + (off - c.psz) := rfl

/-! ## The adder checks (R309) -/

@[simp] theorem raise_coll (cls num src detail : Nat) (d : Dev) : (raise cls num src d detail).coll = d.coll := by
  rw [raise, raiseEvent_frame]

/-- A unit is fenced on its second mismatch. -/
def unitFenced (u : Nat) (d : Dev) : Dev :=
  raise 4 evReduceResidue (srcNi u) (bumpColl 1 { d with coll.fence := d.coll.fence + 2 ^ u })

theorem unitFenced_fence (u : Nat) (d : Dev) : (unitFenced u d).coll.fence = d.coll.fence + 2 ^ u := by
  rw [unitFenced, raise_coll]
  rfl

/-- The check goes on at the lowest unit that is left, or ends with the device's last. -/
theorem adderChecks_of_second_mismatch (hunit : ((List.range 4).find? fun u => !bitOf d.coll.fence u) = some u) :
    adderChecks (n + 2) d = if d.coll.fence + 2 ^ u = 15 then (false, raiseFatal evReduceFencedAll (srcNi u) (unitFenced u d))
      else adderChecks n (unitFenced u d) := by
  rw [← unitFenced_fence u d]
  conv_lhs => unfold adderChecks
  simp only [hunit]
  rfl

theorem adderChecks_of_all_sound (h : d.coll.fence = 0) :
    adderChecks 2 d = (true, raise 4 evReduceResidue (srcNi 0) (bumpColl 1 { d with coll.fence := 1 })) := by
  have unit : ((List.range 4).find? fun u => !bitOf d.coll.fence u) = some 0 := by rw [h]; rfl
  simp only [adderChecks_of_second_mismatch unit, unitFenced, h]
  rfl

theorem adderChecks_of_last_unit (h : d.coll.fence = 7) :
    adderChecks 2 d = (false, raiseFatal evReduceFencedAll (srcNi 3)
      (raise 4 evReduceResidue (srcNi 3) (bumpColl 1 { d with coll.fence := 15 }))) := by
  have unit : ((List.range 4).find? fun u => !bitOf d.coll.fence u) = some 3 := by rw [h]; rfl
  simp only [adderChecks_of_second_mismatch unit, unitFenced, h]
  rfl

/-! ## Arrivals (R297, R311) -/

def isSdata (p : Packet) : Bool := p.typ == 4

theorem answers_sdata {s : State} {d' : Dev} (h : requestRow isSdata sdataArrives s.dev = d') : Answers .sdata s d' :=
  answers_onDev (ok := true) rfl rfl h

/-- The context and the segment that a packet names, where its bytes go in the exchange space, and the bytes (R255). -/
abbrev dataCctx (p : Packet) : Nat := bitsOf (blockOf p) 0 12
abbrev dataSeg (p : Packet) : Nat := bitsOf (blockOf p) 12 16
abbrev dataOff (p : Packet) : Nat := bitsOf (blockOf p) 28 32
abbrev dataBytes (p : Packet) : Bytes := p.payload.drop 16

/-- The arrival is discarded and counted. -/
def arrivalRejected (p : Packet) (e : Dev) : Dev :=
  raiseT 4 evCollReject (srcNi 0) p.tenant (bumpColl 3 e) (collDetail (dataCctx p) (dataSeg p))

/-- The segment as the packet's rank has it. -/
abbrev arrivalInst (p : Packet) (pos : Nat) (e : Dev) : CollInst :=
  instOrNew p.tenant p.drank (dataCctx p) (dataSeg p) pos e

/-- The same, begun by the arrival where it is a broadcast's at a position other than the root (R295). -/
def arrivalBegun (p : Packet) (c : Ctx) (pos : Nat) (e : Dev) : CollInst :=
  if !(arrivalInst p pos e).begun && c.kind == 3 && pos != c.root
  then { arrivalInst p pos e with begun := true, runFrame := (getRun p.tenant e).index } else arrivalInst p pos e

theorem arrivalBegun_arrived (p : Packet) (c : Ctx) (pos : Nat) (e : Dev) :
    (arrivalBegun p c pos e).arrived = (arrivalInst p pos e).arrived := by
  unfold arrivalBegun
  split <;> rfl

theorem sdataArrives_of_unheld (h : heldRanks p.tenant e = []) : sdataArrives p e = arrivalRejected p e :=
  if_pos (List.isEmpty_iff.2 h)

/-- The packet is for the device's own rank of a run that has halted. -/
abbrev runStopped (p : Packet) (e : Dev) : Prop :=
  (getRun p.tenant e).state = .halted ∧ rankCtx p.tenant p.drank e = 0

theorem runStopped_eq (h : ¬ runStopped p e) :
    ((getRun p.tenant e).state == .halted && rankCtx p.tenant p.drank e == 0) = false := by
  simpa using h

section
variable (hheld : heldRanks p.tenant e ≠ [])
include hheld

theorem heldRanks_isEmpty : (heldRanks p.tenant e).isEmpty = false := by simpa using hheld

theorem sdataArrives_of_stopped (h : runStopped p e) : sdataArrives p e = e := by
  simp [sdataArrives, heldRanks_isEmpty hheld, h]

variable (hruns : ¬ runStopped p e)
include hruns

theorem sdataArrives_of_no_context (h : liveCtx p.tenant (dataCctx p) e = none) : sdataArrives p e = arrivalRejected p e := by
  simp only [sdataArrives, heldRanks_isEmpty hheld, runStopped_eq hruns, h, Bool.false_eq_true, if_false, arrivalRejected]

variable (hctx : liveCtx p.tenant (dataCctx p) e = some c)
include hctx

theorem sdataArrives_of_stranger (h : c.posOf p.srank = none ∨ c.posOf p.drank = none) :
    sdataArrives p e = arrivalRejected p e := by
  simp only [sdataArrives, heldRanks_isEmpty hheld, runStopped_eq hruns, hctx, Bool.false_eq_true, if_false]
  split
  next hsource hdest => simp [hsource, hdest] at h
  next => rfl

theorem sdataArrives_of_own_multicast (hsource : c.posOf p.srank = some sp) (hdest : c.posOf p.drank = some pos)
    (hmc : p.mc = true) (hown : p.srank = p.drank) : sdataArrives p e = e := by
  have own : (p.mc && p.srank == p.drank) = true := by simp [hmc, hown]
  simp only [sdataArrives, heldRanks_isEmpty hheld, runStopped_eq hruns, hctx, hsource, hdest, own, Bool.false_eq_true, if_false,
    if_true]

end

/-- The packet comes from position `sp` of a live context for another member, at position `pos`. -/
structure FromMember (p : Packet) (c : Ctx) (sp pos : Nat) (e : Dev) : Prop where
  held : (heldRanks p.tenant e).isEmpty = false
  runs : ((getRun p.tenant e).state == .halted && rankCtx p.tenant p.drank e == 0) = false
  ctx : liveCtx p.tenant (dataCctx p) e = some c
  source : c.posOf p.srank = some sp
  dest : c.posOf p.drank = some pos
  foreign : (p.mc && p.srank == p.drank) = false

theorem FromMember.of_foreign (hheld : heldRanks p.tenant e ≠ []) (hruns : ¬ runStopped p e)
    (hctx : liveCtx p.tenant (dataCctx p) e = some c) (hsource : c.posOf p.srank = some sp) (hdest : c.posOf p.drank = some pos)
    (hforeign : p.mc = false ∨ p.srank ≠ p.drank) : FromMember p c sp pos e where
  held := heldRanks_isEmpty hheld
  runs := runStopped_eq hruns
  ctx := hctx
  source := hsource
  dest := hdest
  foreign := by simpa [imp_iff_not_or] using hforeign

section
variable (hmember : FromMember p c sp pos e)
include hmember

theorem sdataArrives_of_no_segment (hseg : c.nseg ≤ dataSeg p) : sdataArrives p e = arrivalRejected p e := by
  simp only [sdataArrives, hmember.held, hmember.runs, hmember.ctx, hmember.source, hmember.dest, hmember.foreign, hseg,
    Bool.false_eq_true, if_false, if_true, arrivalRejected]

variable (hseg : dataSeg p < c.nseg)
include hseg

theorem sdataArrives_of_barrier (hkind : c.kind = 5) (hnew : sp ∉ (arrivalInst p pos e).heard) : sdataArrives p e =
    mirrorArrival p.tenant p.drank (dataCctx p) (dataSeg p) pos sp 0
      (putInst { arrivalInst p pos e with heard := (arrivalInst p pos e).heard ++ [sp] } e) := by
  simp [sdataArrives, hmember.held, hmember.runs, hmember.ctx, hmember.source, hmember.dest, hmember.foreign,
    Nat.not_le.2 hseg, hkind, hnew]

variable (hkind : c.kind ≠ 5)
include hkind

theorem sdataArrives_of_outside (h : c.psz + c.rsz < dataOff p + (dataBytes p).length) : sdataArrives p e =
    faultRun 2 evCollOverflow (srcNi 0) p.tenant (bumpColl 4 (putInst (arrivalBegun p c pos e) e))
      (collDetail (dataCctx p) (dataSeg p)) := by
  simp only [sdataArrives, hmember.held, hmember.runs, hmember.ctx, hmember.source, hmember.dest, hmember.foreign,
    Nat.not_le.2 hseg, hkind, h, Bool.false_eq_true, if_false, if_true, arrivalBegun]

theorem sdataArrives_of_placed (hinside : dataOff p + (dataBytes p).length ≤ c.psz + c.rsz)
    (hnew : ∀ r ∈ (arrivalInst p pos e).arrived, overlaps r (dataOff p, (dataBytes p).length) = false)
    (hwrite : writeExchange p.tenant (rankCtx p.tenant p.drank e) c (dataSeg p) (dataOff p) (dataBytes p) e = (.ok, f)) :
    sdataArrives p e = mirrorArrival p.tenant p.drank (dataCctx p) (dataSeg p) pos (dataOff p) (dataBytes p).length
      (putInst { arrivalBegun p c pos e with
        arrived := addRange (arrivalBegun p c pos e).arrived (dataOff p, (dataBytes p).length) } f) := by
  have once : ((arrivalBegun p c pos e).arrived.any fun r => overlaps r (dataOff p, (dataBytes p).length)) = false := by
    rw [arrivalBegun_arrived]
    simpa using hnew
  unfold arrivalBegun at once ⊢
  simp only [sdataArrives, hmember.held, hmember.runs, hmember.ctx, hmember.source, hmember.dest, hmember.foreign,
    Nat.not_le.2 hseg, hkind, Nat.not_lt.2 hinside, once, hwrite, Met.done_ok, Bool.false_eq_true, if_false, if_true]

end

/-! ## Steps (R298) -/

theorem findInst_same (h : findInst t rank cctx cseg d = some x) :
    x.tenant = t ∧ x.rank = rank ∧ x.cctx = cctx ∧ x.cseg = cseg := by
  simpa [sameInst, and_assoc] using List.find?_some h

theorem collectiveStep_of_none (h : findInst t rank cctx cseg d = none ∨ liveCtx t cctx d = none) :
    collectiveStep t rank cctx cseg n d = d := by
  unfold collectiveStep
  split
  next hinst hctx => simp [hinst, hctx] at h
  next => rfl

theorem collectiveSegmentComplete_of_none (h : findInst t rank cctx cseg d = none ∨ liveCtx t cctx d = none) :
    collectiveSegmentComplete t rank cctx cseg d = d := by
  unfold collectiveSegmentComplete
  split
  next hinst hctx => simp [hinst, hctx] at h
  next => rfl

/-- The device's own rank acts for run frame `r`, and nothing is tagged afterwards. -/
theorem inFrame_own (r : Nat) (g : Dev → Dev) (d : Dev) : inFrame 0 r g d = untagged (g (tagWork [(0, r)] d)) := rfl

/-- A step that is planned and not ready is not taken. -/
theorem readyPlan_none {o : Option StepPlan} (h : ∀ pl, o = some pl → stepReady x pl = false) :
    o.filter (stepReady x) = none :=
  Option.filter_eq_none_iff.2 fun pl hplan => by simp [h pl hplan]

section
variable (hinst : findInst t rank cctx cseg d = some x) (hctx : liveCtx t cctx d = some c)
include hinst hctx

theorem collectiveStep_of_waiting (hA : ∀ pl, stepPlan c x.pos 0 x.stepA = some pl → stepReady x pl = false)
    (hB : ∀ pl, stepPlan c x.pos 1 x.stepB = some pl → stepReady x pl = false) :
    collectiveStep t rank cctx cseg n d = d := by
  simp only [collectiveStep, hinst, hctx, readyPlan_none hA, readyPlan_none hB, if_true, Nat.one_ne_zero, if_false]
  rfl

/-- A ready step of the first half that asks no adder is run for the run frame in which its segment began. -/
theorem collectiveStep_of_ready (hown : rankCtx t rank d = 0) (hplan : stepPlan c x.pos 0 x.stepA = some pl)
    (hready : stepReady x pl = true) (hunchecked : pl.adds = false ∨ c.rop ≠ 0) :
    collectiveStep t rank cctx cseg n d = untagged (runStep x c 0 pl (tagWork [(0, x.runFrame)] d)) := by
  have next : (stepPlan c x.pos 0 x.stepA).filter (stepReady x) = some pl := by simp [hplan, hready]
  have adder : (pl.adds && c.rop == 0) = false := by simpa [imp_iff_not_or] using hunchecked
  simp only [collectiveStep, hinst, hctx, next, if_true, Option.map_some, Option.orElse_eq_orElse, Option.orElse_some,
    adder, Bool.false_eq_true, if_false, hown, inFrame_own]

end

section
variable {v : Bytes} {dest off o len : Nat}

theorem runStep_of_send (hctx : rankCtx x.tenant x.rank d = 0) (hown : pl.own = []) (hsends : pl.sends = [(dest, off, len)])
    (hbytes : sendBytes x.tenant 0 c x.pos x.cseg dest off len d = (.ok, v, e)) : runStep x c 0 pl d =
      putInst { x with stepA := x.stepA + 1, sent := x.sent ++ [(dest, off, len)] }
        ((sdataPackets x.tenant x.rank c x.cseg dest off v e).foldl (fun d p => inject p d) e) := by
  simp only [runStep, hctx, hown, hsends, List.foldl_nil, List.foldl_cons, hbytes, Met.done_ok, if_true]

theorem runStep_of_own (hctx : rankCtx x.tenant x.rank d = 0) (hown : pl.own = [(o, off, len)]) (hsends : pl.sends = [])
    (hbytes : sendBytes x.tenant 0 c x.pos x.cseg toGroup off len d = (.ok, v, e))
    (hwrite : vaWrite niTlb x.tenant 0 (c.res x.cseg + o) false v e = (.ok, f)) : runStep x c 0 pl d =
      putInst { x with stepA := x.stepA + 1, arrived := addRange x.arrived (c.psz + o, len) } f := by
  simp only [runStep, hctx, hown, hsends, List.foldl_nil, List.foldl_cons, hbytes, hwrite, Met.done_ok, if_true, List.append_nil]

end

/-! ## Completion (R302) -/

/-- The segment is gone, its completion is counted, and the twin is told. -/
def segmentEnded (t rank cctx cseg : Nat) (x : CollInst) (d : Dev) : Dev :=
  mirrorItem t 0 2 false (arrivalItem cctx cseg x.pos 0 instanceEnd)
    (bumpColl 2 (dropInst t rank cctx cseg (tagWork [(0, x.runFrame)] d)))

section
variable (hinst : findInst t rank cctx cseg d = some x) (hctx : liveCtx t cctx d = some c)
include hinst hctx

theorem collectiveSegmentComplete_of_open (h : segmentDone x c d = false) : collectiveSegmentComplete t rank cctx cseg d = d := by
  simp only [collectiveSegmentComplete, hinst, hctx, h, Bool.false_eq_true, if_false]

variable (hdone : segmentDone x c d = true) (hown : rankCtx t rank d = 0)
include hdone hown

theorem collectiveSegmentComplete_of_counted (howns : ownsPool t c.doneCtr (segmentEnded t rank cctx cseg x d) = true)
    (hadd : poolAdd c.doneCtr 1 (segmentEnded t rank cctx cseg x d) = (.applied, f)) :
    collectiveSegmentComplete t rank cctx cseg d = untagged f := by
  unfold segmentEnded at howns hadd
  simp only [collectiveSegmentComplete, hinst, hctx, hdone, hown, inFrame_own, howns, hadd, if_true]

theorem collectiveSegmentComplete_of_unowned (h : ownsPool t c.doneCtr (segmentEnded t rank cctx cseg x d) = false) :
    collectiveSegmentComplete t rank cctx cseg d =
      untagged (faultRun 1 evCounterRange (srcNi 0) t (segmentEnded t rank cctx cseg x d)) := by
  unfold segmentEnded at h ⊢
  simp only [collectiveSegmentComplete, hinst, hctx, hdone, hown, inFrame_own, h, Bool.false_eq_true, if_true, if_false]

end

end Sys2Proof.Machine

namespace Sys2Proof.Proofs
open Sys2Proof.Machine

/-- Settles O51: an arrival by what it names and where its bytes go, a step by the plan that is ready, an addition by the units that
are left, and a segment's end by whether it is complete. -/
theorem scheduledData : Obligations.ScheduledData := by
  unfold Obligations.ScheduledData
  refine ⟨exchangeVa_eq, fun d => ⟨rfl, rfl, adderChecks_of_all_sound, adderChecks_of_last_unit⟩, ?_⟩
  rintro s _ rfl
  refine ⟨fun hnone => answers_sdata (requestRow_of_none hnone), fun p e htake hown => ?arrival,
    fun t rank cctx cseg ht => ?segment⟩
  case arrival =>
    have takes {d' : Dev} (h : sdataArrives p e = d') : Answers .sdata s d' :=
      answers_sdata ((requestRow_of_own htake hown).trans h)
    refine ⟨fun hnone => takes (sdataArrives_of_unheld hnone), fun hheld hstop => takes (sdataArrives_of_stopped hheld hstop),
      fun hheld hruns hctx => takes (sdataArrives_of_no_context hheld hruns hctx), fun c hheld hruns hctx =>
        ⟨fun hother => takes (sdataArrives_of_stranger hheld hruns hctx hother), fun sp pos hsource hdest => ⟨fun hmc hself =>
          takes (sdataArrives_of_own_multicast hheld hruns hctx hsource hdest hmc hself), fun hforeign => ?_⟩⟩⟩
    have member : FromMember p c sp pos e := FromMember.of_foreign hheld hruns hctx hsource hdest hforeign
    exact ⟨fun hseg => takes (sdataArrives_of_no_segment member hseg),
      fun hseg hkind hnew => takes (sdataArrives_of_barrier member hseg hkind hnew),
      fun hseg hkind hout => takes (sdataArrives_of_outside member hseg hkind hout),
      fun f hseg hkind hin hnew hwrite => takes (sdataArrives_of_placed member hseg hkind hin hnew hwrite)⟩
  case segment =>
    have tenant : tenantOk t = true := decide_eq_true ht
    refine ⟨fun hnone => ⟨fun n => answers_onDev tenant rfl (collectiveStep_of_none hnone),
      answers_onDev tenant rfl (collectiveSegmentComplete_of_none hnone)⟩, fun x c hinst hctx => ?_⟩
    obtain ⟨rfl, rfl, rfl, rfl⟩ := findInst_same hinst
    refine ⟨fun hA hB n => answers_onDev tenant rfl (collectiveStep_of_waiting hinst hctx hA hB),
      fun pl n hrank hplan hready hunchecked => ?step,
      fun hopen => answers_onDev tenant rfl (collectiveSegmentComplete_of_open hinst hctx hopen),
      fun hdone hrank =>
        ⟨fun f howns hadd => answers_onDev tenant rfl (collectiveSegmentComplete_of_counted hinst hctx hdone hrank howns hadd),
          fun hnot => answers_onDev tenant rfl (collectiveSegmentComplete_of_unowned hinst hctx hdone hrank hnot)⟩⟩
    case step =>
      have runs := collectiveStep_of_ready (n := n) hinst hctx hrank hplan hready hunchecked
      have steps {d' : Dev} (h : runStep x c 0 pl (tagWork [(0, x.runFrame)] s.dev) = d') :
          Answers (.collectiveStep x.tenant x.rank x.cctx x.cseg n) s (untagged d') :=
        answers_onDev tenant rfl (runs.trans (congrArg untagged h))
      exact ⟨fun dest off len v e hown hsends hbytes => steps (runStep_of_send hrank hown hsends hbytes),
        fun o off len v e f hown hsends hbytes hwrite => steps (runStep_of_own hrank hown hsends hbytes hwrite)⟩

end Sys2Proof.Proofs
end

section
/-!
PROOFS. Every command and every step: what it can answer, what it takes from the queue, the pins it leaves (R474, R475), and the
state after reset (R387, R396).
-/
namespace Sys2Proof.Machine

/-! ## What a command can answer -/

section
variable {c : Instr}

/-- Every arm of the dispatch is one effect on the device, guarded by the existence of the units that its command names. -/
theorem exec_shape (c : Instr) : Laws.Shape.Statement c := by
  cases c <;> exact ⟨_, fun _ => rfl⟩

theorem completes_of_wellFormed (h : c.wellFormed = true) (s : State) : Completes c s PinsSettled := by
  obtain ⟨f, hf⟩ := exec_shape c
  exact completes_onDev h (hf s) (settle_pinsSettled _)

theorem refusesUnit_of_illFormed (h : c.wellFormed = false) (s : State) : RefusesUnit c s := by
  obtain ⟨f, hf⟩ := exec_shape c
  rw [RefusesUnit, hf s, h, onDev_false]

theorem wellFormed_of_next {s s' : State} (h : exec c s = .next s') : c.wellFormed = true := by
  by_contra hbad
  have refused := refusesUnit_of_illFormed (Bool.eq_false_of_not_eq_true hbad) s
  rw [RefusesUnit, h] at refused
  nomatch refused

/-- A command that goes on leaves the queue as it was and the pins at their levels. -/
theorem exec_next {s s' : State} (h : exec c s = .next s') : s'.pending = s.pending ∧ PinsSettled s'.dev := by
  obtain ⟨d', hnext, hpins⟩ := completes_of_wellFormed (wellFormed_of_next h) s
  obtain rfl := Host.Outcome.next.inj (h.symm.trans hnext)
  exact ⟨rfl, hpins⟩

theorem exec_ne_fault (s : State) (r : Fault) : exec c s ≠ .fault r := by
  obtain ⟨f, hf⟩ := exec_shape c
  rw [hf s]
  rcases onDev_cases c.wellFormed f s with ⟨-, hnext⟩ | ⟨-, hrefused⟩
  · rw [hnext]; nofun
  · rw [hrefused]; nofun

theorem completes_iff_wellFormed (s : State) : Completes c s (fun _ => True) ↔ c.wellFormed = true :=
  ⟨fun ⟨_, hnext, _⟩ => wellFormed_of_next hnext,
    fun h => (completes_of_wellFormed h s).imp fun _ hnext => ⟨hnext.1, trivial⟩⟩

end

/-! ## The passing of time -/

/-- A walk whose every step leaves a part of what it carries leaves that part. -/
theorem foldl_leaves {α β γ : Type} (part : α → γ) {f : α → β → α} (h : ∀ a b, part (f a b) = part a) (l : List β) (a : α) :
    part (l.foldl f a) = part a := by
  induction l generalizing a with
  | nil => rfl
  | cons b l ih => exact (ih _).trans (h a b)

/-- The device without what the passing of time counts: activity, and the age of the descriptors held at a reel's head. -/
def uncounted (d : Dev) : Dev := { d with tobs := [], reels := [] }

theorem countTile_uncounted (n t : Nat) (d : Dev) : uncounted (countTile n t d) = uncounted d := by
  refine foldl_leaves uncounted (fun d ctx => foldl_leaves uncounted (fun d e => ?_) _ _) _ _
  split <;> rfl

theorem countActivity_uncounted (n : Nat) (d : Dev) : uncounted (countActivity n d) = uncounted d := by
  unfold countActivity
  split
  · rfl
  · exact foldl_leaves uncounted (fun d t => countTile_uncounted n t d) _ _

theorem shiftHeld_uncounted (n : Nat) (d : Dev) : uncounted (shiftHeld n d) = uncounted d := by
  refine foldl_leaves uncounted (fun d r => ?_) _ _
  split
  · rfl
  · split <;> rfl

/-- A unit of time on an empty queue changes the clock and those counts. -/
theorem idleTime_uncounted (d : Dev) : uncounted (idleTime d) = uncounted (passTime 1 d) :=
  (shiftHeld_uncounted _ _).trans (countActivity_uncounted _ _)

theorem idleTime_now (d : Dev) : (idleTime d).now = d.now + 1 := congrArg Dev.now (idleTime_uncounted d)

theorem idleTime_pinsSettled {d : Dev} (h : PinsSettled d) : PinsSettled (idleTime d) := by
  have pins : (idleTime d).pins = d.pins := (congrArg Dev.pins (idleTime_uncounted d) :)
  have boot : (idleTime d).boot = d.boot := (congrArg Dev.boot (idleTime_uncounted d) :)
  have clk : (idleTime d).clk = d.clk := (congrArg Dev.clk (idleTime_uncounted d) :)
  unfold PinsSettled alertLevel at h ⊢
  rwa [pins, boot, clk]

/-! ## Steps -/

section
variable {s s' : State}

/-- A step lets time pass on an empty queue; else it is the command at the front, run on the rest. -/
theorem step_cases (s : State) : (s.pending = [] ∧ step s = .next { s with dev := idleTime s.dev }) ∨
    ∃ c rest, s.pending = c :: rest ∧ step s = exec c { s with pending := rest } := by
  unfold step
  cases h : s.pending with
  | nil => exact .inl ⟨rfl, rfl⟩
  | cons c rest => exact .inr ⟨c, rest, rfl, rfl⟩

theorem step_ne_fault (s : State) (r : Fault) : step s ≠ .fault r := by
  rcases step_cases s with ⟨-, hidle⟩ | ⟨c, rest, -, hrun⟩
  · rw [hidle]; nofun
  · rw [hrun]; exact exec_ne_fault _ r

theorem step_pending (h : step s = .next s') : s'.pending = s.pending.drop 1 := by
  rcases step_cases s with ⟨hempty, hidle⟩ | ⟨c, rest, hfront, hrun⟩
  · obtain rfl := Host.Outcome.next.inj (hidle.symm.trans h)
    simp [hempty]
  · rw [(exec_next (hrun.symm.trans h)).1, hfront]
    rfl

theorem step_pinsSettled (h : step s = .next s') (hpins : PinsSettled s.dev) : PinsSettled s'.dev := by
  rcases step_cases s with ⟨-, hidle⟩ | ⟨c, rest, -, hrun⟩
  · obtain rfl := Host.Outcome.next.inj (hidle.symm.trans h)
    exact idleTime_pinsSettled hpins
  · exact (exec_next (hrun.symm.trans h)).2

end

end Sys2Proof.Machine

namespace Sys2Proof.Proofs
open Sys2Proof.Machine

/-- Settles O59: a command settles the pins itself, and the passing of time touches nothing that they follow. -/
theorem pinsInvariant : Obligations.PinsInvariant := by
  unfold Obligations.PinsInvariant
  exact ⟨fun s s' hpins hstep => step_pinsSettled hstep hpins, fun c s s' hexec => (exec_next hexec).2⟩

/-- Settles O57: a step is exec of the front command, and on an empty queue one unit of time. -/
theorem stepRuns : Obligations.StepRuns := by
  unfold Obligations.StepRuns
  exact ⟨fun _ _ _ => rfl, fun d => ⟨rfl, idleTime_now d⟩⟩

/-- Settles O58: the outcome of a command is that of the one guarded effect that it is, and the guard is its operands alone. -/
theorem outcomeShape : Obligations.OutcomeShape := by
  unfold Obligations.OutcomeShape
  refine ⟨fun c s => ⟨fun h => completes_of_wellFormed h s, fun h => refusesUnit_of_illFormed h s⟩, step_ne_fault,
    fun s s' => step_pending, fun s n => ?_⟩
  intro completes
  have tile {c : Instr} {P : Prop} (h : c.wellFormed = true ↔ P) : completes c ↔ P := (completes_iff_wellFormed s).trans h
  have below (k : Nat) : decide (n < k) = true ↔ n < k := decide_eq_true_iff
  exact ⟨tile (below 128), tile (below 128), tile (below 128), tile (below 1152), tile (below 1152), tile (below 16384),
    tile (below 1024), tile (below 16384), tile (below 9), tile (by simp [Instr.wellFormed]), tile (below 5),
    (completes_iff_wellFormed s).2 rfl, (completes_iff_wellFormed s).2 rfl⟩

/-- Settles O60: every table of the reset state lists nothing, so each read gives its default. -/
theorem resetState : Obligations.ResetState := by
  unfold Obligations.ResetState
  exact ⟨rfl, ⟨rfl, nofun⟩, fun idx sub => rfl, rfl, rfl, rfl, rfl, rfl, rfl, rfl, rfl, rfl, rfl, rfl, rfl, rfl, rfl, rfl,
    fun t => rfl, fun r => rfl, fun p => rfl, fun t r => ite_self _, fun i => rfl, fun t i => rfl, fun a => ⟨rfl, rfl, rfl⟩⟩

end Sys2Proof.Proofs
end

section
/-!
PROOFS. What resets the device and what a reset keeps (R442, R473 to R477, Table 20.7), the boot ROM (R433, R434, R438, R444),
and the test access port (R480).
-/
namespace Sys2Proof.Machine

/-! ## What holds the device in reset -/

section
variable {flash : Bool} {d : Dev}

theorem startBoot_of_free (hpor : d.pins.porLow = false) (haon : d.boot.holdAon = false) (hrail : d.boot.holdRail = false) :
    startBoot flash d = bootRom flash d := by simp [startBoot, hpor, haon, hrail]

theorem startBoot_of_held (h : d.pins.porLow = true ∨ d.boot.holdAon = true ∨ d.boot.holdRail = true) : startBoot flash d = d := by
  rcases h with h | h | h <;> simp [startBoot, h]

theorem porRelease_of_low (h : d.pins.porLow = true) : porRelease flash d = startBoot flash
    { d with pins.porLow := false, pins.driven := none, boot.fabLost := false, boot.resetAt := d.now, clk.resetAt := d.now } :=
  if_pos h

theorem railsGood_of_held (h : d.boot.holdRail = true) :
    railsGood flash d = startBoot flash { d with pins.vaonLow := false, boot.holdRail := false } := if_pos h

theorem aonReturn_of_held (h : d.boot.holdAon = true) : aonReturn flash d = startBoot flash { d with boot.holdAon := false } :=
  if_pos h

/-! ## Rails (R477) -/

/-- A rail below its minimum: VAON_1V8 alone is a pin of the state. -/
def railLow (rail : Nat) (d : Dev) : Dev := { d with pins.vaonLow := d.pins.vaonLow || rail == 2 }

theorem railFault_eq (rail us : Nat) (d : Dev) : railFault rail us d =
    if 5 ≤ us ∧ d.pins.porLow = false then { (coldReset (railLow rail d)) with boot.holdRail := true } else railLow rail d := by
  have low : (if rail = 2 then { d with pins.vaonLow := true } else d) = railLow rail d := by
    unfold railLow
    split
    next h => simp [h]
    next h => rw [beq_false_of_ne h, Bool.or_false]
  rw [railFault, low]

/-! ## Resets that are due (R437, R442, R443) -/

theorem requestedWarmReset_of_none (h : d.boot.resetDue = none) : requestedWarmReset flash d = d := by
  simp [requestedWarmReset, h]

theorem requestedWarmReset_of_due (h : d.boot.resetDue ≠ none) : requestedWarmReset flash d = warmReset flash d :=
  if_pos (Option.isSome_iff_ne_none.2 h)

/-- A boot that has begun and not ended is cut off, by the watchdog or a failure, where `due` holds. -/
theorem cutOff_of_not {due : Prop} [Decidable due] {e : Dev} (h : d.boot.state ≠ 0 ∨ d.boot.started = false ∨ ¬ due) :
    (if d.boot.state = 0 ∧ d.boot.started = true ∧ due then e else d) = d := by
  refine if_neg ?_
  rintro ⟨hstate, hstarted, hdue⟩
  rcases h with h | h | h
  · exact h hstate
  · exact absurd (h.symm.trans hstarted) nofun
  · exact h hdue

theorem bootWatchdog_of_late (hstate : d.boot.state = 0) (hstarted : d.boot.started = true)
    (hlate : d.boot.romAt + 10000 * tMs ≤ d.now) :
    bootWatchdog flash d = warmReset flash { d with boot.pendingReason := 0x0501 } := if_pos ⟨hstate, hstarted, hlate⟩

theorem bootWatchdog_of_not (h : d.boot.state ≠ 0 ∨ d.boot.started = false ∨ d.now < d.boot.romAt + 10000 * tMs) :
    bootWatchdog flash d = d := cutOff_of_not (h.imp_right (·.imp_right Nat.not_le.2))

theorem bootFailure_of_listed {reason : Nat} (hstate : d.boot.state = 0) (hstarted : d.boot.started = true)
    (hreason : failureReason reason d = true) :
    bootFailure reason flash d = warmReset flash { d with boot.pendingReason := reason } := if_pos ⟨hstate, hstarted, hreason⟩

theorem bootFailure_of_not {reason : Nat} (h : d.boot.state ≠ 0 ∨ d.boot.started = false ∨ failureReason reason d = false) :
    bootFailure reason flash d = d := cutOff_of_not (h.imp_right (·.imp_right Bool.eq_false_iff.1))

end

/-! ## The loss of the fabric clock (R476) -/

/-- The device without what a suspicion of the partner and its probe can change. -/
def untwinned (d : Dev) : Dev :=
  { d with runs := [], net := {}, ev := {}, twin := {}, mgmt := {}, freeUsed := 0, out := [] }

section
variable (d : Dev)

theorem faultRun_untwinned {cls : Nat} (num src t detail : Nat) (h : cls ≠ 3) :
    untwinned (faultRun cls num src t d detail) = untwinned d := by rw [faultRun_eq num src t d detail h]; rfl

theorem raise_untwinned {cls : Nat} (num src detail : Nat) (h : cls ≠ 3) :
    untwinned (raise cls num src d detail) = untwinned d := by rw [raise_eq num src d detail h]; rfl

theorem takeHaltRequest_untwinned (t : Nat) (q : Stretch) : untwinned (takeHaltRequest t q d) = untwinned d := by
  unfold takeHaltRequest
  extract_lets r
  split
  next => split <;> rfl
  next => rfl

theorem takeStretch_untwinned (t : Nat) (q : Stretch) : untwinned (takeStretch t q d) = untwinned d := by
  unfold takeStretch
  extract_lets r
  split
  next =>
    split
    next =>
      split
      next => exact faultRun_untwinned d _ _ _ _ (by decide)
      next => rfl
    next => rfl
  next => rfl

theorem sendStretch_untwinned (t : Nat) (q : Stretch) : untwinned (sendStretch t q d) = untwinned d := by
  unfold sendStretch
  extract_lets r g d1
  have sent : untwinned d1 = untwinned d := by
    unfold d1
    split <;> rfl
  split
  next => exact (takeHaltRequest_untwinned d1 t q).trans sent
  next => exact (takeStretch_untwinned d1 t q).trans sent

theorem openSuspicion_untwinned : untwinned (openSuspicion d) = untwinned d := by
  unfold openSuspicion
  split
  next => rfl
  next => exact (foldl_leaves untwinned (fun e t => sendStretch_untwinned e t _) _ _).trans (raise_untwinned _ _ _ _ (by decide))

theorem driveSideband_untwinned (msg : Bytes) : untwinned (driveSideband msg d) = untwinned d := by
  refine foldl_leaves untwinned (fun e b => ?_) _ d
  rfl

theorem sidebandSend_untwinned (msg : Bytes) : untwinned (sidebandSend msg d) = untwinned d := by
  unfold sidebandSend
  split
  next => rfl
  next =>
    split
    next => rfl
    next => exact driveSideband_untwinned _ _

theorem sendProbe_untwinned : untwinned (sendProbe d) = untwinned d := sidebandSend_untwinned _ _

theorem twinPortDown_untwinned : untwinned (twinPortDown d) = untwinned d := by
  have suspected : untwinned (openSuspicion { d with twin.upAt := none }) = untwinned d := openSuspicion_untwinned _
  unfold twinPortDown
  dsimp only
  split
  next => exact (sendProbe_untwinned _).trans suspected
  next => exact suspected

theorem portGoesDown_untwinned (p : Nat) : untwinned (portGoesDown p d) = untwinned (modPort p (·.downAt d.now) d) := by
  unfold portGoesDown
  split
  next => exact twinPortDown_untwinned _
  next => rfl

end

/-- From `d` to `e` the ports of `l` have lost their clock: those that train, are up or retrain are down. The other ports, the
boot state and the time stay. -/
structure ClockLost (l : List Nat) (d e : Dev) : Prop where
  now : e.now = d.now
  boot : e.boot = d.boot
  down : ∀ p ∈ l, (getPort p e).state = if (getPort p d).state = 1 ∨ (getPort p d).state = 2 ∨ (getPort p d).state = 3 then 4
    else (getPort p d).state
  others : ∀ p, p ∉ l → getPort p e = getPort p d

theorem portGoesDown_clockLost {p : Nat} {x : Port} {d e : Dev}
    (hstate : (getPort p d).state = 1 ∨ (getPort p d).state = 2 ∨ (getPort p d).state = 3) (hnow : e.now = d.now)
    (hboot : e.boot = d.boot) (hport : PortBecomes p x d e) : ClockLost [p] d (portGoesDown p e) := by
  have frame := portGoesDown_untwinned e p
  have ports : (portGoesDown p e).ports = (modPort p (·.downAt e.now) e).ports := (congrArg Dev.ports frame :)
  have down := (hport.modPort (·.downAt e.now)).of_ports ports
  refine ⟨(congrArg Dev.now frame :).trans hnow, (congrArg Dev.boot frame :).trans hboot, fun q hq => ?_, fun q hq => ?_⟩
  · obtain rfl := List.mem_singleton.1 hq
    rw [down.same, if_pos hstate]
    rfl
  · exact down.others q (by simpa using hq)

theorem portLosesClock_clockLost (p : Nat) (d : Dev) : ClockLost [p] d (portLosesClock p d) := by
  unfold portLosesClock
  extract_lets st
  split
  next hup =>
    exact portGoesDown_clockLost (.inr hup) (raise_now ..) (by rw [raise_eq _ _ _ _ (by decide)]; rfl)
      (((PortBecomes.refl p d).bump 6).of_ports (raise_ports ..))
  next hnot =>
    split
    next htrains => exact portGoesDown_clockLost (.inl htrains) rfl rfl (PortBecomes.refl p d)
    next hidle =>
      refine ⟨rfl, rfl, fun q hq => ?_, fun _ _ => rfl⟩
      obtain rfl := List.mem_singleton.1 hq
      exact (if_neg fun h => h.elim hidle hnot).symm

theorem foldl_portLosesClock {l : List Nat} (h : l.Nodup) (d : Dev) : ClockLost l d (l.foldl (fun d p => portLosesClock p d) d) := by
  induction l generalizing d with
  | nil => exact ⟨rfl, rfl, nofun, fun _ _ => rfl⟩
  | cons p l ih =>
    obtain ⟨hp, hl⟩ := List.nodup_cons.1 h
    have first := portLosesClock_clockLost p d
    have rest := ih hl (portLosesClock p d)
    refine ⟨rest.now.trans first.now, rest.boot.trans first.boot, fun q hq => ?_, fun q hq => ?_⟩
    · rcases List.mem_cons.1 hq with rfl | hq
      · rw [List.foldl_cons, rest.others q hp]
        exact first.down q (List.mem_singleton_self q)
      · rw [List.foldl_cons, rest.down q hq, first.others q fun hsame => hp (List.mem_singleton.1 hsame ▸ hq)]
    · obtain ⟨hne, hq⟩ := not_or.1 (mt List.mem_cons.2 hq)
      exact (rest.others q hq).trans (first.others q (by simpa using hne))

theorem ClockLost.settle {l : List Nat} {d e : Dev} (h : ClockLost l d e) : ClockLost l d (settle e) :=
  ⟨h.now, h.boot, h.down, h.others⟩

theorem fabLoss_clockLost (d : Dev) : ClockLost (List.range 9) { d with boot.fabLost := true } (fabLoss d) :=
  foldl_portLosesClock List.nodup_range _

/-! ## The flash -/

theorem flashPut_frame (a : Nat) (bs : Bytes) (d : Dev) :
    flashPut a bs d = { d with boot.flash := (flashPut a bs d).boot.flash } := rfl

theorem putBootRec_frame (r : BootRec) (d : Dev) : putBootRec r d = { d with boot.flash := (putBootRec r d).boot.flash } := by
  unfold putBootRec
  split
  next => exact flashPut_frame _ _ d
  next => exact flashPut_frame _ _ d

section
variable {d e : Dev} (h : e.boot.flash = d.boot.flash)
include h

theorem flashRead_congr (a n : Nat) : flashRead a n e = flashRead a n d := by
  unfold flashRead flashByte
  rw [h]

theorem copyValid_congr (k : Nat) : copyValid k e = copyValid k d := by
  unfold copyValid recordCopy
  rw [flashRead_congr h]

theorem copyInUse_congr : copyInUse e = copyInUse d := by
  unfold copyInUse recordCopy
  rw [copyValid_congr h, copyValid_congr h, flashRead_congr h, flashRead_congr h]

theorem bootRec_congr : bootRec e = bootRec d := by
  unfold bootRec
  rw [copyInUse_congr h]
  split
  next => exact congrArg parseBootRec (flashRead_congr h _ _)
  next => rfl

theorem slotRead_congr (n a b : Nat) : slotRead n a b e = slotRead n a b d := flashRead_congr h _ _

theorem verifySlot_congr (n : Nat) : verifySlot n e = verifySlot n d := by
  unfold verifySlot
  dsimp only
  rw [slotRead_congr h, slotRead_congr h, bootRec_congr h]

end

/-! ## The boot ROM (R433, R434, R438) -/

section
variable (d : Dev)

@[simp] theorem bringLinkUp_boot : (bringLinkUp d).boot = d.boot := by unfold bringLinkUp; split <;> rfl

@[simp] theorem raise_boot (cls num src detail : Nat) : (raise cls num src d detail).boot = d.boot := by
  rw [raise, raiseEvent_frame]

/-- The device is in minimal mode with a reason. -/
def Minimal (reason : Nat) (d : Dev) : Prop := d.boot.state = 2 ∧ d.boot.reason = reason

theorem minimalMode_minimal (reason check : Nat) : Minimal reason (minimalMode reason check d) := by
  rw [Minimal, minimalMode, bringLinkUp_boot, raise_boot]
  exact ⟨rfl, rfl⟩

theorem enterMinimal_minimal (reason check : Nat) : Minimal reason (enterMinimal reason check d) :=
  minimalMode_minimal _ reason check

/-- Stage 1 of slot `n` runs. -/
def Starts (n : Nat) (d : Dev) : Prop := d.boot.state = 0 ∧ d.boot.started = true ∧ d.boot.slot = n

theorem startSlot_starts (n : Nat) : Starts n (startSlot n d) := by
  rw [Starts, startSlot, bringLinkUp_boot]
  exact ⟨rfl, rfl, rfl⟩

theorem startSlot_failCheck (n : Nat) : (startSlot n d).boot.failCheck = d.boot.failCheck := by
  rw [startSlot, bringLinkUp_boot]

theorem reinitRecord_frame : reinitRecord d = { d with boot.flash := (reinitRecord d).boot.flash } := by
  unfold reinitRecord
  split
  next => exact putBootRec_frame _ d
  next => rfl

/-- The boot ROM has begun: its start is noted, and the supply stands at the first operating point. -/
def romBegun : Dev := { d with boot.romAt := d.now + tMs, clk.vcoreMv := oppMv 0 }

/-- The boot ROM has read the record and judged both slots. -/
def romJudged : Dev := { (reinitRecord (romBegun d)) with
  boot.slotState := [0, 1].foldl (fun m s => Sparse.set 0 m s (slotVerdict s (reinitRecord (romBegun d)))) [] }

theorem romJudged_tripLatch : (romJudged d).boot.tripLatch = d.boot.tripLatch :=
  (congrArg (·.boot.tripLatch) (reinitRecord_frame (romBegun d)) :)

theorem romJudged_fence : (romJudged d).coll.fence = d.coll.fence :=
  (congrArg (·.coll.fence) (reinitRecord_frame (romBegun d)) :)

/-- The boot ROM has noted the attempt before. -/
def romNoted : Dev := { (notePrevious (romJudged d)) with boot.pendingReason := 0 }

theorem bootRom_answering : bootRom true d =
    if (romJudged d).boot.tripLatch then enterMinimal 0x0901 0 (romJudged d)
    else if (romJudged d).coll.fence = 15 then enterMinimal 0x0902 0 (romJudged d)
    else if (bootRec (romNoted d)).minlatch ∨ (bootRec (romNoted d)).count = 3 then
      enterMinimal (bootRec (romNoted d)).reason 0 (romNoted d)
    else attemptBoot (romNoted d) := by
  unfold bootRom romNoted romJudged romBegun
  exact if_neg nofun

variable {d}

theorem bootRom_of_trip (h : d.boot.tripLatch = true) : Minimal 0x0901 (bootRom true d) := by
  rw [bootRom_answering, romJudged_tripLatch, if_pos h]
  exact enterMinimal_minimal ..

theorem bootRom_of_fenced (htrip : d.boot.tripLatch = false) (hfence : d.coll.fence = 15) :
    Minimal 0x0902 (bootRom true d) := by
  rw [bootRom_answering, romJudged_tripLatch, romJudged_fence, if_neg (Bool.eq_false_iff.1 htrip), if_pos hfence]
  exact enterMinimal_minimal ..

section
variable (hvalid : (copyInUse d).isSome = true) (hprog : (bootRec d).inprog = false)
include hvalid

/-- A record that is valid stays as it is. -/
theorem romJudged_flash : (romJudged d).boot.flash = d.boot.flash := by
  have valid : (copyInUse (romBegun d)).isSome = true := by rwa [copyInUse_congr (e := romBegun d) (d := d) rfl]
  have kept : reinitRecord (romBegun d) = romBegun d :=
    if_neg fun hnone => Option.isSome_iff_ne_none.1 valid (Option.isNone_iff_eq_none.1 hnone)
  exact (congrArg (·.boot.flash) kept :)

include hprog

theorem romNoted_flash : (romNoted d).boot.flash = d.boot.flash := by
  have record : bootRec (romJudged d) = bootRec d := bootRec_congr (romJudged_flash hvalid)
  have noted : notePrevious (romJudged d) = romJudged d := by
    rw [notePrevious, record, hprog]
    exact if_neg nofun
  rw [romNoted, noted]
  exact romJudged_flash hvalid

variable (htrip : d.boot.tripLatch = false) (hfence : d.coll.fence ≠ 15)
include htrip hfence

theorem bootRom_of_untried : bootRom true d = if (bootRec d).minlatch = true ∨ (bootRec d).count = 3 then
    enterMinimal (bootRec d).reason 0 (romNoted d) else attemptBoot (romNoted d) := by
  rw [bootRom_answering, romJudged_tripLatch, romJudged_fence, if_neg (Bool.eq_false_iff.1 htrip), if_neg hfence,
    bootRec_congr (romNoted_flash hvalid hprog)]

end

end

/-- The slot that the next attempt of a record is for (R434). -/
def attemptSlot (r : BootRec) : Nat := if r.count + 1 = 3 then 1 - r.next % 2 else r.next % 2

/-- What an attempt writes into the record. -/
def attemptNoted (last reason : Nat) (d : Dev) : Dev := modBootRec (fun r =>
  { (r.setFlag 0 true) with count := r.count + 1, started := r.started + 1, last := last, reason := reason }) d

theorem attemptBoot_eq (d : Dev) : attemptBoot d =
    let r := bootRec d
    let n := attemptSlot r
    if verifySlot n d = 0 then startSlot n (attemptNoted n r.reason d)
    else if verifySlot (1 - n) d = 0 then
      startSlot (1 - n) { (attemptNoted (1 - n) (0x0101 + n) d) with boot.failCheck := verifySlot n d }
    else enterMinimal 0x0103 (verifySlot n d) (modBootRec (fun r => { r with count := 3 }) (attemptNoted (1 - n) r.reason d)) := by
  unfold attemptBoot attemptSlot attemptNoted
  rfl

section
variable {d e : Dev} (h : e.boot.flash = d.boot.flash)
include h

theorem attemptBoot_of_good (hgood : verifySlot (attemptSlot (bootRec d)) d = 0) :
    Starts (attemptSlot (bootRec d)) (attemptBoot e) := by
  rw [attemptBoot_eq]
  dsimp only
  rw [bootRec_congr h, verifySlot_congr h, if_pos hgood]
  exact startSlot_starts _ _

variable (hbad : verifySlot (attemptSlot (bootRec d)) d ≠ 0)
include hbad

/-- Where the slot of the attempt does not verify the other one starts, if that does. -/
theorem attemptBoot_of_other_good (hgood : verifySlot (1 - attemptSlot (bootRec d)) d = 0) :
    Starts (1 - attemptSlot (bootRec d)) (attemptBoot e) ∧
    (attemptBoot e).boot.failCheck = verifySlot (attemptSlot (bootRec d)) d := by
  rw [attemptBoot_eq]
  dsimp only
  rw [bootRec_congr h, verifySlot_congr h, verifySlot_congr h, if_neg hbad, if_pos hgood]
  exact ⟨startSlot_starts _ _, startSlot_failCheck _ _⟩

theorem attemptBoot_of_none_good (hother : verifySlot (1 - attemptSlot (bootRec d)) d ≠ 0) :
    Minimal 0x0103 (attemptBoot e) := by
  rw [attemptBoot_eq]
  dsimp only
  rw [bootRec_congr h, verifySlot_congr h, verifySlot_congr h, if_neg hbad, if_neg hother]
  exact enterMinimal_minimal ..

end

/-! ## What a reset keeps (Table 20.7) -/

/-- What every reset of the device keeps of `d`, and the parts that return to their reset values. -/
def ResetOf (d e : Dev) : Prop :=
  e.boot.flash = d.boot.flash ∧ e.mgmt.flash = d.mgmt.flash ∧ e.mgmt.dict = d.mgmt.flash ∧
  e.ev.persistent = d.ev.persistent ∧ e.mem.host = d.mem.host ∧ e.pins.porLow = d.pins.porLow ∧
  e.pins.perstLow = d.pins.perstLow ∧ e.pins.vaonLow = d.pins.vaonLow ∧ e.runs = [] ∧ e.tiles = [] ∧ e.reels = [] ∧
  e.ctr = {} ∧ e.chains = [] ∧ e.streams = [] ∧ e.ports = [] ∧ e.net = {} ∧ e.rem = {} ∧ e.twin = {} ∧ e.pcie = {} ∧
  e.mem.phys = [] ∧ e.mem.imem = [] ∧ e.mem.err = [] ∧ e.ev.queue = [] ∧ e.ev.log = [] ∧ e.mgmt.shadow = [] ∧
  e.mgmt.lease = {} ∧ e.mgmt.notices = [] ∧ e.boot.state = 0 ∧ e.boot.started = false ∧ e.fatal = false ∧
  e.clk.placed = false ∧ e.clk.frame = 0 ∧ e.obs = [] ∧ e.tobs = []

theorem coldReset_resetOf (d : Dev) : ResetOf d (coldReset d) := by
  simp only [ResetOf, coldReset, resetState, and_self]

/-- A warm reset keeps more, and none of it is among these. -/
theorem warmState_resetOf (d : Dev) : ResetOf d (warmState d) := by
  simp only [ResetOf, warmState, resetState, and_self]

/-! ## Test access (R480) -/

section
variable {d : Dev} {code shift captured : Nat} {f : Dev → Dev}

theorem takeTap_of_reset (h : d.pins.trstLow = true) : takeTap code shift captured f d = d := if_pos h

/-- An instruction has been taken, and what an earlier one drove is released. -/
def tapTaken (code shift captured : Nat) (d : Dev) : Dev :=
  emit (.jtag captured) { d with pins.tapCode := code, pins.shift := shift, pins.driven := none, pins.highz := false }

theorem takeTap_of_enabled (h : d.pins.trstLow = false) :
    takeTap code shift captured f d = f (tapTaken code shift captured d) := if_neg (Bool.eq_false_iff.1 h)

theorem driveBoundary_of_low (h : d.pins.porLow = true) :
    driveBoundary d = { d with pins.driven := some d.pins.boundary } := if_pos h

theorem driveBoundary_of_high (h : d.pins.porLow = false) : driveBoundary d = d := if_neg (Bool.eq_false_iff.1 h)

end

end Sys2Proof.Machine

namespace Sys2Proof.Proofs
open Sys2Proof.Machine

/-- Settles O36: a cold and a warm reset have the same list of what returns to its reset value; a warm one keeps a few fields more. -/
theorem resetKeeps : Obligations.ResetKeeps := by
  unfold Obligations.ResetKeeps
  intro d reset
  exact ⟨coldReset_resetOf d, rfl, rfl, rfl, rfl, rfl, warmState_resetOf d, rfl, rfl, rfl, rfl, rfl, rfl⟩

/-- Settles O37: every source resets the device when its condition holds, and the boot ROM starts where nothing else holds it. -/
theorem resetSources : Obligations.ResetSources := by
  unfold Obligations.ResetSources
  rintro s _ flash rfl
  have answers {c : Instr} {f : Dev → Dev} {d' : Dev} (hc : exec c s = onDev true f s) (h : f s.dev = d') : Answers c s d' :=
    answers_onDev rfl hc h
  refine ⟨fun ns h => answers rfl (if_pos h), fun ns h => answers rfl (if_neg (Nat.not_le.2 h)),
    fun h => answers rfl (if_neg (Bool.eq_false_iff.1 h)), fun hlow => ⟨fun haon hrail => ?_, fun hheld => ?_⟩,
    fun rail us hrail => ⟨fun hlong hpor => ?_, fun hnot => ?_⟩, fun h => answers rfl (if_neg (Bool.eq_false_iff.1 h)),
    fun hrail hpor haon => ?_, fun hrail hheld => ?_, answers rfl rfl, fun h => answers rfl (if_neg (Bool.eq_false_iff.1 h)),
    fun haon hpor hrail => ?_, fun haon hheld => ?_, ?fabric, fun h => answers rfl (requestedWarmReset_of_none h),
    fun h => answers rfl (requestedWarmReset_of_due h), fun hstate hstarted hlate => answers rfl (bootWatchdog_of_late hstate hstarted hlate),
    fun h => answers rfl (bootWatchdog_of_not h),
    fun reason hstate hstarted hreason => answers rfl (bootFailure_of_listed hstate hstarted hreason),
    fun reason h => answers rfl (bootFailure_of_not h)⟩
  · exact answers rfl ((porRelease_of_low hlow).trans (startBoot_of_free rfl haon hrail))
  · exact answers rfl ((porRelease_of_low hlow).trans (startBoot_of_held (.inr hheld)))
  · exact answers_onDev (decide_eq_true hrail) rfl ((railFault_eq rail us s.dev).trans (if_pos ⟨hlong, hpor⟩))
  · refine answers_onDev (decide_eq_true hrail) rfl ((railFault_eq rail us s.dev).trans (if_neg ?_))
    rintro ⟨hlong, hpor⟩
    rcases hnot with hshort | hlow
    · omega
    · exact absurd (hlow.symm.trans hpor) nofun
  · exact answers rfl ((railsGood_of_held hrail).trans (startBoot_of_free hpor haon rfl))
  · exact answers rfl ((railsGood_of_held hrail).trans (startBoot_of_held (hheld.imp_right .inl)))
  · exact answers rfl ((aonReturn_of_held haon).trans (startBoot_of_free hpor rfl hrail))
  · exact answers rfl ((aonReturn_of_held haon).trans (startBoot_of_held (hheld.imp_right .inr)))
  case fabric =>
    have lost := (fabLoss_clockLost s.dev).settle
    refine completes_onDev (ok := true) (f := fabLoss) rfl rfl ⟨?_, lost.now, fun p hp => lost.down p (List.mem_range.2 hp)⟩
    rw [lost.boot]

/-- Settles O38: where the record is valid the ROM leaves the flash as it was up to its attempt, so both read the same. -/
theorem bootRom : Obligations.BootRom := by
  unfold Obligations.BootRom
  intro d
  obtain ⟨hstate, hreason⟩ := minimalMode_minimal (romBegun d) 0x0601 0
  refine ⟨hstate, hreason, bootRom_of_trip, bootRom_of_fenced, fun hvalid htrip hfence hprog => ?_⟩
  have tries := bootRom_of_untried hvalid hprog htrip hfence
  have flash := romNoted_flash hvalid hprog
  intro r e slot
  refine ⟨fun hend => ?_, fun hlatch hcount => ?_⟩
  · have ends : e = enterMinimal r.reason 0 (romNoted d) := tries.trans (if_pos hend)
    rw [ends]
    exact enterMinimal_minimal _ _ _
  · have begins : e = attemptBoot (romNoted d) :=
      tries.trans (if_neg fun h => h.elim (Bool.eq_false_iff.1 hlatch) hcount)
    rw [begins]
    refine ⟨attemptBoot_of_good flash, fun hbad hgood => ?_, attemptBoot_of_none_good flash⟩
    obtain ⟨⟨hstate, hstarted, hslot⟩, hcheck⟩ := attemptBoot_of_other_good flash hbad hgood
    exact ⟨hstate, hstarted, hslot, hcheck⟩

/-- Settles O40: each instruction is taken where TRST_L is high, and the boundary drives only where POR_L is low. -/
theorem testAccess : Obligations.TestAccess := by
  unfold Obligations.TestAccess
  rintro s _ x rfl
  have answers {c : Instr} {f : Dev → Dev} {d' : Dev} (hc : exec c s = onDev true f s) (h : f s.dev = d') : Answers c s d' :=
    answers_onDev rfl hc h
  intro takes
  refine ⟨answers rfl rfl, answers rfl rfl, ?_, fun htrst => ?_⟩
  · rintro c (rfl | rfl | rfl | rfl | rfl | rfl) htrst <;> exact answers rfl (takeTap_of_reset htrst)
  · refine ⟨answers rfl (takeTap_of_enabled htrst), answers rfl (takeTap_of_enabled htrst), answers rfl (takeTap_of_enabled htrst),
      answers rfl (takeTap_of_enabled htrst), fun hpor => ⟨?_, ?_⟩, fun hpor => ⟨?_, ?_⟩⟩
    · exact answers rfl ((takeTap_of_enabled htrst).trans (driveBoundary_of_low hpor))
    · exact answers rfl ((takeTap_of_enabled htrst).trans (driveBoundary_of_low hpor))
    · exact answers rfl ((takeTap_of_enabled htrst).trans (driveBoundary_of_high hpor))
    · exact answers rfl ((takeTap_of_enabled htrst).trans (driveBoundary_of_high hpor))

end Sys2Proof.Proofs
end

section
/-!
PROOFS. The twin (chapter 14): what each mirror record does when it is taken (R318 to R324, R335), and what the device sends and
watches for (R319, R322, R324 to R326).
-/
namespace Sys2Proof.Machine

variable {d e f : Dev} {r c : MirrorRec} {k : Nat}

/-! ## The record that is next -/

theorem nextRecord_kind (h : nextRecord k d = some (r, e)) : r.kind = k := by
  unfold nextRecord at h
  dsimp only at h
  split at h
  next =>
    split at h
    next hkind =>
      obtain ⟨rfl, -⟩ := Prod.mk.inj (Option.some.inj h)
      exact hkind
    next => nomatch h
  next => nomatch h

/-- An MSEQ is told by its 48 low bits among the 2^48 that were sent last. -/
theorem ackedMseq_mod {a : Nat} (hsent : a < d.twin.nextMseq) (hnear : d.twin.nextMseq ≤ a + 2 ^ 48) :
    ackedMseq (a % 2 ^ 48) d = a := by
  unfold ackedMseq
  omega

/-! ## Records that join the journal (R318, R319) -/

theorem isOpening_of_other (hkind : r.kind = k) (h : k ≠ 2 ∨ r.addr ≠ 5) : isOpening r = false := by
  subst hkind
  rcases h with h | h <;> simp [isOpening, h]

section
variable (h : nextRecord k d = some (r, e))
include h

theorem mirrorReceive_of_opening (hopen : isOpening r = true) : mirrorReceive k d = sendAck r (openCopy e) := by
  simp only [mirrorReceive, h, hopen, if_true]

/-- A record that is no setting of the partner. -/
theorem mirrorReceive_of_plain (hplain : k ≠ 2 ∨ r.addr ≠ 5) : mirrorReceive k d = journalRecord r e := by
  have kind := nextRecord_kind h
  have plain : ¬ (r.kind = 2 ∧ r.addr = 5) := fun ⟨h2, h5⟩ => hplain.elim (fun hk => hk (kind.symm.trans h2)) (fun ha => ha h5)
  simp only [mirrorReceive, h, isOpening_of_other kind hplain, Bool.false_eq_true, if_false, if_neg plain]

end

/-! ## The committed copy (R319, R322) -/

theorem applyRecord_of_stored {pa : Nat} (hkind : r.kind = 0) (hown : ownPlace r d = none)
    (hstore : storeAddr r.tenant r.region r.addr d = some pa) : applyRecord r d = (physWrite pa r.data d).2 := by
  simp only [applyRecord, hkind, if_true, copyBytes, hown, hstore]

/-- Records that write no memory sum up in the control state. -/
theorem foldl_applyRecord_control {l : List MirrorRec} (h : ∀ r ∈ l, r.kind ≠ 0) (d : Dev) :
    l.foldl (fun d r => applyRecord r d) d =
      { d with twin.control := l.foldl (fun l r => controlPut r l) d.twin.control } := by
  induction l generalizing d with
  | nil => rfl
  | cons r l ih =>
    have applied : applyRecord r d = { d with twin.control := controlPut r d.twin.control } :=
      if_neg (h r (List.mem_cons_self ..))
    rw [List.foldl_cons, ih (fun x hx => h x (List.mem_cons_of_mem _ hx)), applied]
    rfl

/-- The journal records of a commit's rank up to its run frame. -/
def commitCovers (c r : MirrorRec) : Bool := r.tenant == c.tenant && r.rank == c.rank && frameAtMost r.rframe c.rframe

theorem mirrorCommit_of_control (h : nextRecord 3 d = some (c, e))
    (hcontrol : ∀ r ∈ e.twin.journal.filter (commitCovers c), r.kind ≠ 0) :
    mirrorCommit d = sendAck c (protectTracked c.tenant { e with
      twin.journal := e.twin.journal.filter fun r => !commitCovers c r
      twin.control := (e.twin.journal.filter (commitCovers c)).foldl (fun l r => controlPut r l) e.twin.control
      twin.committed := Sparse.set 0 e.twin.committed (rankKey c.tenant c.rank) (c.rframe + 1)
      twin.counts := bumpTable e.twin.counts 2 1 }) := by
  have applied := foldl_applyRecord_control hcontrol { e with twin.journal := e.twin.journal.filter fun r => !commitCovers c r }
  unfold commitCovers at applied ⊢
  simp only [mirrorCommit, h, applied]

theorem mirrorSeed_of_next (h : nextRecord 7 d = some (r, e)) :
    mirrorSeed d = sendAck r { (copyBytes r e) with twin.seeds := e.twin.seeds.map fun x =>
      if x.target = 2 ∧ x.tenant = r.tenant ∧ x.region = r.region then
        { x with next := max x.next (r.addr + r.data.length), acked := x.acked || decide (x.size ≤ r.addr + r.data.length) }
      else x } := by
  simp only [mirrorSeed, h]

/-! ## Direct writes (Table 7.5) -/

section
variable (h : nextRecord 8 d = some (r, e))
include h

theorem mirrorDirect_of_written (hwrite : vaWrite niTlb r.tenant 0 r.addr true r.data e = (.ok, f)) :
    mirrorDirect d = sendAck r f := by
  simp only [mirrorDirect, h, hwrite]
  rfl

theorem mirrorDirect_of_waiting (hwrite : vaWrite niTlb r.tenant 0 r.addr true r.data e = (.wait, f)) :
    mirrorDirect d = { f with twin.inQ := r :: f.twin.inQ } := by
  simp only [mirrorDirect, h, hwrite, if_true]

end

/-! ## Acknowledgements (R319) -/

theorem mirrorAck_of_unseeded (h : nextRecord 4 d = some (r, e)) (hseeds : e.twin.seeds = []) (hqueued : e.twin.queued = []) :
    mirrorAck d = releaseAnswers { e with
      twin.unacked := e.twin.unacked.filter fun x => decide (ackedMseq r.addr e < x.mseq)
      twin.held := e.twin.held.filter fun x =>
        !((e.twin.commitsOut.filter fun c => decide (c.2.2.2 ≤ ackedMseq r.addr e)).any fun c => freedBy c x)
      twin.commitsOut := e.twin.commitsOut.filter fun c => decide (ackedMseq r.addr e < c.2.2.2) } := by
  simp only [mirrorAck, h, hseeds, hqueued, sayProtected, List.map_nil, List.filter_nil, List.any_nil, Bool.not_false,
    List.filter_true, List.foldl_nil, List.length_nil, flushQueued]

/-! ## Repair (R323) -/

/-- The answer to a repair request. -/
def repairAnswer (r : MirrorRec) (bs : Bytes) (d : Dev) : Dev :=
  mirrorSend { kind := 6, tenant := r.tenant, rank := r.rank, region := r.region, addr := r.addr, data := bs } d

section
variable {pa : Nat} {v : Bytes} (h : nextRecord 5 d = some (r, e)) (hline : r.data.length ≠ 1)
include h hline

theorem repairRequest_of_unstored (hstore : storeAddr r.tenant r.region r.addr e = none) :
    repairRequest d = repairAnswer r [] e := by
  simp only [repairRequest, h, if_neg hline, hstore, repairAnswer]

variable (hstore : storeAddr r.tenant r.region r.addr e = some pa)
include hstore

theorem repairRequest_of_good (hread : physRead pa 64 e = (v, false, f)) :
    repairRequest d = repairAnswer r (overlayLine r.tenant r.region r.addr v f.twin.journal)
      { f with twin.counts := bumpTable f.twin.counts 3 1 } := by
  simp only [repairRequest, h, if_neg hline, hstore, hread, repairAnswer, Bool.false_eq_true, if_false]

theorem repairRequest_of_bad (hread : physRead pa 64 e = (v, true, f)) :
    repairRequest d = repairAnswer r [] (storeRefresh pa
      (raise 4 evMirrorStoreUe (srcChannel (pseudoChannel pa)) (countUncorrectable pa f) (pa / 64))) := by
  simp only [repairRequest, h, if_neg hline, hstore, hread, repairAnswer, if_true]

end

/-- The repair of a line has ended. -/
def repairEnded (pa : Nat) (f : Dev) : Dev := { f with mem.repairs := f.mem.repairs.filter fun p => p.1 != pa / 64 }

section
variable {g : Region} {pa : Nat} (h : nextRecord 6 d = some (r, e))
include h

theorem repairReply_of_undeclared (hnone : ((regions r.tenant e).find? fun g => g.index == r.region) = none) :
    repairReply d = e := by
  simp only [repairReply, h, hnone]

variable (hregion : ((regions r.tenant e).find? fun g => g.index == r.region) = some g)
  (hplace : place niTlb r.tenant 0 (g.base + r.addr) true e = (.dev pa, f))
include hregion hplace

theorem repairReply_of_empty (hempty : r.data.length < 64) : repairReply d = repairEnded pa f := by
  simp only [repairReply, h, hregion, hplace, if_pos hempty, repairEnded]

theorem repairReply_of_one {n : Nat} (hfull : 64 ≤ r.data.length)
    (hbad : ((errsIn f.mem.err pa 64).filter fun p => p.2 == 2) = [(n, 2)]) :
    let w := (physWrite (n * 8) ((r.data.drop (n * 8 - pa)).take 8) (repairEnded pa f)).2
    repairReply d = raise 0 evMirrorRepair (srcChannel (pseudoChannel pa))
      { w with mem.hbmCounts := bumpTable w.mem.hbmCounts (pseudoChannel pa * 4 + 2) 1 } (pa / 64) := by
  intro w
  simp only [repairReply, h, hregion, hplace, if_neg (Nat.not_lt.2 hfull), hbad, List.foldl_cons, List.foldl_nil,
    List.isEmpty_cons, Bool.false_eq_true, if_false]
  rfl

end

/-! ## Heartbeats that arrive (R324) -/

/-- A heartbeat has been noted. -/
def beatNoted (r : MirrorRec) (e : Dev) : Dev :=
  { e with twin.gotBeat := some r.addr, twin.lastBeat := fieldAt r.data 0 8 / 2 ^ 8, twin.missed := 0
           twin.partnerFatal := e.twin.partnerFatal || bitOf (fieldAt r.data 0 8) 4 }

section
variable (h : nextRecord 9 d = some (r, e))
include h

theorem heartbeat_of_next : heartbeat d =
    if bitOf (fieldAt r.data 0 8) 4 || !tPortUp e then beatNoted r e else heartbeatTaken (beatNoted r e) := by
  simp only [heartbeat, h]
  rfl

theorem heartbeat_of_deaf (hdeaf : bitOf (fieldAt r.data 0 8) 4 = true ∨ tPortUp e = false) : heartbeat d = beatNoted r e := by
  rw [heartbeat_of_next h, if_pos]
  rcases hdeaf with hfatal | hdown
  · simp [hfatal]
  · simp [hdown]

theorem heartbeat_of_heard (hfatal : bitOf (fieldAt r.data 0 8) 4 = false) (hup : tPortUp e = true) :
    heartbeat d = heartbeatTaken (beatNoted r e) := by
  rw [heartbeat_of_next h, hfatal, hup]
  rfl

end

theorem clearSuspicion_of_none (h : d.twin.suspect = false) : clearSuspicion d = d := if_neg (Bool.eq_false_iff.1 h)

/-- A pair that is off or protected and suspects nothing only notes its heartbeats. -/
theorem heartbeatTaken_of_settled (hstate : d.twin.state = 0 ∨ d.twin.state = 2) (hcalm : d.twin.suspect = false) :
    heartbeatTaken d = d := by
  rcases hstate with hstate | hstate <;> simp only [heartbeatTaken, hstate, clearSuspicion_of_none hcalm]

/-- The stream opens on a heartbeat that finds the pair unprotected. -/
theorem heartbeatTaken_of_unprotected
    (h : d.twin.state = 4 ∨ d.twin.state = 1 ∧ d.twin.sentBeat ≠ none ∧ dictGet 0x6000 6 d = 0) :
    heartbeatTaken d = openStream 2 d := by
  rcases h with hstate | ⟨hstate, hsent, hrole⟩
  · simp only [heartbeatTaken, hstate]
  · simp only [heartbeatTaken, hstate]
    exact if_pos ⟨Option.isSome_iff_ne_none.2 hsent, hrole⟩

/-! ## The release of a rank (R335) -/

theorem bitsSet_zero (w : Nat) : bitsSet w 0 = [] := by
  simp [bitsSet, bitOf, bitsOf]

section
variable {m : MirrorRec} (h : nextRecord 10 d = some (m, e))
include h

theorem mirrorRelease_of_unarmed (hnot : (getRun m.tenant e).state ≠ .armed ∨ (getRun m.tenant e).rank ≠ m.rank) :
    mirrorRelease d = e := by
  have unarmed : ¬ ((getRun m.tenant e).state = .armed ∧ (getRun m.tenant e).rank = m.rank) :=
    fun ⟨harmed, hrank⟩ => hnot.elim (· harmed) (· hrank)
  simp only [mirrorRelease, h, if_neg unarmed]

/-- The spare's armed rank starts; a rank with no tiles has none to restore. -/
theorem mirrorRelease_of_untiled (harmed : (getRun m.tenant e).state = .armed ∧ (getRun m.tenant e).rank = m.rank)
    (hmask : (getRun m.tenant e).con.tileMask = 0) :
    let t := m.tenant
    let f := settleJournal t m.rank e
    let l := rankControl t m.rank f
    let index := lostGet t itemIndex f
    let first := resumeFrame t m.rank index f
    let g := restoreInstances t m.rank l (restoreCounters l f)
    let h := openStream 2 (raise 4 evReintegrated (srcPort 8) (setRunState t .running
      (modRun t (fun x => { x with index := index, spanLeft := 1 }) g)))
    let j := openAccount t (modRun t (fun x => { x with spanLeft := x.factor }) (applyStretches t h.clk.frame h))
    mirrorRelease d = (List.range (index + 1 - first)).foldl (fun d i => giveFrame t 0 (first + i) d) j := by
  intro t f l index first g h' j
  simp only [mirrorRelease, h, if_pos harmed, hmask, bitsSet_zero, List.foldl_nil, t, f, l, index, first, g, h', j]

end

/-! ## Suspicions (R325) -/

theorem openSuspicion_of_unsuspected (h : d.twin.suspect = true ∨ (d.twin.state ≠ 2 ∧ d.twin.state ≠ 6)) : openSuspicion d = d := by
  refine if_pos (h.imp id fun ⟨h2, h6⟩ => ?_)
  simp [h2, h6]

/-- With no mirrored region there is no run to hold. -/
theorem failoverStretch_of_unmirrored (logf : Nat) (fin : Bool) (h : ∀ t ∈ runTenants d, mirrored t d = false) :
    failoverStretch logf fin d = d := by
  have none_held : ((runTenants d).filter fun t => (getRun t d).running && mirrored t d) = [] :=
    List.filter_eq_nil_iff.2 fun t ht => by simp [h t ht]
  simp only [failoverStretch, none_held, List.foldl_nil]

theorem openSuspicion_of_protected (hcalm : d.twin.suspect = false) (hstate : d.twin.state = 2)
    (h : ∀ t ∈ runTenants d, mirrored t d = false) :
    openSuspicion d = raise 4 evTwinSuspect (srcPort 8)
      { d with twin.suspect := true, twin.state := 3, twin.counts := bumpTable d.twin.counts 6 1 } := by
  have open_ : ¬ (d.twin.suspect = true ∨ (!(d.twin.state == 2 || d.twin.state == 6)) = true) := by simp [hcalm, hstate]
  rw [openSuspicion, if_neg open_, if_pos hstate]
  refine failoverStretch_of_unmirrored 5 false ?_
  rw [raise_eq _ _ _ _ (by decide)]
  exact h

/-! ## Heartbeats that go out and that are missed (R324) -/

/-- What the heartbeat of a building frame waits for. -/
theorem heartbeatSend_of_due (hstate : d.twin.state ≠ 0) (hplaced : d.clk.placed = true) (hat : d.clk.lastTick + tUs ≤ d.now)
    (hunsent : d.twin.sentBeat ≠ some d.clk.frame) (hup : tPortUp d = true) :
    heartbeatSend d = toOutput 8 1
      (recordBytes { kind := 9, addr := d.clk.frame
                     data := leBytes 8 (d.twin.state % 16 + (if d.fatal then 16 else 0) + (d.twin.beats + 1) % 2 ^ 56 * 2 ^ 8) })
      { d with twin.sentBeat := some d.clk.frame, twin.beats := d.twin.beats + 1 } := by
  have up : tPortUp { d with twin.sentBeat := some d.clk.frame } = true := hup
  rw [heartbeatSend, if_pos ⟨hstate, hplaced, hat, hunsent, hup⟩, sendHeartbeat, if_pos up]
  rfl

theorem heartbeatSend_of_undue (h : d.twin.state = 0 ∨ ¬ d.clk.placed = true ∨ d.now < d.clk.lastTick + tUs ∨
    d.twin.sentBeat = some d.clk.frame ∨ tPortUp d = false) : heartbeatSend d = d := by
  refine if_neg fun ⟨hstate, hplaced, hat, hunsent, hup⟩ => ?_
  rcases h with h | h | h | h | h
  · exact hstate h
  · exact h hplaced
  · exact Nat.not_lt.2 hat h
  · exact hunsent h
  · exact Bool.false_ne_true (h.symm.trans hup)

theorem heartbeatMissed_of_due {u : Nat} (hstate : d.twin.state = 2 ∨ d.twin.state = 3 ∨ d.twin.state = 6)
    (hplaced : d.clk.placed = true) (hnew : d.twin.missedAt ≠ some d.clk.frame)
    (hat : d.clk.lastTick + framePeriod d ≤ d.now + tUs) (hup : d.twin.upAt = some u) (hwhole : u ≤ d.clk.lastTick)
    (hnone : d.twin.gotBeat ≠ some d.clk.frame) :
    heartbeatMissed d = openSuspicion { d with
      twin.missedAt := some d.clk.frame, twin.missed := d.twin.missed + 1, twin.counts := bumpTable d.twin.counts 5 1 } :=
  if_pos ⟨hstate, hplaced, hnew, hat, by simp [hup, hwhole], hnone⟩

theorem heartbeatMissed_of_undue (h : (d.twin.state ≠ 2 ∧ d.twin.state ≠ 3 ∧ d.twin.state ≠ 6) ∨ ¬ d.clk.placed = true ∨
    d.twin.missedAt = some d.clk.frame ∨ d.now + tUs < d.clk.lastTick + framePeriod d ∨
    (∀ u, d.twin.upAt = some u → d.clk.lastTick < u) ∨ d.twin.gotBeat = some d.clk.frame) : heartbeatMissed d = d := by
  refine if_neg fun ⟨hstate, hplaced, hnew, hat, hup, hnone⟩ => ?_
  rcases h with ⟨h2, h3, h6⟩ | h | h | h | h | h
  · exact hstate.elim h2 (Or.elim · h3 h6)
  · exact h hplaced
  · exact hnew h
  · exact Nat.not_lt.2 hat h
  · obtain ⟨u, hu, hwhole⟩ := (Option.any_eq_true ..).1 hup
    exact Nat.not_lt.2 (of_decide_eq_true hwhole) (h u hu)
  · exact hnone h

/-! ## Seeds (R322) -/

/-- The first seeding that is not complete. -/
def firstSeeding (d : Dev) : Option Seeding := d.twin.seeds.find? fun x => x.target != 2 && decide (x.next < x.size)

theorem seedSend_of_seeded (h : firstSeeding d = none) : seedSend d = d := by
  unfold firstSeeding at h
  simp only [seedSend, h]

section
variable {x : Seeding} (h : firstSeeding d = some x)
include h

theorem seedSend_of_roomless (hno : mirroring d = false ∨ tPortUp d = false ∨ d.now < d.twin.seedCredit) : seedSend d = d := by
  unfold firstSeeding at h
  have closed : (mirroring d && tPortUp d && decide (d.twin.seedCredit ≤ d.now)) = false := by
    rcases hno with hno | hno | hno
    · simp [hno]
    · simp [hno]
    · simp [Nat.not_le.2 hno]
  simp only [seedSend, h, closed, Bool.false_eq_true, if_false]

theorem seedSend_of_room {ctx va : Nat} {bs : Bytes} (hon : mirroring d = true) (hup : tPortUp d = true)
    (hroom : d.twin.seedCredit ≤ d.now) (hsource : seedSource x d = some (ctx, va))
    (hread : vaFetch niTlb x.tenant ctx va 256 d = (.ok, bs, e)) :
    let y := { x with next := x.next + 256, lastMseq := if x.size ≤ x.next + 256 then some (mseqAfter e) else none }
    seedSend d = mirrorSend
      { kind := 7, tenant := x.tenant, rank := ctxRank x.tenant ctx e, region := x.region, addr := x.next, data := bs }
      { e with twin.seeds := e.twin.seeds.map (fun z => if z = x then y else z)
               twin.seedCredit := e.now + 2000 / max 1 (dictGet 0x6000 4 e), twin.counts := bumpTable e.twin.counts 4 1 } := by
  intro y
  unfold firstSeeding at h
  have opened : (mirroring d && tPortUp d && decide (d.twin.seedCredit ≤ d.now)) = true := by simp [hon, hup, hroom]
  simp only [seedSend, h, opened, if_true, hsource, hread]
  rfl

end

/-! ## Commits (R319) -/

/-- A commit is due, and its frame has ended. -/
def CommitDue (d : Dev) (c : Nat × Nat × Nat) : Prop :=
  snapshotsSent c.1 c.2.1 c.2.2 d = true ∧ programsEnded c.1 c.2.1 c.2.2 d = true ∧
    ∀ x ∈ d.twin.seeds, x.target = 4 → x.tenant = c.1 → x.size ≤ x.next

/-- The test that COMMIT_RECORD_SEND makes. -/
def commitDue (d : Dev) (c : Nat × Nat × Nat) : Bool :=
  snapshotsSent c.1 c.2.1 c.2.2 d && programsEnded c.1 c.2.1 c.2.2 d &&
    !(d.twin.seeds.any fun x => x.target == 4 && x.tenant == c.1 && decide (x.next < x.size))

theorem commitDue_iff {c : Nat × Nat × Nat} : commitDue d c = true ↔ CommitDue d c := by
  simp [commitDue, CommitDue, and_assoc]

theorem commitRecordSend_of_none (h : (∀ c ∈ d.twin.commitsDue, ¬ CommitDue d c) ∨ mirroring d = false) :
    commitRecordSend d = d := by
  unfold commitRecordSend
  split
  next => rfl
  next t rank r found =>
    rcases h with h | h
    · exact absurd (commitDue_iff.1 (List.find?_some found)) (h _ (List.mem_of_find?_eq_some found))
    · rw [if_neg (Bool.eq_false_iff.1 h)]

theorem commitRecordSend_of_first {l rest : List (Nat × Nat × Nat)} {t rank r : Nat}
    (hlist : d.twin.commitsDue = l ++ (t, rank, r) :: rest) (hbefore : ∀ c ∈ l, ¬ CommitDue d c) (hdue : CommitDue d (t, rank, r))
    (hon : mirroring d = true) (hseeds : d.twin.seeds = []) :
    commitRecordSend d = mirrorSend { kind := 3, tenant := t, rank := rank, rframe := r } { d with
      twin.commitsDue := d.twin.commitsDue.filter (· != (t, rank, r))
      twin.commitsOut := d.twin.commitsOut ++ [(t, rank, r, mseqAfter d)]
      twin.snapshots := d.twin.snapshots.filter fun x => !(x.1 == rankKey t rank && decide (x.2.2 ≤ r)) } := by
  have found : d.twin.commitsDue.find? (commitDue d) = some (t, rank, r) := by
    rw [hlist, List.find?_append, List.find?_eq_none.2 fun c hc => (hbefore c hc) ∘ commitDue_iff.1, Option.none_or,
      List.find?_cons_of_pos (commitDue_iff.2 hdue)]
  unfold commitDue at found
  simp only [commitRecordSend, found, hon, if_true]
  rw [hseeds, List.map_nil, ← hseeds]

/-! ## The probe (R326) -/

theorem probeReply_of_closed {n : Nat} (h : d.twin.probeAt = none ∨ d.twin.probeFailed = true) : probeReply n d = d := if_pos h

section
variable {n : Nat} (hopen : d.twin.probeAt ≠ none) (hfailed : d.twin.probeFailed = false)
include hopen hfailed

theorem probe_open : ¬ (d.twin.probeAt = none ∨ d.twin.probeFailed = true) := by simp [hopen, hfailed]

theorem probeReply_of_same (hsame : (n % 2 ^ 56 : Nat) = d.twin.lastBeat) :
    probeReply n d = { d with twin.probeFailed := true } := by
  rw [probeReply, if_neg (probe_open hopen hfailed), if_pos hsame]

theorem probeReply_of_other (hother : (n % 2 ^ 56 : Nat) ≠ d.twin.lastBeat) :
    probeReply n d = failoverStretch 0 true (closeStream 4 (raise 4 evTwinUnprotected (srcPort 8) d)) := by
  rw [probeReply, if_neg (probe_open hopen hfailed), if_neg hother]

end

theorem probeTimeout_of_none (h : d.twin.probeAt = none) : probeTimeout d = d := by simp only [probeTimeout, h]

theorem probeTimeout_of_open {a : Nat} (h : d.twin.probeAt = some a) :
    probeTimeout d = if a + dictGet 0x6000 5 d * tUs ≤ d.now then { d with twin.probeFailed := true } else d := by
  simp only [probeTimeout, h]

end Sys2Proof.Machine

namespace Sys2Proof.Proofs
open Sys2Proof.Machine

/-- Settles O53: each kind of record by what it finds, once it is the next; with no next record a row does nothing. -/
theorem mirrorRecords : Obligations.MirrorRecords := by
  unfold Obligations.MirrorRecords
  refine ⟨fun a d => ackedMseq_mod, fun r d pa => applyRecord_of_stored, ?_⟩
  rintro s _ rfl
  have answers {c : Instr} {f : Dev → Dev} {d' : Dev} (hc : exec c s = onDev true f s) (h : f s.dev = d') : Answers c s d' :=
    answers_onDev rfl hc h
  intro row
  refine ⟨?none, ?journal, fun c e h => ?commit, fun r e h hseeds hqueued => answers rfl (mirrorAck_of_unseeded h hseeds hqueued),
    fun r e h hline => ?request, fun r e h => ?reply, fun r e h => answers rfl (mirrorSeed_of_next h), fun r e f h => ?direct,
    fun r e h => ?beat, fun m e h => ?release⟩
  case none =>
    intro k c hrow h
    rcases hrow with hrow | hrow | hrow | hrow | hrow | hrow | hrow | hrow | hrow | hrow | hrow <;>
      obtain ⟨rfl, rfl⟩ := Prod.mk.inj hrow <;>
      exact answers rfl (by simp only [mirrorReceive, mirrorCommit, mirrorAck, repairRequest, repairReply, mirrorSeed, mirrorDirect,
        heartbeat, mirrorRelease, h])
  case journal =>
    intro k c r e hrow h hk
    have receives : exec c s = onDev true (mirrorReceive k) s := by
      rcases hrow with hrow | hrow | hrow | hrow
      · obtain ⟨rfl, rfl⟩ := Prod.mk.inj hrow
        rfl
      · obtain ⟨rfl, rfl⟩ := Prod.mk.inj hrow
        rfl
      · obtain ⟨rfl, rfl⟩ := Prod.mk.inj hrow
        rfl
      · simp only [Prod.mk.injEq] at hrow
        omega
    exact ⟨fun hopen => answers receives (mirrorReceive_of_opening h hopen),
      fun hplain => answers receives (mirrorReceive_of_plain h hplain)⟩
  case commit =>
    intro due hcontrol
    exact answers rfl (mirrorCommit_of_control h hcontrol)
  case request =>
    intro reply
    exact ⟨fun hstore => answers rfl (repairRequest_of_unstored h hline hstore),
      fun pa v f hstore hread => answers rfl (repairRequest_of_good h hline hstore hread),
      fun pa v f hstore hread => answers rfl (repairRequest_of_bad h hline hstore hread)⟩
  case reply =>
    intro g
    refine ⟨fun hnone => answers rfl (repairReply_of_undeclared h hnone), fun g' pa f hregion hplace => ?_⟩
    exact ⟨fun hempty => answers rfl (repairReply_of_empty h hregion hplace hempty),
      fun k hfull hbad => answers rfl (repairReply_of_one h hregion hplace hfull hbad)⟩
  case direct =>
    exact ⟨fun hwrite => answers rfl (mirrorDirect_of_written h hwrite), fun hwrite => answers rfl (mirrorDirect_of_waiting h hwrite)⟩
  case beat =>
    intro v noted
    refine ⟨fun hquiet => answers rfl ?_, fun hfatal hup hstate => answers rfl ?_⟩
    · by_cases hdeaf : bitOf (fieldAt r.data 0 8) 4 = true ∨ tPortUp e = false
      · exact heartbeat_of_deaf h hdeaf
      · obtain ⟨hfatal, hup⟩ := not_or.1 hdeaf
        obtain ⟨hstate, hcalm⟩ := (hquiet.resolve_left hfatal).resolve_left hup
        rw [heartbeat_of_heard h (Bool.eq_false_iff.2 hfatal) (Bool.eq_true_of_not_eq_false hup)]
        exact heartbeatTaken_of_settled hstate hcalm
    · rw [heartbeat_of_heard h hfatal hup]
      exact heartbeatTaken_of_unprotected hstate
  case release =>
    dsimp only
    refine ⟨fun hnot => answers rfl (mirrorRelease_of_unarmed h hnot), fun harmed hrank hmask => ?_⟩
    have started := mirrorRelease_of_untiled h ⟨harmed, hrank⟩ hmask
    dsimp only at started
    exact answers rfl started

/-- Settles O54: what a suspicion does, then each row by whether what it waits for has come. -/
theorem twinWatch : Obligations.TwinWatch := by
  unfold Obligations.TwinWatch
  refine ⟨fun d => ⟨openSuspicion_of_unsuspected, openSuspicion_of_protected⟩, ?_⟩
  rintro s _ rfl
  have answers {c : Instr} {f : Dev → Dev} {d' : Dev} (hc : exec c s = onDev true f s) (h : f s.dev = d') : Answers c s d' :=
    answers_onDev rfl hc h
  intro placed due
  refine ⟨fun hstate hplaced hat hunsent hup => answers rfl (heartbeatSend_of_due hstate hplaced hat hunsent hup),
    fun h => answers rfl (heartbeatSend_of_undue h),
    fun u hstate hplaced hnew hat hup hwhole hnone =>
      answers rfl (heartbeatMissed_of_due hstate hplaced hnew hat hup hwhole hnone),
    fun h => answers rfl (heartbeatMissed_of_undue h), fun h => answers rfl (seedSend_of_seeded h), fun x h => ?seed,
    fun h => answers rfl (commitRecordSend_of_none h),
    fun l t rank r rest hlist hbefore hdue hon hseeds =>
      answers rfl (commitRecordSend_of_first hlist hbefore hdue hon hseeds),
    fun count => ?probe, fun h => answers rfl (probeTimeout_of_none h), fun a h => ?timeout⟩
  case seed =>
    exact ⟨fun hno => answers rfl (seedSend_of_roomless h hno),
      fun ctx va bs e hon hup hroom hsource hread => answers rfl (seedSend_of_room h hon hup hroom hsource hread)⟩
  case probe =>
    exact ⟨fun h => answers rfl (probeReply_of_closed h), fun hopen hfailed hsame => answers rfl (probeReply_of_same hopen hfailed hsame),
      fun hopen hfailed hother => answers rfl (probeReply_of_other hopen hfailed hother)⟩
  case timeout =>
    exact ⟨fun hlate => answers rfl ((probeTimeout_of_open h).trans (if_pos hlate)),
      fun hearly => answers rfl ((probeTimeout_of_open h).trans (if_neg (Nat.not_le.2 hearly)))⟩

end Sys2Proof.Proofs
end

section
/-!
PROOFS. The registers of the PCI Express functions (chapter 19): the host mailbox (R423), accesses (R413, R426), configuration
writes (R410, R424) and host reads (R422).
-/
namespace Sys2Proof.Machine

variable {d e : Dev} {fn off n v : Nat} {bs : Bytes} {flash : Bool} {r : BarAt}

/-! ## The host mailbox (R423) -/

theorem mailboxSubmit_of_busy (h : d.pcie.reqBusy = true) : mailboxSubmit v flash d = raise 4 evMbxBusy (srcFn 0) d := if_pos h

theorem mailboxSubmit_of_free (h : d.pcie.reqBusy = false) :
    mailboxSubmit v flash d = mailboxTake flash { d with pcie.reqBusy := true, pcie.reqLen := v % 2048 } :=
  if_neg (Bool.eq_false_iff.1 h)

theorem mailboxTake_of_idle (h : d.pcie.reqBusy = false ∨ transportOpen 0 d = false) : mailboxTake flash d = d := by
  rcases h with h | h <;> simp [mailboxTake, h]

theorem mailboxTake_of_open (hbusy : d.pcie.reqBusy = true) (hopen : transportOpen 0 d = true) :
    mailboxTake flash d = takeMessage 0 0 false flash (Mem.readN d.pcie.reqBuf 0 d.pcie.reqLen) d := by
  simp [mailboxTake, hbusy, hopen]

theorem sendWaitingNotice_of_sent (h : ∀ n ∈ d.mgmt.notices, n.sentAt ≠ none) : sendWaitingNotice d = d := by
  have waits : (d.mgmt.notices.find? fun n => n.sentAt.isNone) = none :=
    List.find?_eq_none.2 fun n hn hnone => h n hn (Option.isNone_iff_eq_none.1 hnone)
  simp only [sendWaitingNotice, waits]

theorem notificationRelease_of_unawaited
    (h : d.mgmt.lease.role = 0 ∨ d.mgmt.lease.transport ≠ 0 ∨ ∀ n ∈ d.mgmt.notices, n.sentAt ≠ none) :
    notificationRelease d = { d with pcie.ntfValid := false } := by
  have released : sendWaitingNotice { d with pcie.ntfValid := false } = { d with pcie.ntfValid := false } ∨
      ¬ (d.mgmt.lease.role ≠ 0 ∧ d.mgmt.lease.transport = 0) := by
    rcases h with h | h | h
    · exact .inr fun ⟨hheld, _⟩ => hheld h
    · exact .inr fun ⟨_, hbox⟩ => h hbox
    · exact .inl (sendWaitingNotice_of_sent h)
  unfold notificationRelease
  rcases released with released | unheld
  · dsimp only
    rw [released, ite_self]
  · exact if_neg unheld

/-! ## The bytes that an access without a register gives -/

theorem leNat_fillBytes_zero (n : Nat) : leNat (fillBytes n 0) = 0 := by
  induction n with
  | zero => rfl
  | succ n ih =>
    rw [fillBytes, List.replicate_succ, leNat, ← fillBytes, ih]
    rfl

theorem leNat_fillBytes_ones (n : Nat) : leNat (fillBytes n 0xFF) = 2 ^ (8 * n) - 1 := by
  induction n with
  | zero => rfl
  | succ n ih =>
    have one : (0xFF : Byte).toNat = 255 := rfl
    have pos : 0 < 2 ^ (8 * n) := Nat.two_pow_pos _
    rw [fillBytes, List.replicate_succ, leNat, ← fillBytes, ih, one, Nat.mul_succ, Nat.pow_add]
    omega

/-! ## Accesses of at most 8 bytes (R413) -/

/-- An access of at most 8 bytes is whole. -/
theorem accessParts_of_short (hpos : 0 < n) (hshort : n ≤ 8) : accessParts off n = [(off, n)] := by
  rw [accessParts, if_pos hshort, if_neg (by omega)]

theorem barRead_of_short (hpos : 0 < n) (hshort : n ≤ 8) :
    barRead fn off n d = emit (.regValue fn off (leNat (barReadPart fn off n d).1)) (barReadPart fn off n d).2 := by
  rw [barRead, accessParts_of_short hpos hshort]
  rfl

theorem barWrite_of_short (hpos : 0 < bs.length) (hshort : bs.length ≤ 8) :
    barWrite fn off bs flash d = barWritePart fn off bs flash d := by
  rw [barWrite, accessParts_of_short hpos hshort, List.foldl_cons, List.foldl_nil, Nat.sub_self, List.drop_zero, List.take_length]

theorem registerRead_of_inside (hinside : off + n ≤ barSize fn) : registerRead fn off n d = barAccess fn (barRead fn off n) d :=
  if_neg (Nat.not_lt.2 hinside)

theorem registerWrite_of_inside (hinside : off + bs.length ≤ barSize fn) (err : Nat) :
    registerWrite fn off bs err flash d =
      barAccess fn (linkError err fn (barWrite fn off bs flash) (poisonedWrite fn off bs.length)) d :=
  if_neg (Nat.not_lt.2 hinside)

/-- Without a link or a function nothing is reached. -/
theorem barAccess_of_absent (h : d.pcie.linkUp = false ∨ fnExists fn d = false) (f : Dev → Dev) : barAccess fn f d = d := if_pos h

theorem barAccess_of_disabled (hlink : d.pcie.linkUp = true) (hexists : fnExists fn d = true)
    (hdisabled : Sparse.get false d.pcie.memEnable fn = false) (f : Dev → Dev) : barAccess fn f d = pcieUe fn d := by
  simp [barAccess, hlink, hexists, hdisabled]

theorem registerRead_of_absent (h : d.pcie.linkUp = false ∨ fnExists fn d = false) : registerRead fn off n d = d := by
  rw [registerRead, barAccess_of_absent h, ite_self]

theorem registerWrite_of_absent (h : d.pcie.linkUp = false ∨ fnExists fn d = false) (err : Nat) :
    registerWrite fn off bs err flash d = d := by
  rw [registerWrite, barAccess_of_absent h, ite_self]

section
variable (hreach : Reaches fn d) (hinside : off + n ≤ barSize fn)
include hreach hinside

/-- A short read that reaches its function gives the bytes of what it meets. -/
theorem registerRead_of_reaches (hpos : 0 < n) (hshort : n ≤ 8) {x : Bytes} (hpart : barReadPart fn off n d = (x, e)) :
    registerRead fn off n d = emit (.regValue fn off (leNat x)) e := by
  rw [registerRead_of_inside hinside, barAccess_of_reaches hreach, barRead_of_short hpos hshort, hpart]

end

theorem barReadPart_of_one (h : meets fn off n = .one r) : barReadPart fn off n d = (readReg fn r off n d, d) := by
  simp only [barReadPart, h]

theorem barReadPart_of_reserved (h : meets fn off n = .reserved) : barReadPart fn off n d = (fillBytes n 0, d) := by
  simp only [barReadPart, h]

theorem barReadPart_of_crosses (h : meets fn off n = .crosses) :
    barReadPart fn off n d = (fillBytes n 0xFF, accessEvent evAccessAlign fn off n false d) := by
  simp only [barReadPart, h]

/-- A short write that reaches its function does what it does at what it meets. -/
theorem registerWrite_of_reaches (hreach : Reaches fn d) (hinside : off + bs.length ≤ barSize fn) (hpos : 0 < bs.length)
    (hshort : bs.length ≤ 8) : registerWrite fn off bs 0 flash d = barWritePart fn off bs flash d := by
  rw [registerWrite_of_inside hinside, barAccess_of_reaches hreach, linkError, barWrite_of_short hpos hshort]

theorem barWritePart_of_one (h : meets fn off bs.length = .one r) : barWritePart fn off bs flash d = writeInside fn r off bs flash d := by
  simp only [barWritePart, h]

theorem barWritePart_of_crosses (h : meets fn off bs.length = .crosses) :
    barWritePart fn off bs flash d = accessEvent evAccessAlign fn off bs.length true d := by
  simp only [barWritePart, h]

/-- A register that is no mailbox buffer takes whole writes alone. -/
theorem writeInside_of_register (h : ∀ j, r.reg ≠ .buffer j) : writeInside fn r off bs flash d =
    if bs.length < r.width then accessEvent evAccessWidth fn off bs.length true d else writeReg fn r.reg (leNat bs) flash d := by
  unfold writeInside
  split
  next hbuf => exact absurd hbuf (h 0)
  next hbuf => exact absurd hbuf (h _)
  next => rfl

/-! ## Configuration writes (R410, R424) -/

theorem configurationWrite_of_reset (h : d.now < Sparse.get 0 d.pcie.flrUntil fn) (field : Nat) :
    configurationWrite fn field v d = d := if_pos (.inr (.inr h))

theorem configurationWrite_of_ready (hlink : d.pcie.linkUp = true) (hexists : fnExists fn d = true)
    (hready : Sparse.get 0 d.pcie.flrUntil fn ≤ d.now) (field : Nat) :
    configurationWrite fn field v d = configWrite fn field v d := by
  refine if_neg ?_
  simp [hlink, hexists, hready]

theorem busMasterWrite_on : busMasterWrite fn true d = { d with pcie.busMaster := Sparse.set false d.pcie.busMaster fn true } := rfl

/-! ## Host reads (R422) -/

/-- With no frame that waits for host memory there is none to try again. -/
theorem retryFrames_of_none (h : ∀ t, (getRun t d).framesDue = []) : retryFrames d = d := by
  refine List.foldl_fixed' (fun t => ?_) _
  rw [h t]
  rfl

theorem pcieUe_runs : (pcieUe fn d).runs = d.runs := by
  unfold pcieUe fnRaise
  split
  next => rw [raise_eq _ _ _ _ (by decide)]
  next => rw [raiseT_eq _ _ _ _ _ (by decide)]

theorem retryFrames_of_same (h : ∀ t, (getRun t d).framesDue = []) (hruns : e.runs = d.runs) : retryFrames e = e :=
  retryFrames_of_none fun t => by rw [getRun, hruns]; exact h t

section
variable {data : Bytes} (hlink : d.pcie.linkUp = true) (h : ∀ t, (getRun t d).framesDue = [])
include hlink h

theorem hostReadCompletion_of_unexpected (hnone : d.pcie.reads.any (readFor fn off data.length) = false) :
    hostReadCompletion fn off data 0 0 d = pcieUe fn d := by
  simp only [hostReadCompletion, hlink, hnone, if_true, linkError, Bool.not_false]
  exact retryFrames_of_same h pcieUe_runs

theorem hostReadCompletion_of_good (hread : d.pcie.reads.any (readFor fn off data.length) = true) :
    hostReadCompletion fn off data 0 0 d =
      answerRead fn off data.length true { d with mem.host := Mem.writeN d.mem.host (hostKey fn off) data } := by
  simp only [hostReadCompletion, hlink, hread, if_true, linkError, Bool.not_true, Bool.false_eq_true, if_false]
  exact retryFrames_of_same h rfl

end

end Sys2Proof.Machine

namespace Sys2Proof.Proofs
open Sys2Proof.Machine

/-- Settles O34: the mailbox's accesses reach the PF, and each then does what the state of the buffers decides. -/
theorem hostMailbox : Obligations.HostMailbox := by
  unfold Obligations.HostMailbox
  rintro s _ v flash rfl hreach taken
  have answers {c : Instr} {f : Dev → Dev} {d' : Dev} (hc : exec c s = onDev true (barAccess 0 f) s) (h : f s.dev = d') :
      Answers c s d' := answers_barAccess hreach rfl hc h
  refine ⟨fun hbusy => answers rfl (mailboxSubmit_of_busy hbusy), fun hfree hclosed => answers rfl ?_,
    fun hfree hopen => answers rfl ?_, fun hfree => answers rfl (mailboxTake_of_idle (.inl hfree)),
    fun hbusy hstarted => answers rfl (mailboxTake_of_open hbusy ?_), fun h => answers rfl (notificationRelease_of_unawaited h)⟩
  · exact (mailboxSubmit_of_free hfree).trans (mailboxTake_of_idle (.inr hclosed))
  · exact (mailboxSubmit_of_free hfree).trans (mailboxTake_of_open rfl hopen)
  · obtain ⟨hlink, -, -⟩ := hreach
    simp [transportOpen, hstarted, hlink]

/-- Settles O32: reads and writes by what they meet, then those that reach nothing, configuration writes and completions. -/
theorem registerAccesses : Obligations.RegisterAccesses := by
  unfold Obligations.RegisterAccesses
  rintro s _ fn off rfl hfn
  have answers {c : Instr} {f : Dev → Dev} {d' : Dev} (hc : exec c s = onDev (fnOk fn) f s) (h : f s.dev = d') : Answers c s d' :=
    answers_onDev (decide_eq_true hfn) hc h
  refine ⟨fun n r hreach hpos hshort hin hmeets =>
      answers rfl (registerRead_of_reaches hreach hin hpos hshort (barReadPart_of_one hmeets)),
    fun n hreach hpos hshort hin hmeets => answers rfl ?reserved, fun n hreach hpos hshort hin hmeets => answers rfl ?crosses,
    fun bs flash r hreach hpos hshort hin hmeets hreg => ?writes, fun bs flash hreach hpos hshort hin hmeets =>
      answers rfl ((registerWrite_of_reaches hreach hin hpos hshort).trans (barWritePart_of_crosses hmeets)),
    fun bs err flash n hlink hexists hoff hbs hn => ?disabled, fun bs err flash n h =>
      ⟨answers rfl (registerWrite_of_absent h err), answers rfl (registerRead_of_absent h)⟩,
    fun field v hlink hexists => ?configuration, fun data hlink h =>
      ⟨fun hnone => answers rfl (hostReadCompletion_of_unexpected hlink h hnone),
       fun hread => answers rfl (hostReadCompletion_of_good hlink h hread)⟩⟩
  case reserved =>
    rw [registerRead_of_reaches hreach hin hpos hshort (barReadPart_of_reserved hmeets), leNat_fillBytes_zero]
  case crosses =>
    rw [registerRead_of_reaches hreach hin hpos hshort (barReadPart_of_crosses hmeets), leNat_fillBytes_ones]
  case writes =>
    have written := ((registerWrite_of_reaches (flash := flash) hreach hin hpos hshort).trans (barWritePart_of_one hmeets)).trans
      (writeInside_of_register hreg)
    exact ⟨fun hwide => answers rfl (written.trans (if_neg (Nat.not_lt.2 hwide))),
      fun hnarrow => answers rfl (written.trans (if_pos hnarrow))⟩
  case disabled =>
    exact ⟨answers rfl ((registerWrite_of_inside hbs err).trans (barAccess_of_disabled hlink hexists hoff _)),
      answers rfl ((registerRead_of_inside hn).trans (barAccess_of_disabled hlink hexists hoff _))⟩
  case configuration =>
    refine ⟨fun hreset => answers rfl (configurationWrite_of_reset hreset field), fun hready => ⟨?_, ?_⟩⟩
    · rintro rfl
      exact answers rfl (configurationWrite_of_ready hlink hexists hready 1)
    · rintro rfl hon
      refine answers rfl ((configurationWrite_of_ready hlink hexists hready 0).trans ?_)
      rw [configWrite, hon, busMasterWrite_on]

end Sys2Proof.Proofs
end

section
/-!
PROOFS. The event collector (R466 to R469): the order of its records, its log and rings, the flash (R384, R400), and the
notifications that are sent again (R390).
-/
namespace Sys2Proof.Machine

variable {d e : Dev}

/-! ## The record that is next (R467) -/

/-- The order of records, place by place. -/
theorem takenBefore_iff (x y : Event) : takenBefore x y = true ↔
    x.raisedAt / tMc < y.raisedAt / tMc ∨ x.raisedAt / tMc = y.raisedAt / tMc ∧ (x.source < y.source ∨ x.source = y.source ∧
      (x.raisedAt < y.raisedAt ∨ x.raisedAt = y.raisedAt ∧ x.cls * 4096 + x.num < y.cls * 4096 + y.num)) := by
  simp [takenBefore]

theorem takenBefore_irrefl (x : Event) : takenBefore x x = false := by
  rw [Bool.eq_false_iff, Ne, takenBefore_iff]
  omega

theorem takenBefore_asymm {x y : Event} (h : takenBefore x y = true) : takenBefore y x = false := by
  rw [takenBefore_iff] at h
  rw [Bool.eq_false_iff, Ne, takenBefore_iff]
  omega

/-- What does not come before a record that itself does not come before another does not either. -/
theorem not_takenBefore_trans {x y z : Event} (hxy : takenBefore x y = false) (hyz : takenBefore y z = false) :
    takenBefore x z = false := by
  rw [Bool.eq_false_iff, Ne, takenBefore_iff] at *
  omega

theorem pickEvent_eq_none {q : List Event} (h : pickEvent q = none) : q = [] := by
  cases q with
  | nil => rfl
  | cons e es =>
    rw [pickEvent] at h
    split at h
    next => nomatch h
    next => split at h <;> nomatch h

theorem pickEvent_oldest {q rest : List Event} {e : Event} (h : pickEvent q = some (e, rest)) :
    List.Perm (e :: rest) q ∧ ∀ x ∈ q, takenBefore x e = false := by
  induction q generalizing e rest with
  | nil => nomatch h
  | cons f es ih =>
    rw [pickEvent] at h
    split at h
    next hnone =>
      obtain ⟨rfl, rfl⟩ := Prod.mk.inj (Option.some.inj h)
      rw [pickEvent_eq_none hnone]
      exact ⟨List.Perm.refl _, fun x hx => List.mem_singleton.1 hx ▸ takenBefore_irrefl _⟩
    next x others hsome =>
      obtain ⟨perm, oldest⟩ := ih hsome
      split at h
      next hbefore =>
        obtain ⟨rfl, rfl⟩ := Prod.mk.inj (Option.some.inj h)
        refine ⟨(List.Perm.swap f x others).trans (perm.cons f), fun y hy => ?_⟩
        rcases List.mem_cons.1 hy with rfl | hy
        · exact takenBefore_asymm hbefore
        · exact oldest y hy
      next hbefore =>
        obtain ⟨rfl, rfl⟩ := Prod.mk.inj (Option.some.inj h)
        refine ⟨List.Perm.refl _, fun y hy => ?_⟩
        rcases List.mem_cons.1 hy with rfl | hy
        · exact takenBefore_irrefl _
        · exact not_takenBefore_trans (oldest y hy) (Bool.eq_false_iff.2 hbefore)

/-! ## Host rings (R419) -/

theorem getBlock_setBlock (fn : Nat) (b : FnBlock) (d : Dev) : getBlock fn (setBlock fn b d) = b := by
  rw [getBlock, setBlock, Sparse.get_set, if_pos rfl]

theorem ringInterrupt_of_undue {fn : Nat} (h : (getBlock fn d).intDue = false) : ringInterrupt fn d = d := by
  simp [ringInterrupt, h]

theorem ringRecord_of_disabled {fn : Nat} (h : bitOf (getBlock fn d).evrCtl 8 = false) (bs : Bytes) : ringRecord fn bs d = d :=
  if_pos h

section
variable {fn : Nat} (bs : Bytes) (hon : bitOf (getBlock fn d).evrCtl 8 = true)
include hon

theorem ringRecord_of_full
    (hfull : ((getBlock fn d).tail + 2 ^ 32 - (getBlock fn d).head) % 2 ^ 32 = 2 ^ (getBlock fn d).ringLog2) :
    ringRecord fn bs d = setBlock fn { getBlock fn d with overflow := true } d := by
  rw [ringRecord, if_neg (by simp [hon]), if_pos hfull]

theorem ringRecord_of_room
    (hroom : ((getBlock fn d).tail + 2 ^ 32 - (getBlock fn d).head) % 2 ^ 32 ≠ 2 ^ (getBlock fn d).ringLog2)
    (hquiet : bitOf (getBlock fn d).evrCtl 9 = false) (hint : (getBlock fn d).intDue = false) (hmaster : busMaster fn d = true) :
    ringRecord fn bs d = setBlock fn { getBlock fn d with tail := ((getBlock fn d).tail + 1) % 2 ^ 32 } { d with
      mem.host := Mem.writeN d.mem.host
        (hostKey fn ((getBlock fn d).ringBase + 32 * ((getBlock fn d).tail % 2 ^ (getBlock fn d).ringLog2))) bs } := by
  have quiet : ((getBlock fn d).intDue || bitOf (getBlock fn d).evrCtl 9) = (getBlock fn d).intDue := by rw [hquiet, Bool.or_false]
  rw [ringRecord, if_neg (by simp [hon]), if_neg hroom]
  dsimp only
  rw [quiet, ringInterrupt_of_undue (by rw [getBlock_setBlock]; exact hint), hostWrite, if_pos hmaster]

end

section
variable (hblocks : d.pcie.blocks = [])
include hblocks

/-- No function has a block: no ring is enabled, and no interrupt is held back. -/
theorem ringInterrupts_of_unblocked : ringInterrupts d = d := by
  rw [ringInterrupts, hblocks]
  rfl

theorem ringRecord_of_unblocked (fn : Nat) (bs : Bytes) : ringRecord fn bs d = d := by
  refine ringRecord_of_disabled ?_ bs
  rw [getBlock, hblocks, Sparse.get]
  decide

/-! ## The collector -/

theorem eventCollect_of_none (h : d.ev.queue = [] ∨ d.ev.lastMc = some (d.now / tMc)) : eventCollect d = d := by
  rw [eventCollect, ringInterrupts_of_unblocked hblocks]
  rcases h with hempty | htaken
  · simp only [hempty, pickEvent, ite_self]
  · exact if_pos htaken

theorem eventCollect_of_some {x : Event} {rest : List Event} (hnew : d.ev.lastMc ≠ some (d.now / tMc))
    (hpick : pickEvent d.ev.queue = some (x, rest)) : eventCollect d = collect x { d with ev.queue := rest } := by
  rw [eventCollect, ringInterrupts_of_unblocked hblocks]
  simp only [if_neg hnew, hpick]

/-- A record is taken: its number, its place in the log, its repeats. -/
def recorded (x : Event) (d : Dev) : Dev :=
  let y : Event := { x with seq := d.ev.nextSeq, repeats := min 255 (Sparse.get {} d.ev.keys (eventKey x)).unrecorded }
  { d with
    ev.nextSeq := d.ev.nextSeq + 1
    ev.log := Sparse.set {} d.ev.log (d.ev.nextSeq % 4096) y
    ev.keys := Sparse.set {} d.ev.keys (eventKey x) { lastRecorded := some d.now, unrecorded := 0 }
    ev.lastMc := some (d.now / tMc)
    ev.persistentWaiting := if x.cls = 2 ∨ x.cls = 3 then d.ev.persistentWaiting ++ [y] else d.ev.persistentWaiting }

theorem collect_of_unnoticed {x : Event} (hmask : bitOf (dictGet 0x1200 3 d) x.cls = false) (hdone : x.num ≠ evCommitDone) :
    collect x d = recorded x d := by
  have blocks : (recorded x d).pcie.blocks = [] := hblocks
  have pf (bs : Bytes) : ringRecord 0 bs (recorded x d) = recorded x d := ringRecord_of_unblocked blocks 0 bs
  have others (fns : List Nat) (bs : Bytes) : fns.foldl (fun d fn => ringRecord fn bs d) (recorded x d) = recorded x d :=
    List.foldl_fixed' (fun fn => ringRecord_of_unblocked blocks fn bs) fns
  have unnoticed : (bitOf (dictGet 0x1200 3 (recorded x d)) x.cls || x.num == evCommitDone) = false := by
    rw [show dictGet 0x1200 3 (recorded x d) = dictGet 0x1200 3 d from rfl, hmask, beq_false_of_ne hdone]
    rfl
  unfold recorded at pf others unnoticed
  simp only [collect, pf, others, unnoticed, Bool.false_eq_true, if_false]
  rfl

end

/-! ## The flash (R384, R400) -/

theorem persistentRingWrite_of_none (h : d.ev.persistentWaiting = []) : persistentRingWrite d = d := by
  simp only [persistentRingWrite, h]

theorem persistentRingWrite_of_oldest {x : Event} {rest : List Event} (h : d.ev.persistentWaiting = x :: rest) :
    persistentRingWrite d = { d with
      ev.persistentWaiting := rest, ev.persistent := Sparse.set {} d.ev.persistent (d.ev.persistentCount % 256) x
      ev.persistentCount := d.ev.persistentCount + 1 } := by
  simp only [persistentRingWrite, h]

theorem persistentValueWrite_of_none (h : d.mgmt.flashWaiting = []) : persistentValueWrite d = d := by
  simp only [persistentValueWrite, h]

theorem persistentValueWrite_of_oldest {k v at_ : Nat} {rest : List (Nat × Nat × Nat)}
    (h : d.mgmt.flashWaiting = (k, v, at_) :: rest) :
    persistentValueWrite d =
      { d with mgmt.flashWaiting := rest, mgmt.flash := Sparse.set none d.mgmt.flash k (some v) } := by
  simp only [persistentValueWrite, h]

/-! ## Notifications (R390) -/

theorem notifyResend_of_undue (h : ∀ n ∈ d.mgmt.notices, ∀ a, n.sentAt = some a → d.now < a + 100 * tMs) : notifyResend d = d := by
  have none_due : (d.mgmt.notices.filter fun n => noticeDue n d) = [] := by
    refine List.filter_eq_nil_iff.2 fun n hn hdue => ?_
    obtain ⟨a, hsent, hat⟩ := (Option.any_eq_true ..).1 hdue
    exact Nat.not_lt.2 (of_decide_eq_true hat) (h n hn a hsent)
  rw [notifyResend, none_due, List.foldl_nil]

/-- A notification goes to a lease holder on the management controller's transport. -/
theorem sendNotice_of_controller {k : Nat} {n : Notice} (hlease : d.mgmt.lease.transport = 2) (hnotices : d.mgmt.notices = [n]) :
    sendNotice k n d = emit (.tabing 2 d.mgmt.lease.address (noticeMessage n (bumpMgmt k d)).1)
      { (noticeMessage n (bumpMgmt k d)).2 with mgmt.notices := [{ n with sentAt := some d.now }] } := by
  have notices : (noticeMessage n (bumpMgmt k d)).2.mgmt.notices = [n] := hnotices
  have lease : (bumpMgmt k d).mgmt.lease.transport = 2 := hlease
  have elsewhere : ¬ (bumpMgmt k d).mgmt.lease.transport = 0 := by rw [lease]; decide
  unfold sendNotice
  dsimp only
  rw [if_neg elsewhere, lease, notices, List.map_singleton, if_pos rfl]
  rfl

theorem notifyResend_of_one {n : Notice} {a : Nat} (hnotices : d.mgmt.notices = [n]) (hsent : n.sentAt = some a)
    (hdue : a + 100 * tMs ≤ d.now) : notifyResend d = sendNotice 5 n d := by
  have due : noticeDue n d = true := (Option.any_eq_true ..).2 ⟨a, hsent, decide_eq_true hdue⟩
  simp only [notifyResend, hnotices, List.filter_cons, due, if_true, List.filter_nil, List.foldl_cons, List.foldl_nil]

end Sys2Proof.Machine

namespace Sys2Proof.Proofs
open Sys2Proof.Machine

/-- Settles O41: the choice of the next record by induction on the queue, then each row by what waits for it. -/
theorem eventCollection : Obligations.EventCollection := by
  unfold Obligations.EventCollection
  rintro s _ rfl
  have answers {c : Instr} {f : Dev → Dev} {d' : Dev} (hc : exec c s = onDev true f s) (h : f s.dev = d') : Answers c s d' :=
    answers_onDev rfl hc h
  refine ⟨fun q e rest => pickEvent_oldest, fun hblocks h => answers rfl (eventCollect_of_none hblocks h),
    fun e0 rest hblocks hnew hpick hmask hdone => ?collected, fun bs => ?ring,
    fun h => answers rfl (persistentRingWrite_of_none h), fun e rest h => answers rfl (persistentRingWrite_of_oldest h),
    fun h => answers rfl (persistentValueWrite_of_none h), fun k v at_ rest h => answers rfl (persistentValueWrite_of_oldest h),
    fun h => answers rfl (notifyResend_of_undue h), fun n a hnotices hsent hdue hlease => ?notice⟩
  case collected =>
    intro e
    have taken : eventCollect s.dev = recorded e0 { s.dev with ev.queue := rest } :=
      (eventCollect_of_some hblocks hnew hpick).trans (collect_of_unnoticed (d := { s.dev with ev.queue := rest }) hblocks hmask hdone)
    exact answers rfl taken
  case ring =>
    exact fun hon => ⟨ringRecord_of_full bs hon, ringRecord_of_room bs hon⟩
  case notice =>
    exact answers rfl ((notifyResend_of_one hnotices hsent hdue).trans (sendNotice_of_controller hlease hnotices))

end Sys2Proof.Proofs
end

section
/-!
PROOFS. Power cues, the power monitor and the sensors (chapter 16).
-/
namespace Sys2Proof.Machine

variable {d e : Dev} {r : CueReq}

/-! ## Grants (R366) -/

/-- A word of a busy engine takes its grant at once. -/
theorem giveGrant_of_busy (h : engineIdle r.tile r.eng d = false) : giveGrant r d = markGranted r.tile r.eng r.number d := by
  simp only [giveGrant, h, Bool.false_eq_true, if_false]

theorem cueGrant_of_planned {rs : List CueReq} (hgrants : d.pow.holdAll = false) (h : d.pow.fromAccount = r :: rs) :
    cueGrant d = servePlanned r { d with pow.fromAccount := rs } := by
  simp only [cueGrant, hgrants, Bool.false_eq_true, if_false, h]

theorem cueGrant_of_held (h : d.pow.holdAll = true ∨ d.pow.fromAccount = [] ∧ d.pow.holdHeadroom = true) : cueGrant d = d := by
  rcases h with hall | ⟨hnone, hhead⟩
  · simp only [cueGrant, hall, Bool.true_or, if_true]
  · simp only [cueGrant, hnone, ite_self, hhead, Bool.or_true, Bool.true_or, if_true]

section
variable (hgrants : d.pow.holdAll = false) (hnone : d.pow.fromAccount = []) (hheadroom : d.pow.holdHeadroom = false)
  (hspaced : ∀ n, d.pow.lastGrant = some n → n + 8 * tFc ≤ d.now)
include hgrants hnone hheadroom hspaced

/-- What CUE_GRANT does with no hold, no planned request and the last headroom grant 8 fc ago. -/
theorem cueGrant_of_headroom : cueGrant d =
    match headroomHead d.pow with
    | none => d
    | some (r, p) =>
      if (r.charge : Int) ≤ d.pow.headroom then
        giveGrant r (bumpPow 1 { d with pow := { p with headroom := p.headroom - (r.charge : Int), lastGrant := some d.now } })
      else d := by
  simp only [cueGrant, hgrants, Bool.false_eq_true, if_false, hnone, hheadroom, Bool.false_or]
  refine if_neg fun hsoon => ?_
  split at hsoon
  next t hlast => exact Nat.not_lt.2 (hspaced t hlast) (of_decide_eq_true hsoon)
  next => nomatch hsoon

theorem cueGrant_of_no_head (h : headroomHead d.pow = none) : cueGrant d = d := by
  rw [cueGrant_of_headroom hgrants hnone hheadroom hspaced, h]

theorem cueGrant_of_uncovered {p : Power} (h : headroomHead d.pow = some (r, p)) (hshort : d.pow.headroom < r.charge) :
    cueGrant d = d := by
  rw [cueGrant_of_headroom hgrants hnone hheadroom hspaced, h]
  exact if_neg (Int.not_le.2 hshort)

end

/-- The head of the headroom queues is taken off its queue and off nothing else. -/
theorem headroomHead_keeps {p q : Power} (h : headroomHead p = some (r, q)) : q.headroom = p.headroom ∧ q.counts = p.counts := by
  unfold headroomHead at h
  split at h
  next => obtain ⟨-, rfl⟩ := Prod.mk.inj (Option.some.inj h); exact ⟨rfl, rfl⟩
  next => obtain ⟨-, rfl⟩ := Prod.mk.inj (Option.some.inj h); exact ⟨rfl, rfl⟩
  next => obtain ⟨-, rfl⟩ := Prod.mk.inj (Option.some.inj h); exact ⟨rfl, rfl⟩
  next => nomatch h

theorem cueGrant_of_covered {p : Power} (hgrants : d.pow.holdAll = false) (hnone : d.pow.fromAccount = [])
    (hheadroom : d.pow.holdHeadroom = false) (hspaced : ∀ n, d.pow.lastGrant = some n → n + 8 * tFc ≤ d.now)
    (h : headroomHead d.pow = some (r, p)) (hcovered : (r.charge : Int) ≤ d.pow.headroom)
    (hbusy : engineIdle r.tile r.eng d = false) :
    cueGrant d = markGranted r.tile r.eng r.number { d with
      pow := { p with headroom := d.pow.headroom - r.charge, lastGrant := some d.now, counts := bumpTable d.pow.counts 1 1 } } := by
  obtain ⟨headroom, counts⟩ := headroomHead_keeps h
  have covered : cueGrant d = giveGrant r (bumpPow 1 { d with
      pow := { p with headroom := p.headroom - (r.charge : Int), lastGrant := some d.now } }) := by
    rw [cueGrant_of_headroom hgrants hnone hheadroom hspaced, h]
    exact if_pos hcovered
  refine covered.trans ((giveGrant_of_busy ?_).trans ?_)
  · exact hbusy
  · rw [bumpPow, headroom, counts]

/-! ## Planned requests (R363, R366) -/

/-- The lots a float takes are whole credits: enough for the charge, and none beyond the last that it needs. -/
theorem lotsFor_covers (have_ charge : Nat) : charge ≤ have_ + lotsFor have_ charge ∧ (charge ≤ have_ → lotsFor have_ charge = 0) ∧
    (have_ < charge → have_ + lotsFor have_ charge < charge + credit) := by
  unfold lotsFor credit
  split <;> omega

/-- What the served request's lots leave of the account, and in the float. -/
def servedPlanned (r : CueReq) (d : Dev) : Dev :=
  let k := floatKey r.tile r.tenant
  let lots := lotsFor (Sparse.get 0 d.pow.floats k) r.charge
  bumpPow 0 (modRun r.tenant (fun x => { x with account := x.account - lots })
    { d with pow.floats := Sparse.set 0 d.pow.floats k (Sparse.get 0 d.pow.floats k + lots - r.charge) })

theorem getRun_bumpPow (i u : Nat) (d : Dev) : getRun u (bumpPow i d) = getRun u d := rfl

theorem getRun_servedPlanned (r : CueReq) (u : Nat) (d : Dev) : getRun u (servedPlanned r d) =
    if u = r.tenant then { getRun u d with
      account := (getRun u d).account - lotsFor (Sparse.get 0 d.pow.floats (floatKey r.tile r.tenant)) r.charge }
    else getRun u d := by
  simp only [servedPlanned, getRun_bumpPow, getRun_modRun]
  split
  next h => subst h; rfl
  next => rfl

theorem floats_servedPlanned (r : CueReq) (k : Nat) (d : Dev) : Sparse.get 0 (servedPlanned r d).pow.floats k =
    if k = floatKey r.tile r.tenant then Sparse.get 0 d.pow.floats k + lotsFor (Sparse.get 0 d.pow.floats k) r.charge - r.charge
    else Sparse.get 0 d.pow.floats k := by
  refine (Sparse.get_set 0 d.pow.floats (floatKey r.tile r.tenant) k _).trans ?_
  split
  next h => subst h; rfl
  next => rfl

theorem servePlanned_of_covered (hrun : (getRun r.tenant d).running = true) (hbusy : engineIdle r.tile r.eng d = false)
    (hlots : lotsFor (Sparse.get 0 d.pow.floats (floatKey r.tile r.tenant)) r.charge ≤ (getRun r.tenant d).account) :
    servePlanned r d = markGranted r.tile r.eng r.number (servedPlanned r d) := by
  have busy : engineIdle r.tile r.eng (servedPlanned r d) = false := hbusy
  rw [← giveGrant_of_busy busy]
  exact if_pos ⟨hrun, hlots⟩

/-! ## Ramps (R62, R67, R367) -/

/-- The request whose tile is lower. -/
def lowerTile (b y : CueReq) : CueReq := if y.tile < b.tile then y else b

/-- The fold of a list by the lower tile is one of its requests, and none has a lower tile. -/
theorem foldl_lowerTile (x : CueReq) (xs : List CueReq) :
    xs.foldl lowerTile x ∈ x :: xs ∧ ∀ y ∈ x :: xs, (xs.foldl lowerTile x).tile ≤ y.tile := by
  induction xs generalizing x with
  | nil => exact ⟨List.mem_cons_self .., fun y hy => Nat.le_of_eq (congrArg CueReq.tile (List.mem_singleton.1 hy).symm)⟩
  | cons z zs ih =>
    obtain ⟨mem, least⟩ := ih (lowerTile x z)
    have lower : (lowerTile x z = x ∨ lowerTile x z = z) ∧ (lowerTile x z).tile ≤ x.tile ∧ (lowerTile x z).tile ≤ z.tile := by
      unfold lowerTile
      split
      next h => exact ⟨.inr rfl, Nat.le_of_lt h, Nat.le_refl _⟩
      next h => exact ⟨.inl rfl, Nat.le_refl _, Nat.not_lt.1 h⟩
    obtain ⟨one, belowx, belowz⟩ := lower
    have head := least _ (List.mem_cons_self ..)
    rw [List.foldl_cons]
    refine ⟨?_, fun y hy => ?_⟩
    · rcases List.mem_cons.1 mem with h | h
      · rw [h]
        rcases one with one | one <;> simp [one]
      · exact List.mem_cons_of_mem _ (List.mem_cons_of_mem _ h)
    · rcases List.mem_cons.1 hy with rfl | hy
      · exact head.trans belowx
      · rcases List.mem_cons.1 hy with rfl | hy
        · exact head.trans belowz
        · exact least y (List.mem_cons_of_mem _ hy)

theorem deferredRampRelease_of_none (h : ∀ r ∈ d.pow.deferred, 4 ≤ recentRamps (r.tile / 64) d) : deferredRampRelease d = d := by
  have none_able : (d.pow.deferred.filter fun r => decide (recentRamps (r.tile / 64) d < 4)) = [] :=
    List.filter_eq_nil_iff.2 fun r hr hable => Nat.not_lt.2 (h r hr) (of_decide_eq_true hable)
  simp only [deferredRampRelease, none_able]

theorem deferredRampRelease_of_lowest (hmem : r ∈ d.pow.deferred) (hable : recentRamps (r.tile / 64) d < 4)
    (hlowest : ∀ q ∈ d.pow.deferred, q ≠ r → recentRamps (q.tile / 64) d < 4 → r.tile < q.tile) :
    deferredRampRelease d = markGranted r.tile r.eng r.number
      (beginRamp r.tile r.eng { d with pow.deferred := d.pow.deferred.filter (· != r) }) := by
  have able (q : CueReq) : q ∈ (d.pow.deferred.filter fun r => decide (recentRamps (r.tile / 64) d < 4)) ↔
      q ∈ d.pow.deferred ∧ recentRamps (q.tile / 64) d < 4 := by rw [List.mem_filter, decide_eq_true_iff]
  have present := (able r).2 ⟨hmem, hable⟩
  unfold deferredRampRelease
  dsimp only
  split
  next hnone => rw [hnone] at present; nomatch present
  next x xs hsome =>
    obtain ⟨mem, least⟩ := foldl_lowerTile x xs
    rw [← hsome] at mem least
    have chosen : xs.foldl lowerTile x = r := by
      by_contra hne
      obtain ⟨hin, hcan⟩ := (able _).1 mem
      exact Nat.not_lt.2 (least r present) (hlowest _ hin hne hcan)
    unfold lowerTile at chosen
    rw [chosen]

/-! ## The power monitor (R368) -/

section
variable (mw : Nat) (d : Dev)

/-- Whether a sample exceeds `n` hundredths of PL. -/
def sampleExceeds (n : Nat) : Bool := decide (dictGet 0x3000 1 d * 1000 * n < mw * 100)

/-- Since when the average has been below PL. -/
def sampleBelow : Option Nat :=
  if mw < dictGet 0x3000 1 d * 1000 then (match d.pow.belowSince with | some t => some t | none => some d.now) else none

/-- Whether a sample ends the holds. -/
def holdEnded : Bool :=
  match sampleBelow mw d with
  | some t => decide (t + 10 * tUs ≤ d.now)
  | none => false

/-- What a sample makes of the monitor, before a hold that begins is counted. -/
def sampled : Dev :=
  { d with
    pow.avgMw := mw
    pow.energy := d.pow.energy + mw
    pow.belowSince := sampleBelow mw d
    pow.holdHeadroom := sampleExceeds mw d 105 || (d.pow.holdHeadroom && !holdEnded mw d)
    pow.holdAll := sampleExceeds mw d 110 || (d.pow.holdAll && !holdEnded mw d) }

/-- Whether a hold begins with a sample. -/
def holdBegins : Bool :=
  (sampleExceeds mw d 105 && !d.pow.holdHeadroom) || (sampleExceeds mw d 110 && !d.pow.holdAll)

theorem powerMonitorSample_eq : powerMonitorSample mw d =
    if holdBegins mw d && !d.pow.holdRaised then raise 4 evPowerHold 0 (bumpPow 4 { sampled mw d with pow.holdRaised := true })
    else if holdBegins mw d then bumpPow 4 (sampled mw d) else sampled mw d := rfl

theorem holdBegins_iff : holdBegins mw d = true ↔ (sampleExceeds mw d 105 = true ∧ d.pow.holdHeadroom = false) ∨
    (sampleExceeds mw d 110 = true ∧ d.pow.holdAll = false) := by
  simp [holdBegins]

/-- The holds end once the average has stayed below PL for 10 us. -/
theorem holdEnded_iff : holdEnded mw d = true ↔
    mw < dictGet 0x3000 1 d * 1000 ∧ ∃ b, d.pow.belowSince = some b ∧ b + 10 * tUs ≤ d.now := by
  unfold holdEnded sampleBelow
  by_cases hbelow : mw < dictGet 0x3000 1 d * 1000
  · rw [if_pos hbelow]
    cases hsince : d.pow.belowSince with
    | some b => simp [hbelow]
    | none => simp [hbelow, tUs]
  · simp [hbelow]

/-- A hold that begins is raised once in a frame; otherwise only the count of holds may change besides the monitor. -/
theorem powerMonitorSample_cases :
    (holdBegins mw d = true ∧ d.pow.holdRaised = false ∧ powerMonitorSample mw d =
      raise 4 evPowerHold 0 (bumpPow 4 { sampled mw d with pow.holdRaised := true })) ∨
    ((holdBegins mw d = false ∨ d.pow.holdRaised = true) ∧ ∃ c, powerMonitorSample mw d = { sampled mw d with pow.counts := c }) := by
  rw [powerMonitorSample_eq]
  cases hbegins : holdBegins mw d with
  | false => exact .inr ⟨.inl rfl, _, rfl⟩
  | true =>
    cases hraised : d.pow.holdRaised with
    | false => exact .inl ⟨rfl, rfl, rfl⟩
    | true => exact .inr ⟨.inr rfl, _, rfl⟩

/-- What a sample leaves in the monitor, whether or not a hold begins. -/
theorem powerMonitorSample_pow : ∃ c b, (powerMonitorSample mw d).pow =
    { (sampled mw d).pow with counts := c, holdRaised := b } := by
  rcases powerMonitorSample_cases mw d with ⟨-, -, h⟩ | ⟨-, c, h⟩
  · refine ⟨bumpTable d.pow.counts 4 1, true, ?_⟩
    rw [h, raise_eq _ _ _ _ (by decide)]
    rfl
  · exact ⟨c, d.pow.holdRaised, congrArg Dev.pow h⟩

/-- A sample changes the monitor and the collector's state at most. -/
theorem powerMonitorSample_frame : ∃ p v, powerMonitorSample mw d = { d with pow := p, ev := v } := by
  rcases powerMonitorSample_cases mw d with ⟨-, -, h⟩ | ⟨-, c, h⟩
  · exact ⟨_, _, h.trans (raise_eq _ _ _ _ (by decide))⟩
  · exact ⟨_, _, h⟩

end

/-! ## Sensors (R370, R373) -/

/-- A list's largest member above a floor: the fold reaches every member and is one of them or the floor. -/
theorem foldl_max_spec (l : List Int) (a : Int) : (l.foldl max a = a ∨ l.foldl max a ∈ l) ∧ a ≤ l.foldl max a ∧ ∀ x ∈ l, x ≤ l.foldl max a := by
  induction l generalizing a with
  | nil => exact ⟨.inl rfl, Int.le_refl a, fun x hx => nomatch hx⟩
  | cons y l ih =>
    obtain ⟨one, floor, above⟩ := ih (max a y)
    rw [List.foldl_cons]
    refine ⟨?_, (Int.le_max_left a y).trans floor, fun x hx => ?_⟩
    · rcases one with one | one
      · rcases max_choice a y with h | h
        · exact .inl (one.trans h)
        · exact .inr (List.mem_cons.2 (.inl (one.trans h)))
      · exact .inr (List.mem_cons_of_mem _ one)
    · rcases List.mem_cons.1 hx with rfl | hx
      · exact (Int.le_max_right a x).trans floor
      · exact above x hx

theorem maxOpt_spec (a : Option Int) (x : Int) : (maxOpt a x = some x ∨ maxOpt a x = a) ∧
    ∃ v, maxOpt a x = some v ∧ x ≤ v ∧ ∀ y, a = some y → y ≤ v := by
  cases a with
  | none => exact ⟨.inl rfl, x, rfl, Int.le_refl x, fun y hy => nomatch hy⟩
  | some y =>
    refine ⟨?_, max x y, rfl, Int.le_max_left x y, fun z hz => Option.some.inj hz ▸ Int.le_max_right x y⟩
    rcases max_choice x y with h | h
    · exact .inl (congrArg some h)
    · exact .inr (congrArg some h)

/-- A frame's maximum reaches every reading that it takes in. -/
theorem foldl_maxOpt_reaches (l : List Int) (a : Option Int) : (∀ y, a = some y → ∃ v, l.foldl maxOpt a = some v ∧ y ≤ v) ∧
    ∀ x ∈ l, ∃ v, l.foldl maxOpt a = some v ∧ x ≤ v := by
  induction l generalizing a with
  | nil => exact ⟨fun y hy => ⟨y, hy, Int.le_refl y⟩, fun x hx => nomatch hx⟩
  | cons z l ih =>
    obtain ⟨kept, taken⟩ := ih (maxOpt a z)
    obtain ⟨-, v, hv, hz, ha⟩ := maxOpt_spec a z
    obtain ⟨w, hw, hvw⟩ := kept v hv
    rw [List.foldl_cons]
    refine ⟨fun y hy => ⟨w, hw, (ha y hy).trans hvw⟩, fun x hx => ?_⟩
    rcases List.mem_cons.1 hx with rfl | hx
    · exact ⟨w, hw, hz.trans hvw⟩
    · exact taken x hx

section
variable (die : Nat) (temps stackTemps : List Int) (d : Dev)

/-- Twice the median of a die's working sensors. -/
def sensorMedian : Int := medianTwice ((dieSensors die d).map fun s => temps.getD s 0)

/-- A reading within the bounds of R370. -/
def FairReading (s : Nat) : Prop :=
  -400 ≤ temps.getD s 0 ∧ temps.getD s 0 ≤ 1500 ∧ (2 * temps.getD s 0 - sensorMedian die temps d).natAbs ≤ 300

/-- The test by which a reading excludes its sensor. -/
def faultyReading (s : Nat) : Bool :=
  decide (temps.getD s 0 < -400) || decide (1500 < temps.getD s 0) ||
    decide (300 < (2 * temps.getD s 0 - sensorMedian die temps d).natAbs)

theorem faultyReading_iff (s : Nat) : faultyReading die temps d s = true ↔ ¬ FairReading die temps d s := by
  rw [faultyReading, FairReading, Bool.or_eq_true, Bool.or_eq_true, decide_eq_true_iff, decide_eq_true_iff, decide_eq_true_iff]
  omega

def goodSensors : List Nat := (dieSensors die d).filter fun s => !faultyReading die temps d s
def hotSensors : List Nat := (goodSensors die temps d).filter fun s => decide (1120 ≤ temps.getD s 0)

/-- A sensor that has read 112 C or more for 10 us. -/
def hotLong (s : Nat) : Bool :=
  Sparse.get 0 d.pow.hotSince (die * 16 + s) != 0 && decide (Sparse.get 0 d.pow.hotSince (die * 16 + s) + 10 * tUs ≤ d.now + 1)

/-- The sensors that a reading excludes are excluded. -/
def faultyExcluded : Dev :=
  ((dieSensors die d).filter (faultyReading die temps d)).foldl (fun d s => excludeSensor die s d) d

/-- The Tj that a reading gives. -/
def readingTj : Int :=
  if (goodSensors die temps d).length < 8 then (dictGet 0x3000 4 d : Int) * 10
  else ((goodSensors die temps d).map fun s => temps.getD s 0).foldl max (-400)

/-- A reading as it is kept on `e`, the device without the sensors that it excludes. -/
def readingKept (e : Dev) : Dev := { e with
  pow.sensors := (List.range 16).foldl (fun m s => Sparse.set 0 m (die * 16 + s) (temps.getD s 0)) e.pow.sensors
  pow.tj := maxOpt e.pow.tj (readingTj die temps d)
  pow.tjDie := Sparse.set 0 e.pow.tjDie die (max (readingTj die temps d + 1000) (Sparse.get 0 e.pow.tjDie die))
  pow.stackTemps := (List.range stackTemps.length).foldl (fun m s => Sparse.set 0 m s (stackTemps.getD s 0)) e.pow.stackTemps
  pow.thbm := stackTemps.foldl maxOpt e.pow.thbm
  pow.hotSince := (List.range 16).foldl (fun m s => Sparse.set 0 m (die * 16 + s)
    (if (hotSensors die temps d).contains s then (if Sparse.get 0 d.pow.hotSince (die * 16 + s) = 0 then d.now + 1
      else Sparse.get 0 d.pow.hotSince (die * 16 + s)) else 0)) e.pow.hotSince }

/-- A reading is kept, and trips the device where a sensor has been hot for long. -/
theorem sensorRead_eq : sensorRead die temps stackTemps d =
    match (hotSensors die temps d).find? (hotLong die d) with
    | some _ => if d.pow.tripped then readingKept die temps stackTemps d (faultyExcluded die temps d)
        else thermalTrip 0 (readingKept die temps stackTemps d (faultyExcluded die temps d))
    | none => readingKept die temps stackTemps d (faultyExcluded die temps d) := rfl

variable {die temps stackTemps d}

theorem mem_dieSensors {k : Nat} (h : k ∈ dieSensors die d) : k < 16 := List.mem_range.1 (List.mem_filter.1 h).1

/-! ### No sensor excluded -/

section
variable (hall : ∀ k, k < 16 → k ∈ dieSensors die d ∧ FairReading die temps d k ∧ temps.getD k 0 < 1120)
include hall

theorem dieSensors_of_all : dieSensors die d = List.range 16 :=
  List.filter_eq_self.2 fun k hk => (List.mem_filter.1 (hall k (List.mem_range.1 hk)).1).2

theorem faultyReading_of_all {k : Nat} (hk : k ∈ dieSensors die d) : faultyReading die temps d k = false :=
  Bool.eq_false_iff.2 fun hfaulty => (faultyReading_iff ..).1 hfaulty (hall k (mem_dieSensors hk)).2.1

theorem goodSensors_of_all : goodSensors die temps d = List.range 16 := by
  rw [← dieSensors_of_all hall]
  exact List.filter_eq_self.2 fun k hk => by rw [faultyReading_of_all hall hk]; rfl

theorem sensorRead_of_all : sensorRead die temps stackTemps d = readingKept die temps stackTemps d d := by
  have none_hot : hotSensors die temps d = [] := by
    refine List.filter_eq_nil_iff.2 fun k hk hhot => ?_
    rw [goodSensors_of_all hall, List.mem_range] at hk
    exact Int.not_lt.2 (of_decide_eq_true hhot) (hall k hk).2.2
  have none_faulty : (dieSensors die d).filter (faultyReading die temps d) = [] :=
    List.filter_eq_nil_iff.2 fun k hk => Bool.eq_false_iff.1 (faultyReading_of_all hall hk)
  rw [sensorRead_eq, none_hot, faultyExcluded, none_faulty]
  rfl

/-- The Tj of such a reading is the largest of the sixteen. -/
theorem readingTj_of_all : (∃ k, k < 16 ∧ readingTj die temps d = temps.getD k 0) ∧
    ∀ k, k < 16 → temps.getD k 0 ≤ readingTj die temps d := by
  have tj : readingTj die temps d = ((List.range 16).map fun s => temps.getD s 0).foldl max (-400) := by
    rw [readingTj, goodSensors_of_all hall]
    rfl
  obtain ⟨one, -, above⟩ := foldl_max_spec ((List.range 16).map fun s => temps.getD s 0) (-400)
  rw [← tj] at one above
  have largest (k : Nat) (hk : k < 16) : temps.getD k 0 ≤ readingTj die temps d :=
    above _ (List.mem_map.2 ⟨k, List.mem_range.2 hk, rfl⟩)
  refine ⟨?_, largest⟩
  rcases one with floor | mem
  · obtain ⟨-, ⟨low, -, -⟩, -⟩ := hall 0 (by decide)
    exact ⟨0, by decide, Int.le_antisymm (floor.trans_le low) (largest 0 (by decide))⟩
  · obtain ⟨k, hk, h⟩ := List.mem_map.1 mem
    exact ⟨k, List.mem_range.1 hk, h.symm⟩

end

theorem ev_readingKept (e : Dev) : (readingKept die temps stackTemps d e).ev = e.ev := rfl

theorem sensors_readingKept (e : Dev) {k : Nat} (hk : k < 16) :
    Sparse.get 0 (readingKept die temps stackTemps d e).pow.sensors (die * 16 + k) = temps.getD k 0 := by
  have apart : (fun s => die * 16 + s).Injective := fun a b => Nat.add_left_cancel
  exact (Sparse.get_foldl_set 0 apart (fun s => temps.getD s 0) _ _ k).trans (if_pos (List.mem_range.2 hk))

/-! ### Exclusions -/

theorem excluded_excludeSensor (s j : Nat) (d : Dev) : Sparse.get false (excludeSensor die s d).pow.excluded j =
    if j = die * 16 + s then true else Sparse.get false d.pow.excluded j := by
  rw [excludeSensor, raise_eq _ _ _ _ (by decide)]
  exact Sparse.get_set false d.pow.excluded (die * 16 + s) j true

/-- Sensors that are excluded stay so, and those of the list become so. -/
theorem excluded_foldl (l : List Nat) (d : Dev) : (∀ j, Sparse.get false d.pow.excluded j = true →
      Sparse.get false (l.foldl (fun d s => excludeSensor die s d) d).pow.excluded j = true) ∧
    ∀ s ∈ l, Sparse.get false (l.foldl (fun d s => excludeSensor die s d) d).pow.excluded (die * 16 + s) = true := by
  induction l generalizing d with
  | nil => exact ⟨fun j h => h, fun s hs => nomatch hs⟩
  | cons a l ih =>
    obtain ⟨kept, more⟩ := ih (excludeSensor die a d)
    refine ⟨fun j h => kept j ?_, fun s hs => ?_⟩
    · rw [excluded_excludeSensor, h, ite_self]
    · rcases List.mem_cons.1 hs with rfl | hs
      · exact kept _ ((excluded_excludeSensor ..).trans (if_pos rfl))
      · exact more s hs

theorem get_bumpTable_other (m : Table Nat) {i j : Nat} (n : Nat) (h : j ≠ i) : Sparse.get 0 (bumpTable m i n) j = Sparse.get 0 m j :=
  (Sparse.get_set 0 m i j _).trans (if_neg h)

/-- An event of one class leaves the counts of the others. -/
theorem raise_counts_other {cls k : Nat} (num src : Nat) (d : Dev) (detail : Nat) (h : k ≠ cls) :
    Sparse.get 0 (raise cls num src d detail).ev.counts k = Sparse.get 0 d.ev.counts k :=
  (congrArg (Sparse.get 0 · k) (raiseEvent_counts _ d)).trans (get_bumpTable_other _ 1 h)

/-- A faulty sensor is no device-fatal event. -/
theorem fatal_count_excludeSensor (s : Nat) (d : Dev) :
    Sparse.get 0 (excludeSensor die s d).ev.counts 3 = Sparse.get 0 d.ev.counts 3 :=
  raise_counts_other evSensorFault _ _ 0 (by decide)

theorem fatal_count_faultyExcluded : Sparse.get 0 (faultyExcluded die temps d).ev.counts 3 = Sparse.get 0 d.ev.counts 3 :=
  foldl_leaves (fun d : Dev => Sparse.get 0 d.ev.counts 3) (fun e s => fatal_count_excludeSensor s e) _ d

/-! ### The trip (R373, R465) -/

theorem sendHeartbeat_frame (b : Bool) (d : Dev) : ∃ t n, sendHeartbeat b d = { d with twin := t, net := n } := by
  unfold sendHeartbeat
  split
  · exact ⟨_, _, rfl⟩
  · exact ⟨_, _, rfl⟩

/-- A device-fatal event sets FATAL, is counted once, and leaves the power state and the clock. -/
theorem raiseFatal_effect (num src : Nat) (d : Dev) : (raiseFatal num src d).fatal = true ∧
    (raiseFatal num src d).pow = d.pow ∧ (raiseFatal num src d).clk = d.clk ∧
    Sparse.get 0 (raiseFatal num src d).ev.counts 3 = satAdd 64 (Sparse.get 0 d.ev.counts 3) 1 := by
  obtain ⟨t, n, sent⟩ := sendHeartbeat_frame true (raise 3 num src d)
  have raised := raiseEvent_frame { cls := 3, num := num, source := src } d
  have counts : (raise 3 num src d).ev.counts = bumpTable d.ev.counts 3 1 := raiseEvent_counts _ d
  unfold raiseFatal
  rw [sent]
  refine ⟨rfl, (congrArg Dev.pow raised :), (congrArg Dev.clk raised :), ?_⟩
  exact (congrArg (Sparse.get 0 · 3) counts).trans (bumpTable_get_same _ 3)

theorem thermalTrip_effect (src : Nat) (d : Dev) : (thermalTrip src d).pow = { d.pow with tripped := true } ∧
    (thermalTrip src d).clk.stopped = true ∧ (thermalTrip src d).fatal = true ∧
    Sparse.get 0 (thermalTrip src d).ev.counts 3 = satAdd 64 (Sparse.get 0 d.ev.counts 3) 1 := by
  obtain ⟨fatal, pow, clk, counts⟩ := raiseFatal_effect evThermalTrip src
    { d with pow.tripped := true, boot.tripLatch := true, clk.ccBase := ccNow d, clk.stopped := true }
  unfold thermalTrip
  exact ⟨pow, (congrArg Clock.stopped clk :), fatal, counts⟩

theorem sensorRead_excluded : (sensorRead die temps stackTemps d).pow.excluded = (faultyExcluded die temps d).pow.excluded := by
  rw [sensorRead_eq]
  split
  · split
    · rfl
    · rw [(thermalTrip_effect 0 _).1]
      rfl
  · rfl

/-- A reading out of bounds excludes its sensor. -/
theorem excluded_of_unfair {k : Nat} (hk : k ∈ dieSensors die d) (hunfair : ¬ FairReading die temps d k) :
    Sparse.get false (sensorRead die temps stackTemps d).pow.excluded (die * 16 + k) = true := by
  rw [sensorRead_excluded, faultyExcluded]
  exact (excluded_foldl _ _).2 k (List.mem_filter.2 ⟨hk, (faultyReading_iff ..).2 hunfair⟩)

theorem sensorRead_of_trip {k : Nat} (hk : k ∈ dieSensors die d) (hfair : FairReading die temps d k) (hhot : 1120 ≤ temps.getD k 0)
    (hlong : hotLong die d k = true) (hfirst : d.pow.tripped = false) : sensorRead die temps stackTemps d =
      thermalTrip 0 (readingKept die temps stackTemps d (faultyExcluded die temps d)) := by
  have good : faultyReading die temps d k = false := Bool.eq_false_iff.2 fun h => (faultyReading_iff ..).1 h hfair
  have hot : k ∈ hotSensors die temps d :=
    List.mem_filter.2 ⟨List.mem_filter.2 ⟨hk, by rw [good]; rfl⟩, decide_eq_true hhot⟩
  rw [sensorRead_eq]
  split
  · exact if_neg (Bool.eq_false_iff.1 hfirst)
  next hnone => exact absurd hlong (List.find?_eq_none.1 hnone k hot)

end

end Sys2Proof.Machine

namespace Sys2Proof.Proofs
open Sys2Proof.Machine

/-- Settles O28: each row by what it finds; the served request's account and float by what lots cover. -/
theorem powerCues : Obligations.PowerCues := by
  unfold Obligations.PowerCues
  rintro s _ rfl
  have answers {c : Instr} {f : Dev → Dev} {d' : Dev} (hc : exec c s = onDev true f s) (h : f s.dev = d') : Answers c s d' :=
    answers_onDev rfl hc h
  refine ⟨fun r rs hgrants h => answers rfl (cueGrant_of_planned hgrants h), fun h => answers rfl (cueGrant_of_held h),
    fun hgrants hnone hheadroom hspaced => ⟨fun h => answers rfl (cueGrant_of_no_head hgrants hnone hheadroom hspaced h),
      fun r p h => ⟨fun hshort => answers rfl (cueGrant_of_uncovered hgrants hnone hheadroom hspaced h hshort),
        fun hcovered hbusy => answers rfl (cueGrant_of_covered hgrants hnone hheadroom hspaced h hcovered hbusy)⟩⟩,
    fun r => ?planned, fun h => answers rfl (deferredRampRelease_of_none h),
    fun r hmem hable hlowest => answers rfl (deferredRampRelease_of_lowest hmem hable hlowest), fun t ht => ?idle⟩
  case planned =>
    intro have_ lots hlots hrun hbusy e
    obtain ⟨covered, whole, tight⟩ := lotsFor_covers have_ r.charge
    have served : e = markGranted r.tile r.eng r.number (servedPlanned r s.dev) := servePlanned_of_covered hrun hbusy hlots
    have runs : ∀ u, getRun u e = getRun u (servedPlanned r s.dev) := fun u => by rw [served]; rfl
    have pow : e.pow = (servedPlanned r s.dev).pow := by rw [served]; rfl
    refine ⟨covered, whole, tight, ?_, ?_, fun k hk => ?_, by rw [pow]; rfl, fun u hu => ?_⟩
    · rw [runs, getRun_servedPlanned, if_pos rfl]
      exact Nat.sub_add_cancel hlots
    · rw [pow, floats_servedPlanned, if_pos rfl]
      exact Nat.sub_add_cancel covered
    · rw [pow, floats_servedPlanned, if_neg hk]
    · rw [runs, getRun_servedPlanned, if_neg hu]
  case idle =>
    intro x
    exact answers_onTile ht rfl rfl

/-- Settles O29: the monitor's fields as the sample leaves them, then the event by whether a hold begins. -/
theorem powerMonitor : Obligations.PowerMonitor := by
  unfold Obligations.PowerMonitor
  rintro s _ mw rfl pl exceeds calm
  have ends : holdEnded mw s.dev = true ↔ calm := holdEnded_iff mw s.dev
  have stays (h : ¬ calm) : holdEnded mw s.dev = false := Bool.eq_false_iff.2 (h ∘ ends.1)
  have begins := holdBegins_iff mw s.dev
  obtain ⟨c, b, pow⟩ := powerMonitorSample_pow mw s.dev
  have headroom : (powerMonitorSample mw s.dev).pow.holdHeadroom = (exceeds 105 || (s.dev.pow.holdHeadroom && !holdEnded mw s.dev)) :=
    congrArg Power.holdHeadroom pow
  have all : (powerMonitorSample mw s.dev).pow.holdAll = (exceeds 110 || (s.dev.pow.holdAll && !holdEnded mw s.dev)) :=
    congrArg Power.holdAll pow
  have below : (powerMonitorSample mw s.dev).pow.belowSince = sampleBelow mw s.dev := congrArg Power.belowSince pow
  refine completes_onDev rfl rfl ⟨congrArg Power.avgMw pow, ?_, ?_, ?_, ?_, ?_, ?_, ?_, ?_, ?_, ?_⟩
  · exact fun hover => headroom.trans (by rw [hover, Bool.true_or])
  · exact fun hover => all.trans (by rw [hover, Bool.true_or])
  · exact fun hunder hcalm => headroom.trans (by rw [hunder, ends.2 hcalm]; simp)
  · exact fun hunder hcalm => all.trans (by rw [hunder, ends.2 hcalm]; simp)
  · exact fun hunder hstays => headroom.trans (by rw [hunder, stays hstays]; simp)
  · exact fun hunder hstays => all.trans (by rw [hunder, stays hstays]; simp)
  · exact fun hlow hnone => below.trans (by rw [sampleBelow, if_pos hlow, hnone])
  · exact fun hhigh => below.trans (if_neg (Nat.not_lt.2 hhigh))
  · rcases powerMonitorSample_cases mw s.dev with ⟨hbegins, hraised, h⟩ | ⟨hquiet, c, h⟩
    · refine ⟨fun _ _ => ⟨?_, ?_⟩, fun hquiet => ?_⟩
      · have counts := congrArg (fun e : Dev => Sparse.get 0 e.ev.counts 4) h
        exact counts.trans ((congrArg (Sparse.get 0 · 4) (raiseEvent_counts _ _)).trans (bumpTable_get_same _ 4))
      · refine (congrArg (fun e : Dev => e.pow.holdRaised) h).trans ?_
        rw [raise_eq _ _ _ _ (by decide)]
        rfl
      · exact absurd hquiet (not_or.2 ⟨not_not.2 (begins.1 hbegins), Bool.eq_false_iff.1 hraised⟩)
    · refine ⟨fun hbegins hraised => ?_, fun _ => (congrArg Dev.ev h :)⟩
      rcases hquiet with hno | hbefore
      · exact absurd (begins.2 hbegins) (Bool.eq_false_iff.1 hno)
      · exact absurd hbefore (Bool.eq_false_iff.1 hraised)
  · obtain ⟨p, v, frame⟩ := powerMonitorSample_frame mw s.dev
    rw [frame]
    rfl

/-- Settles O30: sixteen fair readings exclude none and trip nothing; a faulty one excludes its sensor; a sensor that has been
hot for 10 us trips the device. -/
theorem sensorReadings : Obligations.SensorReadings := by
  unfold Obligations.SensorReadings
  rintro s _ die temps stackTemps rfl hdie read med fair
  have completes {P : Dev → Prop} (h : P (settle (sensorRead die temps stackTemps s.dev))) :
      Completes (.sensorRead die temps stackTemps) s P := completes_onDev (decide_eq_true hdie) rfl h
  refine ⟨fun hall => completes ?_, fun k hk hunfair => completes ?_, fun k hk hfair hhot hfirst hsince hlong => completes ?_⟩
  · obtain ⟨⟨m, hm, largest⟩, above⟩ := readingTj_of_all hall
    obtain ⟨one, v, tj, reaches, keeps⟩ := maxOpt_spec s.dev.pow.tj (readingTj die temps s.dev)
    rw [sensorRead_of_all hall]
    refine ⟨⟨m, hm, one.imp_left (·.trans (congrArg some largest))⟩, fun k hk => ⟨v, tj, (above k hk).trans reaches⟩,
      fun w hw => ⟨v, tj, keeps w hw⟩, (foldl_maxOpt_reaches stackTemps s.dev.pow.thbm).2,
      fun k hk => sensors_readingKept _ hk, rfl, rfl, rfl⟩
  · exact excluded_of_unfair hk hunfair
  · have long : hotLong die s.dev k = true := by simp [hotLong, hsince, hlong]
    rw [sensorRead_of_trip hk hfair hhot long hfirst]
    obtain ⟨pow, stopped, fatal, counts⟩ := thermalTrip_effect 0 (readingKept die temps stackTemps s.dev (faultyExcluded die temps s.dev))
    rw [ev_readingKept, fatal_count_faultyExcluded] at counts
    have tripped := congrArg Power.tripped pow
    generalize thermalTrip 0 (readingKept die temps stackTemps s.dev (faultyExcluded die temps s.dev)) = e at tripped stopped fatal counts ⊢
    exact ⟨tripped, stopped, fatal, counts⟩

end Sys2Proof.Proofs
end

section
/-!
PROOFS. The management transports beside Tabing (R380, R381, R385, R391, R392): the lease's expiry, the twin sideband, and the
MCTP endpoint with its SPDM responder.
-/
namespace Sys2Proof.Machine

variable {d e : Dev} {b : Bytes} {tr id : Nat}

/-! ## The lease's expiry (R385) -/

theorem leaseExpiry_of_due (hheld : d.mgmt.lease.role ≠ 0) (hdue : d.mgmt.lease.expiry ≤ d.now) :
    leaseExpiry d = raise 4 evLeaseExpired (srcTransport d.mgmt.lease.transport) (endLease d) := if_pos ⟨hheld, hdue⟩

theorem leaseExpiry_of_undue (h : d.mgmt.lease.role = 0 ∨ d.now < d.mgmt.lease.expiry) : leaseExpiry d = d :=
  if_neg fun ⟨hheld, hdue⟩ => h.elim hheld (Nat.not_lt.2 hdue)

/-! ## Blocks of the twin sideband (R381) -/

/-- The fragment control byte and the message bytes of a block. -/
def blockData (b : Bytes) : Bytes := (b.drop 3).take (b.length - 4)

theorem fieldAt_blockData (hlen : 5 ≤ b.length) : fieldAt (blockData b) 0 1 = fieldAt b 3 1 := by
  rw [fieldAt, blockData, List.drop_zero, List.take_take, Nat.min_eq_left (by omega), fieldAt]

theorem drop_blockData (b : Bytes) : (blockData b).drop 1 = (b.drop 4).take (b.length - 5) := by
  rw [blockData, List.drop_take, List.drop_drop]
  rfl

/-- A block for this device from its twin. -/
def BlockMine (b : Bytes) (d : Dev) : Prop := twinCoord d ≠ none ∧ fieldAt b 0 1 = ownAddress d * 2 ∧ fieldAt b 1 1 = 0x54

/-- A block whose PEC and count are right. -/
def BlockSound (b : Bytes) : Prop :=
  5 ≤ b.length ∧ pec (b.take (b.length - 1)) = b.getD (b.length - 1) 0 ∧ fieldAt b 2 1 = b.length - 4

theorem blockMine_iff : BlockMine b d ↔ ¬ ((twinCoord d).isNone = true ∨ fieldAt b 0 1 ≠ ownAddress d * 2 ∨ fieldAt b 1 1 ≠ 0x54) := by
  simp [BlockMine, not_or]

theorem blockSound_iff : BlockSound b ↔
    ¬ (b.length < 5 ∨ pec (b.take (b.length - 1)) ≠ b.getD (b.length - 1) 0 ∨ fieldAt b 2 1 ≠ b.length - 4) := by
  rw [BlockSound, not_or, not_or, Nat.not_lt, not_not, not_not]

theorem receiveBlock_of_foreign (h : ¬ BlockMine b d) : receiveBlock b d = d := if_pos (not_not.1 (h ∘ blockMine_iff.2))

section
variable (hmine : BlockMine b d)
include hmine

theorem receiveBlock_of_unsound (h : ¬ BlockSound b) : receiveBlock b d =
    { d with mgmt.smbus := none, mgmt.smbusCounts := bumpTable d.mgmt.smbusCounts 2 1 } := by
  rw [receiveBlock, if_neg (blockMine_iff.1 hmine), if_pos (not_not.1 (h ∘ blockSound_iff.2))]

variable (hsound : BlockSound b)
include hsound

theorem receiveBlock_of_part (h : takeFragment (blockData b) d = (none, e)) : receiveBlock b d = e := by
  unfold blockData at h
  rw [receiveBlock, if_neg (blockMine_iff.1 hmine), if_neg (blockSound_iff.1 hsound)]
  simp only [h]

theorem receiveBlock_of_message {msg : Bytes} (h : takeFragment (blockData b) d = (some msg, e)) (hkind : fieldAt msg 1 1 ≠ 0x81) :
    receiveBlock b d = takeMessage 4 (0x95 - ownAddress d) false true msg e := by
  unfold blockData at h
  rw [receiveBlock, if_neg (blockMine_iff.1 hmine), if_neg (blockSound_iff.1 hsound)]
  simp only [h, hkind, false_and, if_false]

end

/-! ## Fragments (R381) -/

section
variable (hlen : 5 ≤ b.length)
include hlen

theorem takeFragment_first (hfirst : bitOf (fieldAt b 3 1) 7 = true) (hmore : bitOf (fieldAt b 3 1) 6 = false)
    (hzero : fieldAt b 3 1 % 64 = 0) : takeFragment (blockData b) d =
      (none, { d with mgmt.smbus := some { bytes := (b.drop 4).take (b.length - 5), next := 1, since := d.now } }) := by
  simp only [takeFragment, fieldAt_blockData hlen, drop_blockData, hfirst, hmore, hzero, if_true, Bool.false_eq_true, if_false,
    ne_eq, not_true, List.nil_append]

variable {a : Assembly} (hnext : bitOf (fieldAt b 3 1) 7 = false) (hat : d.mgmt.smbus = some a)
include hnext hat

theorem takeFragment_out_of_order (horder : fieldAt b 3 1 % 64 ≠ a.next) :
    takeFragment (blockData b) d = (none, { d with mgmt.smbus := none }) := by
  simp only [takeFragment, fieldAt_blockData hlen, hnext, hat, Bool.false_eq_true, if_false]
  exact if_pos horder

variable (horder : fieldAt b 3 1 % 64 = a.next)
include horder

theorem takeFragment_middle (hmore : bitOf (fieldAt b 3 1) 6 = false) : takeFragment (blockData b) d = (none, { d with
    mgmt.smbus := some { a with bytes := a.bytes ++ (b.drop 4).take (b.length - 5), next := (a.next + 1) % 64 } }) := by
  simp only [takeFragment, fieldAt_blockData hlen, drop_blockData, hnext, hat, Bool.false_eq_true, if_false, hmore]
  exact if_neg (not_not.2 horder)

theorem takeFragment_last (hlast : bitOf (fieldAt b 3 1) 6 = true) : takeFragment (blockData b) d =
    (some (a.bytes ++ (b.drop 4).take (b.length - 5)), { d with mgmt.smbus := none }) := by
  simp only [takeFragment, fieldAt_blockData hlen, drop_blockData, hnext, hat, Bool.false_eq_true, if_false, hlast, if_true]
  exact if_neg (not_not.2 horder)

end

/-! ## The bus (R381, R391) -/

theorem smbusBlockWrite_of_unstarted (h : d.boot.started = false) (o : Bool) : smbusBlockWrite b o d = d := if_pos h

theorem smbusBlockWrite_alone (h : d.boot.started = true) :
    smbusBlockWrite b false d = receiveBlock b { d with mgmt.smbusIdleAt := d.now } := by
  simp [smbusBlockWrite, h]

/-- Two devices drive at once: the one at 0x4A loses. -/
theorem smbusBlockWrite_at_once (h : d.boot.started = true) (hout : d.mgmt.smbusOut ≠ []) :
    smbusBlockWrite b true d = if ownAddress d = 0x4A then receiveBlock b (arbitrationLoss d) else d := by
  have drives : (d.mgmt.smbusOut.isEmpty) = false := List.isEmpty_eq_false_iff.2 hout
  simp [smbusBlockWrite, h, drives]

theorem fragmentTimeout_of_none (h : d.mgmt.smbus = none) : fragmentTimeout d = d := by simp only [fragmentTimeout, h]

theorem fragmentTimeout_of_some {a : Assembly} (h : d.mgmt.smbus = some a) : fragmentTimeout d =
    if a.since + 35 * tMs ≤ d.now then { d with mgmt.smbus := none, mgmt.smbusCounts := bumpTable d.mgmt.smbusCounts 3 1 }
    else d := by
  simp only [fragmentTimeout, h]

theorem smbusRetry_of_none (h : d.mgmt.smbusLost = none ∨ d.mgmt.smbusOut = []) (l : Bool) : smbusRetry l d = d := by
  unfold smbusRetry
  split
  next hlost hout => rcases h with h | h <;> simp [h] at hlost hout
  next => rfl

section
variable {k : Nat} {m : Bytes} (hlost : d.mgmt.smbusLost = some k) (hout : d.mgmt.smbusOut = [m])
include hlost hout

theorem smbusRetry_of_early (h : d.now < d.mgmt.smbusIdleAt + (50 + k) * tUs) (l : Bool) : smbusRetry l d = d := by
  simp only [smbusRetry, hlost, hout, if_neg (Nat.not_le.2 h)]

theorem smbusRetry_of_due (h : d.mgmt.smbusIdleAt + (50 + k) * tUs ≤ d.now) : smbusRetry false d =
    driveSideband m { d with mgmt.smbusLost := none, mgmt.smbusCounts := bumpTable d.mgmt.smbusCounts 1 1 } := by
  simp only [smbusRetry, hlost, hout, if_pos h, Bool.false_eq_true, if_false, List.foldl_nil]

end

theorem enterAddress_of_new (hstarted : d.boot.started = true) (hnone : d.mgmt.i3cAddress = 0) (a : Nat) :
    enterAddress a d = { d with mgmt.i3cAddress := a % 128 } := if_pos ⟨hstarted, hnone⟩

theorem enterAddress_of_other (h : d.boot.started = false ∨ d.mgmt.i3cAddress ≠ 0) (a : Nat) : enterAddress a d = d :=
  if_neg fun ⟨hstarted, hnone⟩ => h.elim (fun h => Bool.false_ne_true (h.symm.trans hstarted)) (· hnone)

/-! ## MCTP control (R380) -/

theorem onMctp_of_open (h : mctpOpen tr d = true) (f : Dev → Dev) : onMctp tr f d = f d := if_pos h

theorem onMctp_of_closed (h : ¬ mctpOpen tr d = true) (f : Dev → Dev) : onMctp tr f d = d := if_neg h

theorem mctpOpen_iff : mctpOpen tr d = true ↔ d.boot.started = true ∧ (tr = 2 ∨ d.pcie.linkUp = true) := by
  simp [mctpOpen]

section
variable {op eid : Nat}

theorem setEndpointId_of_set (hop : op % 4 ≤ 1) (hlow : 8 ≤ eid) (hhigh : eid ≤ 254) :
    setEndpointId tr id op eid d = controlAnswer tr id 1 0 [0, BitVec.ofNat 8 eid, 0] (setEid tr eid d) := by
  rw [setEndpointId, if_neg (by omega), if_neg (by omega)]
  rfl

theorem setEndpointId_of_refused (h : op % 4 = 2 ∨ op % 4 ≤ 1 ∧ (eid < 8 ∨ 254 < eid)) :
    setEndpointId tr id op eid d = controlAnswer tr id 1 2 [] d := by
  rw [setEndpointId, if_neg (by omega), if_pos (by omega)]

theorem setEndpointId_of_discovery (h : op % 4 = 3) :
    setEndpointId tr id op eid d = controlAnswer tr id 1 0 [0, BitVec.ofNat 8 (eidOf tr d), 0] d := if_pos h

end

theorem getVersionSupport_of_known {t : Nat} (h : t = 0 ∨ t = 5 ∨ t = 6 ∨ t = 0x7E ∨ t = 0xFF) :
    getVersionSupport tr id t d = controlAnswer tr id 4 0
      (leBytes 1 (Config.mctpVersions t).length ++ (Config.mctpVersions t).flatMap fun v => leBytes 4 v.toNat) d := by
  have known : (mctpTypes.contains t || t == 0 || t == 0xFF) = true := by
    rcases h with rfl | rfl | rfl | rfl | rfl <;> rfl
  exact if_pos known

theorem getVersionSupport_of_unknown {t : Nat} (h0 : t ≠ 0) (h5 : t ≠ 5) (h6 : t ≠ 6) (h7E : t ≠ 0x7E) (hFF : t ≠ 0xFF) :
    getVersionSupport tr id t d = controlAnswer tr id 4 0x80 [] d := by
  refine if_neg ?_
  simp [mctpTypes, h0, h5, h6, h7E, hFF]

/-! ## SPDM (R392) -/

section
variable {sec : Bool} {msg : Bytes}

theorem spdmChecked_iff : spdmChecked sec msg = true ↔ sec = true ∨ fieldAt msg 1 1 = 0xE5 ∨ fieldAt msg 1 1 = 0xEB := by
  simp [spdmChecked, or_assoc]

theorem spdmMessage_of_failed (hchecked : spdmChecked sec msg = true) (hfails : Config.spdmAccepts d.freeUsed msg = false) :
    spdmMessage tr sec msg d = spdmFail tr (spdmReply tr sec msg d) := by
  rw [spdmMessage, hchecked, hfails]
  rfl

theorem spdmMessage_of_good (h : ¬ spdmChecked sec msg = true ∨ Config.spdmAccepts d.freeUsed msg = true) :
    spdmMessage tr sec msg d = spdmAdvance msg (spdmReply tr sec msg d) := by
  have good : (!spdmChecked sec msg || Config.spdmAccepts d.freeUsed msg) = true := by
    rcases h with h | h
    · rw [Bool.eq_false_iff.2 h]; rfl
    · rw [h, Bool.or_true]
  exact if_pos good

theorem spdmAdvance_of_finish (h : fieldAt msg 1 1 = 0xE5) : spdmAdvance msg d =
    { d with mgmt.spdmSession := true, mgmt.diagnostic := Config.spdmChainsToDiagnosticRoot d.freeUsed msg } := if_pos h

theorem spdmAdvance_of_end (h : fieldAt msg 1 1 = 0xEC) : spdmAdvance msg d = endSession d := by
  rw [spdmAdvance, if_neg (by omega), if_pos h]

theorem spdmAdvance_of_other (h5 : fieldAt msg 1 1 ≠ 0xE5) (hC : fieldAt msg 1 1 ≠ 0xEC) : spdmAdvance msg d = d := by
  rw [spdmAdvance, if_neg h5, if_neg hC]

theorem getMeasurements_of_failed (hfails : Config.spdmAccepts d.freeUsed msg = false) :
    getMeasurements tr true msg d = spdmFail tr (spdmReply tr true msg d) := by
  refine if_pos ?_
  rw [hfails]
  rfl

/-- Operation 0 asks for the number of blocks alone. -/
theorem getMeasurements_of_number (hver : fieldAt msg 0 1 = 0x12 ∨ fieldAt msg 0 1 = 0x13) (hop : fieldAt msg 3 1 = 0)
    (hunsigned : bitOf (fieldAt msg 2 1) 0 = false) : getMeasurements tr false msg d =
      { d with freeUsed := d.freeUsed + 2, out := d.out ++ [.mctp tr ([5, BitVec.ofNat 8 (fieldAt msg 0 1), 0x60, 5, 0, 0] ++
        leBytes 3 0 ++ leBytes 32 (Config.freeValue d.freeUsed % 2 ^ 256) ++ leBytes 2 0)] } := by
  have known : ¬ ((fieldAt msg 0 1 ≠ 0x12 ∧ fieldAt msg 0 1 ≠ 0x13) ∨ (5 < fieldAt msg 3 1 ∧ fieldAt msg 3 1 ≠ 0xFF)) := by omega
  unfold getMeasurements
  dsimp only
  rw [Bool.false_and, if_neg Bool.false_ne_true, if_neg known, hop, hunsigned]
  simp only [spdmSend, emit, freshValue, measurementRecord, blocksAsked, Bool.false_eq_true, if_false, List.append_assoc, List.append_nil]
  rfl

end

end Sys2Proof.Machine

namespace Sys2Proof.Proofs
open Sys2Proof.Machine

/-- Settles O56: the lease, then the sideband by what a block is, then the MCTP rows by whether their transport is up. -/
theorem managementTransports : Obligations.ManagementTransports := by
  unfold Obligations.ManagementTransports
  rintro s _ rfl
  have answers {c : Instr} {f : Dev → Dev} {d' : Dev} (hc : exec c s = onDev true f s) (h : f s.dev = d') : Answers c s d' :=
    answers_onDev rfl hc h
  refine ⟨fun hheld hdue => answers rfl (leaseExpiry_of_due hheld hdue), fun h => answers rfl (leaseExpiry_of_undue h),
    fun b => ?block, fun h => answers rfl (fragmentTimeout_of_none h),
    fun a h => ⟨fun hlate => answers rfl ((fragmentTimeout_of_some h).trans (if_pos hlate)),
      fun hearly => answers rfl ((fragmentTimeout_of_some h).trans (if_neg (Nat.not_le.2 hearly)))⟩,
    fun h l => answers rfl (smbusRetry_of_none h l),
    fun k m hlost hout => ⟨fun hearly l => answers rfl (smbusRetry_of_early hlost hout hearly l),
      fun hdue => answers rfl (smbusRetry_of_due hlost hout hdue)⟩,
    fun hstarted hnone a => answers rfl (enterAddress_of_new hstarted hnone a),
    fun h a => answers rfl (enterAddress_of_other h a), fun tr id htr => ?mctp⟩
  case block =>
    intro n mine sound ctl body idle
    refine ⟨fun h o => answers rfl (smbusBlockWrite_of_unstarted h o), fun hstarted hmine => ?_, fun hstarted hmine hsound => ?_,
      fun hstarted hmine hsound hfirst hmore hzero => ?_, fun a hstarted hmine hsound hnext hat => ?_, fun hstarted hout => ?_⟩
    · exact answers rfl ((smbusBlockWrite_alone hstarted).trans (receiveBlock_of_foreign (d := idle) hmine))
    · exact answers rfl ((smbusBlockWrite_alone hstarted).trans (receiveBlock_of_unsound (d := idle) hmine hsound))
    · exact answers rfl ((smbusBlockWrite_alone hstarted).trans
        (receiveBlock_of_part (d := idle) hmine hsound (takeFragment_first hsound.1 hfirst hmore hzero)))
    · refine ⟨fun horder => ?_, fun horder hmore => ?_, fun horder hlast hkind => ?_⟩
      · exact answers rfl ((smbusBlockWrite_alone hstarted).trans
          (receiveBlock_of_part (d := idle) hmine hsound (takeFragment_out_of_order hsound.1 hnext hat horder)))
      · exact answers rfl ((smbusBlockWrite_alone hstarted).trans
          (receiveBlock_of_part (d := idle) hmine hsound (takeFragment_middle hsound.1 hnext hat horder hmore)))
      · exact answers rfl ((smbusBlockWrite_alone hstarted).trans
          (receiveBlock_of_message (d := idle) hmine hsound (takeFragment_last hsound.1 hnext hat horder hlast) hkind))
    · refine ⟨fun hwins => answers rfl ((smbusBlockWrite_at_once hstarted hout).trans (if_neg (by rw [hwins]; decide))), fun hloses => ?_⟩
      exact answers rfl ((smbusBlockWrite_at_once hstarted hout).trans (if_pos hloses))
  case mctp =>
    intro up eid reply
    have ok : mctpOk tr = true := by rcases htr with rfl | rfl <;> rfl
    have closed {c : Instr} {f : Dev → Dev} (h : ¬ up) (hc : exec c s = onDev (mctpOk tr) (onMctp tr f) s) : Answers c s s.dev :=
      answers_onDev ok hc (onMctp_of_closed (h ∘ mctpOpen_iff.1) f)
    have opened {c : Instr} {f : Dev → Dev} {d' : Dev} (h : up) (hc : exec c s = onDev (mctpOk tr) (onMctp tr f) s)
        (hf : f s.dev = d') : Answers c s d' := answers_onDev ok hc ((onMctp_of_open (mctpOpen_iff.2 h) f).trans hf)
    refine ⟨fun hdown => ⟨fun op e => closed hdown rfl, closed hdown rfl, closed hdown rfl, fun t => closed hdown rfl,
      closed hdown rfl, fun x => closed hdown rfl, fun x msg => ⟨closed hdown rfl, closed hdown rfl⟩⟩, fun hup => ?_⟩
    refine ⟨fun op e hop hlow hhigh => opened hup rfl (setEndpointId_of_set hop hlow hhigh),
      fun op e h => opened hup rfl (setEndpointId_of_refused h), fun op e h => opened hup rfl (setEndpointId_of_discovery h),
      opened hup rfl rfl, opened hup rfl rfl, fun t h => opened hup rfl (getVersionSupport_of_known h),
      fun t h0 h5 h6 h7E hFF => opened hup rfl (getVersionSupport_of_unknown h0 h5 h6 h7E hFF), opened hup rfl rfl,
      opened hup rfl rfl, fun x hx => opened hup rfl (if_neg hx), fun sec msg => ?_⟩
    intro checked told ended
    have checks : spdmChecked sec msg = true ↔ checked := spdmChecked_iff
    refine ⟨fun hchecked hfails => opened hup rfl (spdmMessage_of_failed (checks.2 hchecked) hfails), fun hgood => ?_, ?_, ?_⟩
    · have good := spdmMessage_of_good (tr := tr) (d := s.dev) (hgood.imp_left (· ∘ checks.1))
      exact ⟨fun h => opened hup rfl (good.trans (spdmAdvance_of_finish h)), fun h => opened hup rfl (good.trans (spdmAdvance_of_end h)),
        fun h5 hC => opened hup rfl (good.trans (spdmAdvance_of_other h5 hC))⟩
    · rintro rfl hfails
      exact opened hup rfl (getMeasurements_of_failed hfails)
    · rintro rfl hver hop hunsigned
      exact opened hup rfl (getMeasurements_of_number hver hop hunsigned)

end Sys2Proof.Proofs
end

section
/-!
PROOFS. The Tabing endpoint (R374 to R402): the idempotency window, the access checks, reads, writes and the lease, and what a
row does with the messages that are its own request.
-/
namespace Sys2Proof.Machine

variable {d e : Dev} {tr addr : Nat} {sec flash : Bool} {role : Role} {m : Msg} {b : Bytes} {r : EntryRow}

/-! ## The idempotency window (R379) -/

/-- The requester's window comes last and is its only one; its newest answer comes last and is the only one of its TID. -/
theorem windows_remember (tr addr tid : Nat) (resp : Bytes) (d : Dev) : ∃ room older,
    (remember tr addr tid resp d).mgmt.windows = room ++ [{
      transport := tr, address := addr, used := d.now, answers := older ++ [{ tid := tid, response := resp, at_ := d.now }] }] ∧
    (∀ w ∈ room, Window.of w tr addr = false) ∧ ∀ a ∈ older, a.tid ≠ tid := by
  have rest : ∀ w ∈ d.mgmt.windows.filter (fun w => !w.of tr addr), w.of tr addr = false := fun w hw => by
    simpa using (List.mem_filter.1 hw).2
  refine ⟨_, _, rfl, fun w hw => ?_, fun a ha => ?_⟩
  · split at hw
    · exact rest w hw
    · split at hw
      · exact rest w (List.mem_filter.1 hw).1
      · exact rest w hw
  · have kept := (List.mem_filter.1 (List.mem_of_mem_drop ha)).2
    rw [Bool.and_eq_true] at kept
    exact bne_iff_ne.1 kept.2

/-- A response is remembered for 10 s. -/
theorem remembered_of_remember {tid : Nat} {resp : Bytes}
    (hwindows : (remember tr addr tid resp d).mgmt.windows = e.mgmt.windows) (hfresh : e.now < d.now + 10000 * tMs) :
    remembered tr addr tid e = some resp := by
  obtain ⟨room, older, windows, others, differ⟩ := windows_remember tr addr tid resp d
  have none_own : room.find? (·.of tr addr) = none := List.find?_eq_none.2 fun w hw => Bool.eq_false_iff.1 (others w hw)
  have none_same : older.find? (fun a => a.tid == tid && answerKept a e) = none :=
    List.find?_eq_none.2 fun a ha => by simp [differ a ha]
  have kept : answerKept { tid := tid, response := resp, at_ := d.now } e = true := decide_eq_true hfresh
  have own (answers : List Answer) :
      Window.of { transport := tr, address := addr, used := d.now, answers := answers } tr addr = true := by
    simp [Window.of]
  rw [remembered, ← hwindows, windows]
  simp [List.find?_append, none_own, own, none_same, kept]

/-! ## Rights (R383) -/

section
variable (role sec m d)

/-- Whether a role knows an index. -/
def IndexKnown : Prop := ((entryRows.filter (·.hasIndex m.idx)).any fun r => hasRight r role) = true

/-- Whether it sees an entry. -/
def EntrySeen : Prop := m.sub = 0 ∨ ((entryOf m.idx m.sub).any fun r => hasRight r role) = true

end

theorem rightAbort_of_unknown (h : ¬ IndexKnown role m) : rightAbort role sec m d = 0x01 := if_pos (Bool.eq_false_iff.2 h)

section
variable (hknown : IndexKnown role m)
include hknown

theorem rightAbort_of_unseen (h : ¬ EntrySeen role m) : rightAbort role sec m d = 0x02 := by
  obtain ⟨hsub, hentry⟩ := not_or.1 h
  have known : ¬ ((entryRows.filter (·.hasIndex m.idx)).any fun r => hasRight r role) = false := fun h => Bool.false_ne_true (h.symm.trans hknown)
  unfold rightAbort
  dsimp only
  rw [if_neg known, if_pos ⟨hsub, Bool.eq_false_iff.2 hentry⟩]

variable (hseen : EntrySeen role m)
include hseen

theorem rightAbort_of_seen : rightAbort role sec m d =
    if bootAbort m d ≠ 0 then bootAbort m d
    else if 0xF000 ≤ m.idx ∧ (sec && d.mgmt.diagnostic) = false then 0x0B
    else if m.sub = 0 then (if m.kind = 2 then 0x04 else 0)
    else
      match entryOf m.idx m.sub with
      | none => 0x02
      | some r => if m.kind = 2 then (if r.prof.canWrite role then 0 else 0x04) else if r.prof.canRead role then 0 else 0x05 := by
  have known : ¬ ((entryRows.filter (·.hasIndex m.idx)).any fun r => hasRight r role) = false := fun h => Bool.false_ne_true (h.symm.trans hknown)
  have seen : ¬ (m.sub ≠ 0 ∧ ((entryOf m.idx m.sub).any fun r => hasRight r role) = false) :=
    fun ⟨hsub, hentry⟩ => hseen.elim hsub fun h => Bool.false_ne_true (hentry.symm.trans h)
  exact (if_neg known).trans (if_neg seen)

theorem rightAbort_of_boot (h : bootAbort m d ≠ 0) : rightAbort role sec m d = bootAbort m d := by
  rw [rightAbort_of_seen hknown hseen, if_pos h]

theorem rightAbort_of_undiagnosed (hboot : bootAbort m d = 0) (hindex : 0xF000 ≤ m.idx) (hsession : (sec && d.mgmt.diagnostic) = false) :
    rightAbort role sec m d = 0x0B := by
  rw [rightAbort_of_seen hknown hseen, if_neg (not_not.2 hboot), if_pos ⟨hindex, hsession⟩]

end

/-! ## Reads (R383, R384, R401) -/

theorem doRead_of_abort (h : rightAbort role sec m d ≠ 0) : doRead role sec m d = (rightAbort role sec m d, [], d) := if_pos h

theorem doRead_of_entry (hright : rightAbort role sec m d = 0) (hsub : m.sub ≠ 0) (hentry : entryOf m.idx m.sub = some r)
    (hread : readAbort r m d = 0) : doRead role sec m d = (0, (readValue m r d).1, (readValue m r d).2) := by
  simp only [doRead, hright, ne_eq, not_true, if_false, hsub, hentry, hread]

theorem readValue_of_window (hidx : m.idx = 0xF000) (hsub : m.sub = 2)
    (hsound : errsIn d.mem.err (dictGet 0xF000 1 d + m.off) m.len = []) :
    readValue m r d = ((physRead (dictGet 0xF000 1 d + m.off) m.len d).1, (physRead (dictGet 0xF000 1 d + m.off) m.len d).2.2) := by
  rw [readValue, if_neg (by omega), if_neg (by omega), if_pos ⟨hidx, hsub⟩, windowRead, hsound]
  rfl

section
variable (hring : m.idx ≠ 0x8000) (hwindow : m.idx ≠ 0xF000)
include hring hwindow

theorem readValue_of_effect (h : bitOf m.flags 0 = false ∨ r.staged = false) : readValue m r d = (entryBytes m.idx m.sub d, d) := by
  have effect : (bitOf m.flags 0 && r.staged) = false := by rcases h with h | h <;> simp [h]
  simp only [readValue, hring, hwindow, false_and, if_false, effect, Bool.false_eq_true]

theorem readValue_of_shadow {v : Nat} (hflag : bitOf m.flags 0 = true) (hstaged : r.staged = true)
    (hshadow : Sparse.get none d.mgmt.shadow (entryKey m.idx m.sub) = some v) : readValue m r d = (leBytes r.len v, d) := by
  simp only [readValue, hring, hwindow, false_and, if_false, hflag, hstaged, Bool.and_self, if_true, hshadow]

end

/-! ## The checks of a write (Table 17.3) -/

/-- The writer holds the lease and names its epoch. -/
def Leased (tr addr : Nat) (m : Msg) (d : Dev) : Prop := holdsLease tr addr d = true ∧ d.mgmt.lease.epoch = m.lease

theorem leaseAbort_eq_zero_iff : leaseAbort tr addr m.lease d = 0 ↔ Leased tr addr m d := by
  rw [leaseAbort, Leased, ← beq_iff_eq (a := d.mgmt.lease.epoch), ← Bool.and_eq_true]
  split <;> simp [*]

theorem writeAbort_of_unleased (h : ¬ Leased tr addr m d) : writeAbort tr addr r m d = 0x07 :=
  if_pos (h ∘ leaseAbort_eq_zero_iff.1)

section
variable (hleased : Leased tr addr m d) (hwhole : r.streamed = false)
include hleased hwhole

theorem writeAbort_of_size (h : m.len ≠ r.len ∨ m.off ≠ 0) : writeAbort tr addr r m d = 0x03 := by
  rw [writeAbort, if_neg (not_not.2 (leaseAbort_eq_zero_iff.2 hleased)), hwhole]
  exact if_pos h

variable (hlen : m.len = r.len) (hoff : m.off = 0)
include hlen hoff

/-- The checks after those of the lease and the size. -/
theorem writeAbort_of_sized : writeAbort tr addr r m d =
    if !valueGood m.idx m.sub (keptValue m.idx m.sub (leNat m.value)) d then 0x06
    else if bitOf m.flags 1 && r.staged then 0x08
    else if r.staged && d.mgmt.frozen then 0x09
    else busyAbort m r (keptValue m.idx m.sub (leNat m.value)) d := by
  have sized : ¬ (if r.streamed then m.len % 4 ≠ 0 else m.len ≠ r.len ∨ m.off ≠ 0) := by simp [hwhole, hlen, hoff]
  unfold writeAbort
  dsimp only
  rw [if_neg (not_not.2 (leaseAbort_eq_zero_iff.2 hleased)), if_neg sized, hwhole]
  rfl

theorem writeAbort_of_value (h : valueGood m.idx m.sub (keptValue m.idx m.sub (leNat m.value)) d = false) :
    writeAbort tr addr r m d = 0x06 := by
  rw [writeAbort_of_sized hleased hwhole hlen hoff, h]
  rfl

variable (hgood : valueGood m.idx m.sub (keptValue m.idx m.sub (leNat m.value)) d = true) (hstaged : r.staged = true)
include hgood hstaged

theorem writeAbort_of_now (h : bitOf m.flags 1 = true) : writeAbort tr addr r m d = 0x08 := by
  rw [writeAbort_of_sized hleased hwhole hlen hoff, hgood, h, hstaged]
  rfl

theorem writeAbort_of_frozen (hlater : bitOf m.flags 1 = false) (h : d.mgmt.frozen = true) : writeAbort tr addr r m d = 0x09 := by
  rw [writeAbort_of_sized hleased hwhole hlen hoff, hgood, hlater, hstaged, h]
  rfl

end

/-! ## Writes (R384, R387, R400 to R402) -/

theorem doWrite_of_right (h : rightAbort (roleOf tr) sec m d ≠ 0) :
    doWrite tr addr sec m d = (rightAbort (roleOf tr) sec m d, [], d) := if_pos h

section
variable (hright : rightAbort (roleOf tr) sec m d = 0) (hentry : entryOf m.idx m.sub = some r)
include hright hentry

theorem doWrite_of_abort (h : writeAbort tr addr r m d ≠ 0) : doWrite tr addr sec m d = (writeAbort tr addr r m d, [], d) := by
  simp only [doWrite, hright, ne_eq, not_true, if_false, hentry]
  exact if_pos h

variable (hno : writeAbort tr addr r m d = 0)
include hno

theorem doWrite_of_staged (h : r.staged = true) : doWrite tr addr sec m d = (0, [], { d with
    mgmt.shadow := Sparse.set none d.mgmt.shadow (entryKey m.idx m.sub) (some (keptValue m.idx m.sub (leNat m.value))) }) := by
  simp only [doWrite, hright, ne_eq, not_true, if_false, hentry, hno, h, if_true]

variable (h : r.staged = false)
include h

theorem doWrite_of_immediate : doWrite tr addr sec m d =
    (0, if m.idx = 0x1400 ∧ m.sub = 1 then leBytes 8 (writeNow m (keptValue m.idx m.sub (leNat m.value)) d).mgmt.commits else [],
      writeNow m (keptValue m.idx m.sub (leNat m.value)) d) := by
  simp only [doWrite, hright, ne_eq, not_true, if_false, hentry, hno, h, Bool.false_eq_true]

/-- Of the immediate entries the commit alone has a value in its response. -/
theorem doWrite_of_effect (hcommit : ¬ (m.idx = 0x1400 ∧ m.sub = 1))
    (heffect : writeNow m (keptValue m.idx m.sub (leNat m.value)) d = e) : doWrite tr addr sec m d = (0, [], e) := by
  rw [doWrite_of_immediate hright hentry hno h, if_neg hcommit, heffect]

theorem doWrite_of_commit (hidx : m.idx = 0x1400) (hsub : m.sub = 1) : doWrite tr addr sec m d =
    (0, leBytes 8 (startCommit (leNat m.value) d).mgmt.commits, startCommit (leNat m.value) d) := by
  have effect : writeNow m (keptValue m.idx m.sub (leNat m.value)) d = startCommit (leNat m.value) d := by
    rw [writeNow, if_neg (by omega), if_neg (by omega), if_pos hidx, if_pos hsub]
  rw [doWrite_of_immediate hright hentry hno h, if_pos ⟨hidx, hsub⟩, effect]

end

/-! ### What an immediate entry does -/

section
variable {v : Nat}

theorem writeNow_of_image (hidx : m.idx = 0x1010) (hsub : m.sub = 1) : writeNow m v d = imageData m.off m.value d := by
  rw [writeNow, if_pos hidx, if_pos hsub]

theorem writeNow_of_update (hidx : m.idx = 0x1010) (hsub : m.sub = 2) : writeNow m v d = updateControl v d := by
  rw [writeNow, if_pos hidx, if_neg (by omega)]

theorem writeNow_of_boot (hidx : m.idx = 0x1100) : writeNow m v d = d := by
  rw [writeNow, if_neg (by omega), if_pos hidx]

theorem writeNow_of_discard (hidx : m.idx = 0x1400) (hsub : m.sub = 4) : writeNow m v d = discardShadow d := by
  rw [writeNow, if_neg (by omega), if_neg (by omega), if_pos hidx, if_neg (by omega)]

theorem writeNow_of_port {p : Nat} (hp : p < 9) (hidx : m.idx = 0x4000 + p) : writeNow m v d = trainNow p d := by
  rw [writeNow, if_neg (by omega), if_neg (by omega), if_neg (by omega), if_pos (by omega), hidx, Nat.add_sub_cancel_left]

theorem writeNow_of_tenant {t : Nat} (ht : t < 1024) (hidx : m.idx = 0x5000 + t) : writeNow m v d = tenantAction t m.sub v d := by
  rw [writeNow, if_neg (by omega), if_neg (by omega), if_neg (by omega), if_neg (by omega), if_pos (by omega), hidx,
    Nat.add_sub_cancel_left]

theorem writeNow_of_ring (hidx : m.idx = 0x8000) : writeNow m v d = clearRing d := by
  rw [writeNow, if_neg (by omega), if_neg (by omega), if_neg (by omega), if_neg (by omega), if_neg (by omega), if_pos hidx]

theorem writeNow_of_window (hidx : m.idx = 0xF000) (hsub : m.sub = 2) :
    writeNow m v d = windowWrite (dictGet 0xF000 1 d + m.off) m.value d := by
  rw [writeNow, if_neg (by omega), if_neg (by omega), if_neg (by omega), if_neg (by omega), if_neg (by omega), if_neg (by omega),
    if_pos ⟨hidx, hsub⟩]

theorem writeNow_of_injection (hidx : m.idx = 0xF001) : writeNow m v d = armError v d := by
  rw [writeNow, if_neg (by omega), if_neg (by omega), if_neg (by omega), if_neg (by omega), if_neg (by omega), if_neg (by omega),
    if_neg (by omega), if_pos hidx]

theorem bitsOf_low (v n : Nat) : bitsOf v 0 n = v % 2 ^ n := by rw [bitsOf, Nat.pow_zero, Nat.div_one]

theorem tenantAction_halt (t : Nat) :
    tenantAction t 5 v d = sendStretch t { target := v % 2 ^ 48, source := 4, logf := 0, fin := false } d := by
  rw [tenantAction, if_pos rfl, bitsOf_low]

theorem tenantAction_stretch (t : Nat) : tenantAction t 6 v d = sendStretch t
    { target := v % 2 ^ 48, source := 3, logf := v / 2 ^ 64 % 256, fin := v / 2 ^ 72 % 256 == 1 } d := by
  rw [tenantAction, if_neg (by decide), if_pos rfl, bitsOf_low]
  rfl

theorem armError_of_memory (hmemory : bitsOf v 0 4 = 1) (hexists : physExists (dictGet 0xF000 1 d) = true) :
    armError v d = setErr (dictGet 0xF000 1 d / 8) (if bitOf v 4 then 2 else 1) d := by
  rw [armError, if_pos hmemory]
  exact if_pos hexists

end

/-! ## The lease (R385) -/

theorem holdsLease_iff : holdsLease tr addr d = true ↔
    d.mgmt.lease.role ≠ 0 ∧ d.mgmt.lease.transport = tr ∧ d.mgmt.lease.address = addr := by
  simp [holdsLease, and_assoc]

section
variable (hlen : m.value.length = 8)
include hlen

theorem doLease_acquire (h : fieldAt m.value 0 1 = 1) : doLease tr addr m d =
    if d.mgmt.lease.role = 0 then (0, leaseAnswer (grantLease tr addr d), grantLease tr addr d)
    else if holdsLease tr addr d then (0, leaseAnswer (renewLease d), renewLease d) else (0x07, [], d) := by
  rw [doLease, if_neg (not_not.2 hlen), if_pos h]

theorem doLease_renew (h : fieldAt m.value 0 1 = 2) : doLease tr addr m d =
    if holdsLease tr addr d && d.mgmt.lease.epoch == fieldAt m.value 4 4 then (0, leaseAnswer (renewLease d), renewLease d)
    else (0x07, [], d) := by
  rw [doLease, if_neg (not_not.2 hlen), if_neg (by omega), if_pos h]

theorem doLease_release (h : fieldAt m.value 0 1 = 3) : doLease tr addr m d =
    if holdsLease tr addr d && d.mgmt.lease.epoch == fieldAt m.value 4 4 then (0, leaseAnswer (endLease d), endLease d)
    else (0x07, [], d) := by
  rw [doLease, if_neg (not_not.2 hlen), if_neg (by omega), if_neg (by omega), if_pos h]

theorem doLease_force (h : fieldAt m.value 0 1 = 4) : doLease tr addr m d =
    if mayForce tr d then (0, leaseAnswer (forceLease tr addr d), forceLease tr addr d) else (0x07, [], d) := by
  rw [doLease, if_neg (not_not.2 hlen), if_neg (by omega), if_neg (by omega), if_neg (by omega), if_pos h]

theorem doLease_other (h : fieldAt m.value 0 1 = 0 ∨ 4 < fieldAt m.value 0 1) : doLease tr addr m d = (0x06, [], d) := by
  rw [doLease, if_neg (not_not.2 hlen), if_neg (by omega), if_neg (by omega), if_neg (by omega), if_neg (by omega)]

end

theorem endLease_keeps (d : Dev) : (endLease d).mgmt.lease = { d.mgmt.lease with role := 0 } ∧ (endLease d).now = d.now := by
  unfold endLease discardShadow
  split <;> exact ⟨rfl, rfl⟩

/-- A forced lease is a new grant, whoever held it. -/
theorem lease_forceLease (h : ¬ holdsLease tr addr d = true) : (forceLease tr addr d).mgmt.lease =
    { role := roleCode (roleOf tr), transport := tr, address := addr, epoch := (d.mgmt.lease.epoch + 1) % 2 ^ 32
      expiry := d.now + leaseTime } := by
  have raised := raise_eq evLeaseForced (srcTransport tr) (bumpMgmt 7 d) 0 (cls := 4) (by decide)
  unfold forceLease
  dsimp only
  rw [if_neg h]
  split
  · rw [raised]
    rfl
  · obtain ⟨lease, now⟩ := endLease_keeps (raise 4 evLeaseForced (srcTransport tr) (bumpMgmt 7 d))
    rw [grantLease, lease, now, raised]
    rfl

/-! ## What a row takes (R374, R376, R377) -/

theorem messageRow_of_other {q : MsgKind} (h : transportOpen tr d = false ∨ requestOf (parseMsg b) ≠ q) :
    messageRow q tr addr sec flash b d = d := by
  rcases h with h | h <;> simp [messageRow, h]

theorem messageRow_of_own {q : MsgKind} (hopen : transportOpen tr d = true) (h : requestOf (parseMsg b) = q) :
    messageRow q tr addr sec flash b d = takeMessage tr addr sec flash b d := by
  simp [messageRow, hopen, h]

theorem writeRequest_ne_ack (m : Msg) : writeRequest m ≠ .ack := by
  unfold writeRequest
  dsimp only
  repeat' split
  all_goals decide

/-- An acknowledgement is told by its KIND. -/
theorem requestOf_eq_ack_iff (m : Msg) : requestOf m = .ack ↔ m.kind = 0x85 := by
  unfold requestOf
  split
  next h => exact iff_of_false (writeRequest_ne_ack m) (by omega)
  next =>
    split
    next h =>
      refine iff_of_false ?_ (by omega)
      split <;> exact nofun
    next =>
      split
      next h => exact iff_of_true rfl h
      next h =>
        refine iff_of_false ?_ h
        split <;> exact nofun

theorem takeMessage_of_malformed (h : wellFormedMsg tr b = false) (hbox : tr ≠ 0) : takeMessage tr addr sec flash b d = bumpMgmt 1 d := by
  rw [takeMessage, if_neg (Bool.eq_false_iff.1 h)]
  exact if_neg hbox

section
variable (hgood : wellFormedMsg tr b = true)
include hgood

theorem takeMessage_of_ack (hkind : (parseMsg b).kind = 0x85) (hbox : tr ≠ 0) (hholds : holdsLease tr addr d = true) :
    takeMessage tr addr sec flash b d = { (bumpMgmt 0 d) with
      mgmt.notices := (bumpMgmt 0 d).mgmt.notices.filter fun n => n.seq % 65536 != (trimMsg (parseMsg b)).tid } := by
  have holds : holdsLease tr addr (bumpMgmt 0 d) = true := hholds
  have kind : (trimMsg (parseMsg b)).kind = 0x85 := hkind
  rw [takeMessage, if_pos hgood]
  dsimp only
  rw [if_pos kind, notifyAck, if_neg hbox]
  exact if_pos holds

variable (hkind : (parseMsg b).kind ≠ 0x85)
include hkind

theorem takeMessage_of_repeat {resp : Bytes} (h : remembered tr addr (trimMsg (parseMsg b)).tid (bumpMgmt 0 d) = some resp) :
    takeMessage tr addr sec flash b d = sendMessage tr addr resp (touchWindow tr addr (bumpMgmt 2 (bumpMgmt 0 d))) := by
  have kind : ¬ (trimMsg (parseMsg b)).kind = 0x85 := hkind
  rw [takeMessage, if_pos hgood]
  dsimp only
  rw [if_neg kind, h]

theorem takeMessage_of_first (h : remembered tr addr (trimMsg (parseMsg b)).tid (bumpMgmt 0 d) = none) :
    takeMessage tr addr sec flash b d = answerRequest tr addr sec flash (trimMsg (parseMsg b)) (bumpMgmt 0 d) := by
  have kind : ¬ (trimMsg (parseMsg b)).kind = 0x85 := hkind
  rw [takeMessage, if_pos hgood]
  dsimp only
  rw [if_neg kind, h]

end

/-- What a request comes to: its abort code, the value of its response, and what it leaves. -/
def requestOutcome (tr addr : Nat) (sec : Bool) (m : Msg) (d : Dev) : Nat × Bytes × Dev :=
  if m.kind = 1 then doRead (roleOf tr) sec m d else if m.kind = 2 then doWrite tr addr sec m d else doLease tr addr m d

/-- A request has been executed, its response remembered and sent. -/
def requestAnswered (tr addr : Nat) (sec : Bool) (m : Msg) (d : Dev) : Dev :=
  let r := requestOutcome tr addr sec m d
  let p := tabingResponse m r.1 r.2.1 (if r.1 = 0 then r.2.2 else bumpMgmt 3 r.2.2)
  sendMessage tr addr p.1 (remember tr addr m.tid p.1 p.2)

theorem answerRequest_eq : answerRequest tr addr sec flash m d =
    afterResponse m (requestOutcome tr addr sec m d).1 flash (requestAnswered tr addr sec m d) := rfl

theorem afterResponse_of_plain {code : Nat} (h : m.idx ≠ 0x1100 ∨ m.kind ≠ 2 ∨ code ≠ 0) : afterResponse m code flash d = d :=
  if_neg fun ⟨hkind, hidx, hcode⟩ => h.elim (· hidx) (Or.elim · (· hkind) (· hcode))

theorem afterResponse_of_boot {code : Nat} (hidx : m.idx = 0x1100) (hkind : m.kind = 2) (hcode : code = 0) :
    afterResponse m code flash d = bootControl (leNat m.value) flash d := if_pos ⟨hkind, hidx, hcode⟩

end Sys2Proof.Machine

namespace Sys2Proof.Proofs
open Sys2Proof.Machine

/-- Settles O55: the window, the checks of Table 17.3 in their order, the effects of reads, writes and lease requests, and
what a row does with a message of its own. -/
theorem tabingMessages : Obligations.TabingMessages := by
  unfold Obligations.TabingMessages
  refine ⟨fun tr addr tid resp d e hwindows hfresh => remembered_of_remember hwindows hfresh, fun role sec m d => ?rights,
    fun role sec m d => ?reads, fun tr addr sec m d => ?writes, fun tr addr m d hlen => ?lease, ?rows⟩
  case rights =>
    intro rows known seen
    exact ⟨rightAbort_of_unknown, rightAbort_of_unseen, rightAbort_of_boot, rightAbort_of_undiagnosed⟩
  case reads =>
    refine ⟨doRead_of_abort, fun r hright hsub hentry hread hring => ?_⟩
    have read := doRead_of_entry hright hsub hentry hread
    exact ⟨fun hidx hsub hsound => read.trans (by rw [readValue_of_window hidx hsub hsound]),
      fun hwindow heffect => read.trans (by rw [readValue_of_effect hring hwindow heffect]),
      fun v hwindow hflag hstaged hshadow => read.trans (by rw [readValue_of_shadow hring hwindow hflag hstaged hshadow])⟩
  case writes =>
    intro v right
    refine ⟨doWrite_of_right, fun r hright hentry => ?_⟩
    intro leased
    refine ⟨doWrite_of_abort hright hentry, writeAbort_of_unleased, writeAbort_of_size, writeAbort_of_value,
      fun hleased hwhole hlen hoff hgood hstaged => ⟨writeAbort_of_now hleased hwhole hlen hoff hgood hstaged,
        writeAbort_of_frozen hleased hwhole hlen hoff hgood hstaged⟩, doWrite_of_staged hright hentry, fun hno hnow => ?_⟩
    have effect {e : Dev} (hcommit : ¬ (m.idx = 0x1400 ∧ m.sub = 1)) (h : writeNow m v d = e) : doWrite tr addr sec m d = (0, [], e) :=
      doWrite_of_effect hright hentry hno hnow hcommit h
    refine ⟨fun hidx hsub => effect (by omega) (writeNow_of_image hidx hsub), fun hidx hsub hv => ?_, fun hidx hsub hv => ?_,
      fun hidx hsub hv => ?_, fun hidx => effect (by omega) (writeNow_of_boot hidx),
      doWrite_of_commit hright hentry hno hnow, fun hidx hsub => effect (by omega) (writeNow_of_discard hidx hsub),
      fun p hp hidx => effect (by omega) (writeNow_of_port hp hidx), fun t ht hidx => ?_,
      fun hidx hsub => effect (by omega) (writeNow_of_ring hidx), fun hidx hsub => effect (by omega) (writeNow_of_window hidx hsub),
      fun hidx hmemory hexists => effect (by omega) ((writeNow_of_injection hidx).trans (armError_of_memory hmemory hexists))⟩
    · exact effect (by omega) ((writeNow_of_update hidx hsub).trans (if_pos hv))
    · exact effect (by omega) ((writeNow_of_update hidx hsub).trans ((if_neg (by omega)).trans (if_pos hv)))
    · exact effect (by omega) ((writeNow_of_update hidx hsub).trans ((if_neg (by omega)).trans (if_neg (by omega))))
    · have act := writeNow_of_tenant (v := v) (d := d) ht hidx
      refine ⟨fun hsub => effect (by omega) (act.trans ?_), fun hsub => effect (by omega) (act.trans ?_),
        fun hsub => effect (by omega) (act.trans ?_)⟩
      · rw [hsub, tenantAction_halt]
      · rw [hsub, tenantAction_stretch]
      · rw [hsub]
        rfl
  case lease =>
    intro op l mine good expiry
    have holds : holdsLease tr addr d = true ↔ mine := holdsLease_iff
    have names : (holdsLease tr addr d && d.mgmt.lease.epoch == fieldAt m.value 4 4) = true ↔ good := by
      rw [Bool.and_eq_true, holds, beq_iff_eq]
    refine ⟨fun hop hfree => ?_, ?_, ?_, fun hop hgood => ?_, fun hop hmay hother => ?_, doLease_other hlen⟩
    · rw [doLease_acquire hlen hop, if_pos hfree]
      rfl
    · rintro (⟨hop, hmine⟩ | ⟨hop, hgood⟩)
      · rw [doLease_acquire hlen hop, if_neg hmine.1, if_pos (holds.2 hmine)]
        rfl
      · rw [doLease_renew hlen hop, if_pos (names.2 hgood)]
        rfl
    · rintro (⟨hop, hheld, hother⟩ | ⟨hop | hop, hbad⟩ | ⟨hop, hmay⟩)
      · rw [doLease_acquire hlen hop, if_neg hheld, if_neg (hother ∘ holds.1)]
      · rw [doLease_renew hlen hop, if_neg (hbad ∘ names.1)]
      · rw [doLease_release hlen hop, if_neg (hbad ∘ names.1)]
      · rw [doLease_force hlen hop, if_neg (Bool.eq_false_iff.1 hmay)]
    · rw [doLease_release hlen hop, if_pos (names.2 hgood)]
    · intro g
      have forced : g = (forceLease tr addr d).mgmt.lease := by
        rw [show g = (doLease tr addr m d).2.2.mgmt.lease from rfl, doLease_force hlen hop, if_pos hmay]
      rw [forced, lease_forceLease (hother ∘ holds.1)]
      exact ⟨rfl, rfl, rfl, rfl, rfl⟩
  case rows =>
    rintro s _ tr addr sec flash b rfl htr
    intro m row e served outcome p answered
    have execs {q : MsgKind} {c : Instr} (h : row q c) : exec c s = onDev (trOk tr) (messageRow q tr addr sec flash b) s := by
      rcases h with ⟨rfl, rfl⟩ | ⟨rfl, h⟩
      · rfl
      · simp only [Prod.mk.injEq] at h
        rcases h with ⟨rfl, rfl⟩ | ⟨rfl, rfl⟩ | ⟨rfl, rfl⟩ | ⟨rfl, rfl⟩ | ⟨rfl, rfl⟩ | ⟨rfl, rfl⟩ | ⟨rfl, rfl⟩ | ⟨rfl, rfl⟩ |
          ⟨rfl, rfl⟩ | ⟨rfl, rfl⟩ | ⟨rfl, rfl⟩ | ⟨rfl, rfl⟩ | ⟨rfl, rfl⟩ | ⟨rfl, rfl⟩ | ⟨rfl, rfl⟩ | ⟨rfl, rfl⟩ | ⟨rfl, rfl⟩ |
          ⟨rfl, rfl⟩ | ⟨rfl, rfl⟩ | ⟨rfl, rfl⟩ | ⟨rfl, rfl⟩ | ⟨rfl, rfl⟩ | ⟨rfl, rfl⟩ | ⟨rfl, rfl⟩ | ⟨rfl, rfl⟩ <;> rfl
    have answers {q : MsgKind} {c : Instr} {d' : Dev} (hrow : row q c) (h : messageRow q tr addr sec flash b s.dev = d') :
        Answers c s d' := answers_onDev (decide_eq_true htr) (execs hrow) h
    refine ⟨fun q c hrow h => answers hrow (messageRow_of_other h), fun q c hrow hown hopen hbad hbox =>
      answers hrow ((messageRow_of_own hopen hown).trans (takeMessage_of_malformed hbad hbox)), ?_⟩
    rintro q c hrow hown ⟨hopen, hgood⟩
    have taken : messageRow q tr addr sec flash b s.dev = takeMessage tr addr sec flash b s.dev := messageRow_of_own hopen hown
    have kind (hq : q ≠ .ack) : (parseMsg b).kind ≠ 0x85 := fun h => hq (hown.symm.trans ((requestOf_eq_ack_iff _).2 h))
    refine ⟨fun hq hbox hholds => ?_, fun resp hq hresp => answers hrow (taken.trans (takeMessage_of_repeat hgood (kind hq) hresp)),
      fun hq hfirst => ?_⟩
    · have ack := (requestOf_eq_ack_iff _).1 (hown.trans hq)
      exact answers hrow (taken.trans (takeMessage_of_ack hgood ack hbox hholds))
    · have first : messageRow q tr addr sec flash b s.dev = afterResponse m outcome.1 flash answered :=
        (taken.trans (takeMessage_of_first hgood (kind hq) hfirst)).trans answerRequest_eq
      exact ⟨fun hplain => answers hrow (first.trans (afterResponse_of_plain hplain)),
        fun hidx hkind hcode => answers hrow (first.trans (afterResponse_of_boot hidx hkind hcode))⟩

end Sys2Proof.Proofs
end

section
/-!
PROOFS. The windows of tiles (R344, R345): how a windowed segment begins, and what a cut leaves of it.
-/
namespace Sys2Proof.Machine

variable {d e : Dev} {t u : Nat} {g : Segment}

/-- A command on a tile that finds nothing to do. -/
theorem answers_onTile_idle {f : Dev → Dev} {s : State} {c : Instr} (ht : t < 128) (hc : exec c s = onTile t f s)
    (h : f (tagWork (segFrames t s.dev) s.dev) = tagWork (segFrames t s.dev) s.dev) : Answers c s (untagged s.dev) :=
  answers_onTile ht hc ((congrArg (tagWork []) h).trans rfl)

/-! ## The beginning of a window -/

/-- Whether the window of a segment's tenant is open. -/
def segmentOpen (d : Dev) (g : Segment) : Bool :=
  decide (windowAt (windowOf g.tenant d).1 d ≤ d.now) && decide (d.now < windowAt (windowOf g.tenant d).2 d)

theorem windowStart_of_closed (h : ∀ g ∈ (getTile t d).windowSegs, segmentOpen d g = false) : windowStart t d = d := by
  have closed : (getTile t d).windowSegs.find? (segmentOpen d) = none :=
    List.find?_eq_none.2 fun g hg => Bool.eq_false_iff.1 (h g hg)
  unfold segmentOpen at closed
  simp only [windowStart, closed]

/-- A segment leaves those that wait for their windows. -/
def windowTaken (t : Nat) (g : Segment) (d : Dev) : Dev := modTile t (fun x => { x with windowSegs := x.windowSegs.filter (· != g) }) d

theorem getTile_windowTaken (t : Nat) (g : Segment) (d : Dev) : getTile t (windowTaken t g d) =
    { getTile t d with windowSegs := (getTile t d).windowSegs.filter (· != g) } := getTile_modTile_same t _ d

theorem windowStart_of_open (h : (getTile t d).windowSegs.find? (segmentOpen d) = some g) : windowStart t d =
    beginSegment t g (windowTaken t g d) := by
  unfold segmentOpen at h
  simp only [windowStart, h, windowTaken]

/-- A tile whose context is free and whose owner is the segment's tenant begins it at once. -/
theorem beginSegment_of_free (hctx : g.ctx = 0) (hrun : (getTile t d).runCtx = 0) (hseg : (getTile t d).seg = none)
    (hswitch : (getTile t d).switchTo = none) (howner : (getTile t d).owner = g.tenant) (hcapture : captureHolds t d = false) :
    beginSegment t g d = startSegment t g d := by
  have free : ¬ ((ctxOf (getTile t d) g.ctx).seg.isSome = true ∨ (getTile t d).switchTo.isSome = true) := by
    simp [ctxOf, hctx, hrun, hseg, hswitch]
  have unheld : ¬ ((decide (g.ctx = 0) && captureHolds t d) = true) := by simp [hcapture]
  unfold beginSegment
  dsimp only
  rw [if_neg free, if_neg unheld, if_pos howner]

theorem tracing_of_unobserved (hseg : (getTile t d).seg = some g) (h : obsEnabled g.tenant 2 d = false) : tracing t d = false := by
  simp only [tracing, hseg, h, Bool.and_false]

/-- A tile with a segment at its entry, nothing held. -/
def startedTile (g : Segment) (at_ : Nat) (x : Tile) : Tile :=
  { x with stopped := false, seg := some { g with startedAt := at_ }, pc := g.entry, wait := .free }

/-- A segment of the tile's owner starts in context 0, and what it did before is dropped from the activity counts. -/
theorem startSegment_of_untraced (hctx : g.ctx = 0) (hrun : (getTile t d).runCtx = 0) (howner : (getTile t d).owner = g.tenant)
    (htrace : obsEnabled g.tenant 2 d = false) :
    startSegment t g d = clearActivity t 0 (setTile t (startedTile g (ccNow d) (getTile t d)) d) := by
  have tile : withCtx { getTile t d with owner := g.tenant, stopped := false } g.ctx
      { ctxOf (getTile t d) g.ctx with seg := some { g with startedAt := ccNow d }, pc := g.entry, wait := .free } =
      startedTile g (ccNow d) (getTile t d) := by
    simp [withCtx, ctxOf, startedTile, hctx, hrun, howner]
  have untraced : tracing t (clearActivity t 0 (setTile t (startedTile g (ccNow d) (getTile t d)) d)) = false :=
    tracing_of_unobserved (g := { g with startedAt := ccNow d }) (congrArg Tile.seg (getTile_setTile_same t _ d)) htrace
  unfold startSegment modTile
  dsimp only
  rw [tile, hctx]
  simp only [traceSeg, untraced, Bool.false_eq_true, if_false, ite_self]

theorem getTile_clearActivity (v c : Nat) (d : Dev) : getTile v (clearActivity t c d) = getTile v d := rfl
theorem mem_clearActivity (c : Nat) (d : Dev) : (clearActivity t c d).mem = d.mem := rfl
theorem mem_setTile (x : Tile) (d : Dev) : (setTile t x d).mem = d.mem := rfl
theorem mem_windowTaken (g : Segment) (d : Dev) : (windowTaken t g d).mem = d.mem := rfl

/-- The first segment whose window is open begins on a free tile of its tenant: that tile alone changes, and no memory. -/
theorem windowStart_effect (hfirst : (getTile t d).windowSegs.find? (segmentOpen d) = some g) (hctx : g.ctx = 0)
    (hrun : (getTile t d).runCtx = 0) (hseg : (getTile t d).seg = none) (hswitch : (getTile t d).switchTo = none)
    (howner : (getTile t d).owner = g.tenant) (hcapture : captureHolds t d = false) (htrace : obsEnabled g.tenant 2 d = false) :
    getTile t (windowStart t d) =
      startedTile g (ccNow d) { getTile t d with windowSegs := (getTile t d).windowSegs.filter (· != g) } ∧
    (∀ v, v ≠ t → getTile v (windowStart t d) = getTile v d) ∧ (windowStart t d).mem = d.mem := by
  have tile := getTile_windowTaken t g d
  have run : (getTile t (windowTaken t g d)).runCtx = 0 := (congrArg Tile.runCtx tile).trans hrun
  have owner : (getTile t (windowTaken t g d)).owner = g.tenant := (congrArg Tile.owner tile).trans howner
  rw [windowStart_of_open hfirst, beginSegment_of_free (d := windowTaken t g d) hctx run ((congrArg Tile.seg tile).trans hseg)
    ((congrArg Tile.switchTo tile).trans hswitch) owner hcapture, startSegment_of_untraced hctx run owner htrace]
  refine ⟨?_, fun v hv => ?_, by rw [mem_clearActivity, mem_setTile, mem_windowTaken]⟩
  · rw [getTile_clearActivity, getTile_setTile_same, tile]
    rfl
  · rw [getTile_clearActivity, getTile_setTile, if_neg hv, windowTaken, getTile_modTile, if_neg hv]

/-! ## A cut (R345) -/

theorem windowEnd_of_none (h : windowTenant t d = none) : windowEnd t false d = d := by simp only [windowEnd, h]

theorem windowEnd_of_early (h : windowTenant t d = some u) (hearly : d.now < windowAt (windowOf u d).2 d) : windowEnd t false d = d := by
  simp only [windowEnd, h, Bool.false_eq_true, false_or, if_neg (Nat.not_le.2 hearly)]

theorem windowEnd_of_unfinished (h : windowTenant t d = some u) (hlate : windowAt (windowOf u d).2 d ≤ d.now)
    (hseg : (getTile t d).seg = some g) (hended : g.ended = false) : windowEnd t false d = cutSegment t u d := by
  simp only [windowEnd, h, Bool.false_eq_true, false_or, if_pos hlate, hseg, hended, false_and, and_false, if_false]

/-! ### What a cut leaves alone -/

/-- What the steps of a cut on tile `t` leave: the runs, the count of class 0x2, the other tiles, and the tile's segment. -/
def uncut (t : Nat) (d : Dev) : Table Run × Nat × (Nat → Tile) × Option Segment :=
  (d.runs, Sparse.get 0 d.ev.counts 2, fun v => if v = t then {} else getTile v d, (getTile t d).seg)

theorem uncut_modTile {f : Tile → Tile} (hf : ∀ x, (f x).seg = x.seg) (d : Dev) : uncut t (modTile t f d) = uncut t d := by
  have others : (fun v => if v = t then ({} : Tile) else getTile v (modTile t f d)) = fun v => if v = t then {} else getTile v d := by
    funext v
    split
    next => rfl
    next hv => rw [getTile_modTile, if_neg hv]
  unfold uncut
  rw [others, getTile_modTile_same, hf]
  rfl

theorem uncut_setQueue (e : Nat) (l : List QWord) (d : Dev) : uncut t (setQueue t e l d) = uncut t d := by
  unfold setQueue
  exact uncut_modTile (by intro x; rfl) d

theorem uncut_setExec (e : Nat) (l : List QWord) (d : Dev) : uncut t (setExec t e l d) = uncut t d := by
  unfold setExec
  exact uncut_modTile (by intro x; rfl) d

/-- An event of another class below 3. -/
theorem uncut_raise {cls : Nat} (num src detail : Nat) (d : Dev) (h2 : 2 ≠ cls) (h3 : cls ≠ 3) :
    uncut t (raise cls num src d detail) = uncut t d := by
  have counts := raise_counts_other num src d detail h2
  rw [uncut, counts, raise_eq num src d detail h3]
  rfl

theorem uncut_countCorrected (a : Nat) (d : Dev) : uncut t (countCorrected a d) = uncut t d := by
  unfold countCorrected
  split
  · exact uncut_raise _ _ _ _ (by decide) (by decide)
  · exact uncut_raise _ _ _ _ (by decide) (by decide)

theorem uncut_writeMeets (a n : Nat) (d : Dev) (p : Nat × Nat) : uncut t (writeMeets a n d p) = uncut t d := by
  unfold writeMeets
  split
  · rfl
  · split
    · exact uncut_countCorrected _ _
    · rfl

theorem uncut_physWrite (a : Nat) (bs : Bytes) (d : Dev) : uncut t (physWrite a bs d).2 = uncut t d := by
  rw [physWrite_eq]
  exact foldl_leaves (uncut t) (uncut_writeMeets a bs.length) _ d

theorem uncut_stageRecord (tenant ring : Nat) (bs : Bytes) (d : Dev) : uncut t (stageRecord t tenant ring bs d) = uncut t d := by
  unfold stageRecord
  split
  · exact foldl_leaves (uncut t) (fun d (p : Nat × Bytes) => uncut_physWrite p.1 p.2 d) _ d
  · rfl

theorem uncut_flushPacket (d : Dev) : uncut t (flushPacket t d) = uncut t d := by
  unfold flushPacket
  dsimp only
  split
  · rfl
  · split
    · rfl
    · exact uncut_stageRecord ..

theorem uncut_putToken (token : Nat) (d : Dev) : uncut t (putToken t token d) = uncut t d := by
  unfold putToken
  dsimp only
  split
  · exact uncut_flushPacket _
  · rfl

theorem uncut_pushToken (token : Nat) (d : Dev) : uncut t (pushToken t token d) = uncut t d := by
  unfold pushToken
  dsimp only
  split
  · rfl
  · split
    · exact (uncut_putToken ..).trans (uncut_putToken ..)
    · exact uncut_putToken ..

theorem uncut_flushBranches (d : Dev) : uncut t (flushBranches t d) = uncut t d := by
  unfold flushBranches
  dsimp only
  split
  · rfl
  · exact uncut_pushToken ..

theorem uncut_traceCut (d : Dev) : uncut t (traceCut t d) = uncut t d :=
  (uncut_flushPacket _).trans (uncut_flushBranches _)

theorem uncut_dropWaiting (d : Dev) : uncut t (dropWaiting t u d) = uncut t d := by
  unfold dropWaiting
  dsimp only
  exact uncut_modTile (by intro x; rfl) d

/-! ### What a cut abandons -/

/-- The reel words of a list complete with `status`. -/
def endReelWords (status : Nat) (l : List QWord) (d : Dev) : Dev :=
  l.foldl (fun d q => match q.reel with | some (r, s) => setDescStatus r s status 0 d | none => d) d

theorem endReelWords_tiles (status : Nat) (l : List QWord) (d : Dev) : (endReelWords status l d).tiles = d.tiles :=
  foldl_leaves Dev.tiles (fun d q => by split <;> rfl) l d

theorem uncut_endReelWords (status : Nat) (l : List QWord) (d : Dev) : uncut t (endReelWords status l d) = uncut t d :=
  foldl_leaves (uncut t) (fun d q => by split <;> rfl) l d

section
variable (gone : QWord → Bool)

/-- No word of those abandoned waits for an engine, or executes there. -/
def NoneQueued (t : Nat) (d : Dev) (e : Nat) : Prop := ∀ q ∈ queueOf t e d, gone q = false
def NoneExecutes (t : Nat) (d : Dev) (e : Nat) : Prop := ∀ q ∈ execOf t e d, gone q = false

/-- The words of an engine's queue, and those that it executes, are abandoned. -/
def dropQueued (t : Nat) (d : Dev) (e : Nat) : Dev :=
  endReelWords 0x07 ((queueOf t e d).filter gone) (setQueue t e ((queueOf t e d).filter fun q => !gone q) d)
def dropExecuting (t : Nat) (d : Dev) (e : Nat) : Dev :=
  endReelWords 0x07 ((execOf t e d).filter gone) (setExec t e ((execOf t e d).filter fun q => !gone q) d)

theorem discardWords_eq (t : Nat) (d : Dev) : discardWords t gone d = (List.range 7).foldl (dropQueued gone t) d := rfl

theorem queueOf_of_tiles {e : Dev} (h : e.tiles = d.tiles) (k : Nat) : queueOf t k e = queueOf t k d := by
  rw [queueOf, getTile, h]; rfl
theorem execOf_of_tiles {e : Dev} (h : e.tiles = d.tiles) (k : Nat) : execOf t k e = execOf t k d := by
  rw [execOf, getTile, h]; rfl

theorem uncut_dropQueued (d : Dev) (e : Nat) : uncut t (dropQueued gone t d e) = uncut t d :=
  (uncut_endReelWords ..).trans (uncut_setQueue ..)
theorem uncut_dropExecuting (d : Dev) (e : Nat) : uncut t (dropExecuting gone t d e) = uncut t d :=
  (uncut_endReelWords ..).trans (uncut_setExec ..)

theorem queueOf_dropQueued (d : Dev) (e k : Nat) : queueOf t k (dropQueued gone t d e) =
    if k = e then (queueOf t e d).filter (fun q => !gone q) else queueOf t k d := by
  rw [dropQueued, queueOf_of_tiles (endReelWords_tiles ..), queueOf_setQueue]
  simp

theorem execOf_dropExecuting (d : Dev) (e k : Nat) : execOf t k (dropExecuting gone t d e) =
    if k = e then (execOf t e d).filter (fun q => !gone q) else execOf t k d := by
  rw [dropExecuting, execOf_of_tiles (endReelWords_tiles ..), execOf_setExec]
  simp

theorem queueOf_dropExecuting (d : Dev) (e k : Nat) : queueOf t k (dropExecuting gone t d e) = queueOf t k d := by
  rw [dropExecuting, queueOf_of_tiles (endReelWords_tiles ..), queueOf_setExec]

/-- What holds of an engine once it has been walked, and stays, holds of every engine of the walk. -/
theorem foldl_reaches {P : Dev → Nat → Prop} {f : Dev → Nat → Dev} (does : ∀ d e, P (f d e) e) (keeps : ∀ d e k, P d k → P (f d e) k)
    (l : List Nat) (d : Dev) {k : Nat} (hk : k ∈ l) : P (l.foldl f d) k := by
  induction l generalizing d with
  | nil => nomatch hk
  | cons e l ih =>
    rcases List.mem_cons.1 hk with rfl | hk
    · exact List.foldlRecOn l f (does d k) fun e he j _ => keeps e j k he
    · exact ih (f d e) hk

theorem noneQueued_discardWords (d : Dev) {k : Nat} (hk : k < 7) : NoneQueued gone t (discardWords t gone d) k := by
  rw [discardWords_eq]
  refine foldl_reaches (P := NoneQueued gone t) (fun d e q hq => ?_) (fun d e k h q hq => ?_) _ d (List.mem_range.2 hk)
  · rw [queueOf_dropQueued, if_pos rfl] at hq
    simpa using (List.mem_filter.1 hq).2
  · rw [queueOf_dropQueued] at hq
    split at hq
    next heq => subst heq; exact h q (List.mem_filter.1 hq).1
    next => exact h q hq

/-- The device after the words that wait and execute on a tile are abandoned, before their cue requests and contexts are. -/
def wordsDropped (t : Nat) (d : Dev) : Dev := (List.range 7).foldl (dropExecuting gone t) (discardWords t gone d)

theorem uncut_wordsDropped (d : Dev) : uncut t (wordsDropped gone t d) = uncut t d :=
  (foldl_leaves (uncut t) (uncut_dropExecuting gone) _ _).trans (foldl_leaves (uncut t) (uncut_dropQueued gone) (List.range 7) d)

theorem noneQueued_wordsDropped (d : Dev) {k : Nat} (hk : k < 7) : NoneQueued gone t (wordsDropped gone t d) k := by
  have kept : queueOf t k (wordsDropped gone t d) = queueOf t k (discardWords t gone d) :=
    foldl_leaves (queueOf t k) (fun d e => queueOf_dropExecuting gone d e k) _ _
  rw [NoneQueued, kept]
  exact noneQueued_discardWords gone d hk

theorem noneExecutes_wordsDropped (d : Dev) {k : Nat} (hk : k < 7) : NoneExecutes gone t (wordsDropped gone t d) k := by
  refine foldl_reaches (P := NoneExecutes gone t) (fun d e q hq => ?_) (fun d e k h q hq => ?_) _ _ (List.mem_range.2 hk)
  · rw [execOf_dropExecuting, if_pos rfl] at hq
    simpa using (List.mem_filter.1 hq).2
  · rw [execOf_dropExecuting] at hq
    split at hq
    next heq => subst heq; exact h q (List.mem_filter.1 hq).1
    next => exact h q hq

/-- Besides, the abandoned words' cue requests and sequencer contexts go. -/
theorem abandonWords_eq (d : Dev) : ∃ e p f, e = wordsDropped gone t d ∧ abandonWords t gone d = modTile t f { e with pow := p } ∧
    ∀ x, (f x).seg = x.seg ∧ (f x).queues = x.queues ∧ (f x).exec = x.exec := by
  unfold abandonWords
  extract_lets lost d1 d2 keep p
  have dropped : d2 = wordsDropped gone t d := by
    show List.foldl _ (discardWords t gone d) _ = List.foldl (dropExecuting gone t) (discardWords t gone d) _
    congr 1
  clear_value d2
  exact ⟨d2, _, _, dropped, rfl, fun _ => ⟨rfl, rfl, rfl⟩⟩

end

/-- Nothing of a tenant waits or executes on a tile once it is abandoned there. -/
theorem abandonTile_effect (t u : Nat) (d : Dev) : uncut t (abandonTile t u d) = uncut t d ∧
    ∀ k, k < 7 → (∀ q ∈ queueOf t k (abandonTile t u d), q.tenant ≠ u) ∧ ∀ q ∈ execOf t k (abandonTile t u d), q.tenant ≠ u := by
  obtain ⟨e, p, f, he, words, keeps⟩ := abandonWords_eq (t := t) (fun q => q.tenant == u) d
  have dropped : uncut t e = uncut t d := he ▸ uncut_wordsDropped _ d
  have queued (k : Nat) (hk : k < 7) : NoneQueued (fun q => q.tenant == u) t e k := he ▸ noneQueued_wordsDropped _ d hk
  have executing (k : Nat) (hk : k < 7) : NoneExecutes (fun q => q.tenant == u) t e k := he ▸ noneExecutes_wordsDropped _ d hk
  have tile : getTile t (abandonTile t u d) = f (getTile t e) := by
    unfold abandonTile
    rw [words]
    exact getTile_modTile_same t f _
  refine ⟨?_, fun k hk => ⟨fun q hq => ?_, fun q hq => ?_⟩⟩
  · have abandoned : uncut t (modTile t f { e with pow := p }) = uncut t e := uncut_modTile (fun x => (keeps x).1) _
    unfold abandonTile
    rw [words]
    exact abandoned.trans dropped
  · rw [queueOf, tile, (keeps _).2.1] at hq
    exact beq_eq_false_iff_ne.1 (queued k hk q hq)
  · rw [execOf, tile, (keeps _).2.2] at hq
    exact beq_eq_false_iff_ne.1 (executing k hk q hq)

/-! ### The cut -/

/-- The core of a tile that has abandoned tenant `u` is cut. -/
def cutCore (t u : Nat) (d : Dev) : Dev :=
  dropWatch (.core t) (modTile t (fun x => { x with seg := x.seg.filter fun g => g.tenant != u, wait := .free }) d)

theorem getTile_dropWatch (w : Waiter) (v : Nat) (d : Dev) : getTile v (dropWatch w d) = getTile v d := rfl

theorem getTile_cutCore (t u v : Nat) (d : Dev) : getTile v (cutCore t u d) =
    if v = t then { getTile t d with seg := (getTile t d).seg.filter (fun g => g.tenant != u), wait := .free } else getTile v d := by
  rw [cutCore, getTile_dropWatch, getTile_modTile]

/-- A tile that has been cut, before its event is raised. -/
def cutTile (t u : Nat) (d : Dev) : Dev := cutCore t u (abandonTile t u (dropWaiting t u (traceCut t d)))

theorem cutSegment_eq (t u : Nat) (d : Dev) : cutSegment t u d = faultRun 2 evWindowOverrun (srcTile t) u (cutTile t u d) := rfl

/-- What a cut has left, and what it has done to its tile. -/
theorem cutTile_effect (t u : Nat) (d : Dev) : (cutTile t u d).runs = d.runs ∧
    Sparse.get 0 (cutTile t u d).ev.counts 2 = Sparse.get 0 d.ev.counts 2 ∧
    (∀ v, v ≠ t → getTile v (cutTile t u d) = getTile v d) ∧
    (getTile t (cutTile t u d)).seg = (getTile t d).seg.filter (fun g => g.tenant != u) ∧ (getTile t (cutTile t u d)).wait = .free ∧
    ∀ k, k < 7 → (∀ q ∈ queueOf t k (cutTile t u d), q.tenant ≠ u) ∧ ∀ q ∈ execOf t k (cutTile t u d), q.tenant ≠ u := by
  obtain ⟨abandoned, words⟩ := abandonTile_effect t u (dropWaiting t u (traceCut t d))
  have frame := abandoned.trans ((uncut_dropWaiting _).trans (uncut_traceCut d))
  unfold cutTile
  generalize abandonTile t u (dropWaiting t u (traceCut t d)) = e at frame words ⊢
  obtain ⟨runs, rest⟩ := Prod.mk.inj frame
  obtain ⟨counts, rest⟩ := Prod.mk.inj rest
  obtain ⟨tiles, seg⟩ := Prod.mk.inj rest
  have cut := (getTile_cutCore t u t e).trans (if_pos rfl)
  refine ⟨runs, counts, fun v hv => ?_, ?_, congrArg Tile.wait cut, fun k hk => ?_⟩
  · have tile := congrFun tiles v
    rw [if_neg hv, if_neg hv] at tile
    rw [getTile_cutCore, if_neg hv, tile]
  · rw [cut, ← seg]
  · rw [queueOf, execOf, cut]
    exact words k hk

/-- A cut of a Running run's unfinished segment. -/
theorem cutSegment_effect (hseg : (getTile t d).seg = some g) (hmine : g.tenant = u) (hrunning : (getRun u d).running = true) :
    ((getTile t (cutSegment t u d)).seg = none ∧ (getTile t (cutSegment t u d)).wait = .free) ∧
    (∀ k, k < 7 → (∀ q ∈ queueOf t k (cutSegment t u d), q.tenant ≠ u) ∧ ∀ q ∈ execOf t k (cutSegment t u d), q.tenant ≠ u) ∧
    (getRun u (cutSegment t u d)).haltPending = true ∧ (∀ v, v ≠ u → getRun v (cutSegment t u d) = getRun v d) ∧
    (∀ v, v ≠ t → getTile v (cutSegment t u d) = getTile v d) ∧
    Sparse.get 0 (cutSegment t u d).ev.counts 2 = satAdd 64 (Sparse.get 0 d.ev.counts 2) 1 := by
  obtain ⟨runs, counts, others, seg, wait, words⟩ := cutTile_effect t u d
  rw [cutSegment_eq]
  generalize cutTile t u d = e at runs counts others seg wait words ⊢
  have run (v : Nat) : getRun v e = getRun v d := by rw [getRun, runs]; rfl
  have tile (v : Nat) : getTile v (faultRun 2 evWindowOverrun (srcTile t) u e) = getTile v e := getTile_faultRun _ _ _ _ _ _ (by decide)
  refine ⟨⟨?_, by rw [tile, wait]⟩, fun k hk => ?_, ?_, fun v hv => ?_, fun v hv => (tile v).trans (others v hv), ?_⟩
  · rw [tile, seg, hseg]
    simp [Option.filter, hmine]
  · rw [queueOf, execOf, tile]
    exact words k hk
  · rw [getRun_faultRun_of_running _ _ _ _ _ (by rw [run]; exact hrunning)]
  · rw [getRun_faultRun_of_unconcerned _ _ _ _ _ _ (by decide) (.inl hv), run]
  · rw [faultRun_counts, counts]

end Sys2Proof.Machine

namespace Sys2Proof.Proofs
open Sys2Proof.Machine

/-- Settles O25: a segment that begins is its tile's one change; a cut is the tile's change followed by a fault of class 0x2. -/
theorem tileWindows : Obligations.TileWindows := by
  unfold Obligations.TileWindows
  rintro s _ t rfl ht x open_
  refine ⟨fun h => ?_, fun g hfirst hctx hrun hseg hswitch howner hcapture htrace => ?_, fun h => ?_, fun u h hearly => ?_,
    fun u g h hlate hseg hmine hended hrunning => ?_⟩
  · exact answers_onTile_idle ht rfl (windowStart_of_closed (d := tagWork (segFrames t s.dev) s.dev) h)
  · refine completes_onTile ht rfl ?_
    obtain ⟨tile, others, mem⟩ := windowStart_effect (d := tagWork (segFrames t s.dev) s.dev) hfirst hctx hrun hseg hswitch howner
      hcapture htrace
    rw [asTile]
    generalize windowStart t (tagWork (segFrames t s.dev) s.dev) = e at tile others mem ⊢
    exact ⟨tile, others, mem⟩
  · exact answers_onTile_idle ht rfl (windowEnd_of_none (d := tagWork (segFrames t s.dev) s.dev) h)
  · exact answers_onTile_idle ht rfl (windowEnd_of_early (d := tagWork (segFrames t s.dev) s.dev) h hearly)
  · refine completes_onTile ht rfl ?_
    have cut := windowEnd_of_unfinished (d := tagWork (segFrames t s.dev) s.dev) h hlate hseg hended
    obtain ⟨⟨seg, wait⟩, words, halts, runs, tiles, counts⟩ := cutSegment_effect (d := tagWork (segFrames t s.dev) s.dev) hseg hmine hrunning
    rw [asTile, cut]
    generalize cutSegment t u (tagWork (segFrames t s.dev) s.dev) = e at seg wait words halts runs tiles counts ⊢
    exact ⟨seg, wait, words, halts, runs, tiles, counts⟩

end Sys2Proof.Proofs
end

section
/-!
PROOFS. The arithmetic of the tile core (R136, Table 6.3) and of the integer vector lanes (Table 6.10), in terms of integers.
-/
namespace Sys2Proof.Machine

/-! ## The core's arithmetic (R136) -/

/-- SAR divides the signed value, rounding down. -/
theorem toInt_sshiftRight_eq_div (x : BitVec 64) (n : Nat) : (x.sshiftRight n).toInt = x.toInt / 2 ^ n := by
  rw [BitVec.toInt_sshiftRight, Int.shiftRight_eq_div_pow]
  norm_cast

theorem toNat_shiftLeft_eq_mul {w : Nat} (x : BitVec w) (n : Nat) : (x <<< n).toNat = x.toNat * 2 ^ n % 2 ^ w := by
  rw [BitVec.toNat_shiftLeft, Nat.shiftLeft_eq]

theorem toNat_ushiftRight_eq_div {w : Nat} (x : BitVec w) (n : Nat) : (x >>> n).toNat = x.toNat / 2 ^ n := by
  rw [BitVec.toNat_ushiftRight, Nat.shiftRight_eq_div_pow]

theorem toNat_sub_add_mod {w : Nat} (x y : BitVec w) : ((x - y).toNat + y.toNat) % 2 ^ w = x.toNat := by
  rw [← BitVec.toNat_add, BitVec.sub_add_cancel]

theorem alu_slt_eval (x y : BitVec 64) : AluFn.slt.eval x y = if x.toInt < y.toInt then 1 else 0 := by
  simp only [AluFn.eval, BitVec.slt_iff_toInt_lt]

theorem alu_sltu_eval (x y : BitVec 64) : AluFn.sltu.eval x y = if x.toNat < y.toNat then 1 else 0 := by
  simp only [AluFn.eval, BitVec.ult_iff_toNat_lt]

/-- The bits of one 16-bit field are set in its mask. -/
theorem getLsbD_fieldMask (j : BitVec 2) {i : Nat} (hi : i < 64) :
    (0xFFFF#64 <<< (16 * j.toNat)).getLsbD i = decide (i / 16 = j.toNat) := by
  have hj : j.toNat < 4 := j.isLt
  have ones (k : Nat) : (0xFFFF#64).getLsbD k = decide (k < 16) := by
    simpa [BitVec.getLsbD] using Nat.testBit_two_pow_sub_one (n := 16) (i := k)
  rw [BitVec.getLsbD_shiftLeft, ones, decide_eq_true hi, Bool.true_and, ← decide_not, ← Bool.decide_and, decide_eq_decide]
  omega

/-- INSj replaces field j and keeps the other three. -/
theorem getLsbD_insertField (j : BitVec 2) (x : BitVec 64) (imm : BitVec 16) {i : Nat} (hi : i < 64) :
    (insertField j x imm).getLsbD i = if i / 16 = j.toNat then imm.getLsbD (i % 16) else x.getLsbD i := by
  rw [insertField, BitVec.getLsbD_or, BitVec.getLsbD_and, BitVec.getLsbD_not, getLsbD_fieldMask j hi, BitVec.getLsbD_shiftLeft]
  by_cases h : i / 16 = j.toNat
  · have low : i - 16 * j.toNat = i % 16 := by omega
    simp [h, hi, low, show ¬ i < 16 * j.toNat by omega, show i % 16 < 64 by omega]
  · have out : i < 16 * j.toNat ∨ 16 ≤ i - 16 * j.toNat := by omega
    rcases out with out | out
    · simp [h, hi, out]
    · simp [h, hi, BitVec.getLsbD_of_ge imm _ out]

/-! ## The integer lanes (Table 6.10) -/

/-- The signed value of a 32-bit lane. -/
def signedLane (x : Nat) : Int := if x < 2 ^ 31 then x else x - 2 ^ 32

theorem signedLane_toNat (x : BitVec 32) : signedLane x.toNat = x.toInt := by
  rw [signedLane, BitVec.toInt_eq_toNat_cond]
  split <;> split <;> omega

/-- A lane is the value of a 32-bit word. -/
theorem exists_toNat_eq {a : Nat} (ha : a < 2 ^ 32) : ∃ x : BitVec 32, x.toNat = a :=
  ⟨BitVec.ofNat 32 a, by rw [BitVec.toNat_ofNat, Nat.mod_eq_of_lt ha]⟩

section
variable (x y : BitVec 32) (c dd : Nat)

theorem intLane_sar : signedLane (intLane 7 x.toNat y.toNat c dd) = signedLane x.toNat / 2 ^ (y.toNat % 32) := by
  have lane : intLane 7 x.toNat y.toNat c dd = (x.sshiftRight (y.toNat % 32)).toNat := by simp [intLane]
  rw [lane, signedLane_toNat, signedLane_toNat, BitVec.toInt_sshiftRight, Int.shiftRight_eq_div_pow]
  norm_cast

theorem intLane_slt : intLane 8 x.toNat y.toNat c dd = if signedLane x.toNat < signedLane y.toNat then c else dd := by
  rw [signedLane_toNat, signedLane_toNat]
  simp [intLane, BitVec.slt_iff_toInt_lt]

theorem intLane_eq : intLane 9 x.toNat y.toNat c dd = if x.toNat = y.toNat then c else dd := by
  simp [intLane, BitVec.toNat_inj]

end

end Sys2Proof.Machine

namespace Sys2Proof.Proofs
open Sys2Proof.Machine

/-- Settles O2: each operation of the core is one of BitVec's, and a lane is a 32-bit word. -/
theorem integerArithmetic : Obligations.IntegerArithmetic := by
  unfold Obligations.IntegerArithmetic
  refine ⟨⟨fun x y => ?_, fun x n => ?_, fun j x imm i hi => getLsbD_insertField j x imm hi⟩, fun a b c dd ha hb => ?_⟩
  · exact ⟨BitVec.toNat_add x y, toNat_sub_add_mod x y, BitVec.toNat_mul x y, toNat_shiftLeft_eq_mul x _, toNat_ushiftRight_eq_div x _,
      toInt_sshiftRight_eq_div x _, alu_slt_eval x y, alu_sltu_eval x y,
      fun i _ => ⟨BitVec.getLsbD_and, BitVec.getLsbD_or, BitVec.getLsbD_xor⟩⟩
  · exact ⟨toNat_shiftLeft_eq_mul x _, toNat_ushiftRight_eq_div x _, toInt_sshiftRight_eq_div x _⟩
  · obtain ⟨x, rfl⟩ := exists_toNat_eq ha
    obtain ⟨y, rfl⟩ := exists_toNat_eq hb
    have sub : intLane 1 x.toNat y.toNat c dd = (x - y).toNat := by simp only [intLane, BitVec.ofNat_toNat, BitVec.setWidth_eq]
    refine ⟨?_, ?_, ?_, ?_, ?_, ?_, ?_, ?_, ⟨intLane_sar x y c dd, intLane_slt x y c dd⟩, intLane_eq x y c dd⟩
    · simp [intLane]
    · rw [sub]; exact toNat_sub_add_mod x y
    · rw [sub]; exact (x - y).isLt
    · simp [intLane]
    · simp [intLane]
    · simp [intLane]
    · simp [intLane, Nat.shiftLeft_eq]
    · simp [intLane, Nat.shiftRight_eq_div_pow]

end Sys2Proof.Proofs
end

section
/-!
PROOFS. The rows of the tile core that write a register, branch or jump (R133, R136, R137, Table 6.3).
-/
namespace Sys2Proof.Machine

variable {α : Type} {t r pc : Nat} {v : BitVec 64} {i : CoreInstr} {d e : Dev} {sel : Option CoreInstr → Option α} {x : α}
  {run : α → Dev → Dev}

theorem readG_writeG_same (t : Nat) {r : Nat} (v : BitVec 64) (d : Dev) (h : r ≠ 0) : readG t r (writeG t r v d) = v := by
  simp [readG_writeG, h]

/-- A write of a register leaves every other register of every tile. -/
theorem readG_writeG_other {t r u j : Nat} (v : BitVec 64) (d : Dev) (h : u ≠ t ∨ j ≠ r) :
    readG u j (writeG t r v d) = readG u j d := by
  by_cases hu : u = t
  · subst hu
    have hj : j ≠ r := h.resolve_left (not_not.2 rfl)
    simp [readG_writeG, hj]
  · exact readG_of_tile (congrArg Tile.g (getTile_writeG_other r v d hu)) j

/-! ## Rows that write their result and go on -/

/-- A row whose execution is one register write completes with a core step to the next instruction. -/
theorem coreRow_step_of_writeNext (h : AtInstr t i d) (hs : sel (some i) = some x)
    (hr : ∀ e, Fetched d e → ∃ e', Fetched d e' ∧ run x e = writeNext t r v e') :
    CoreStep t r v ((getTile t d).pc + 4) d (settle (asTile t (coreRow t sel run) d)) := by
  refine coreRow_step h hs fun e he => ?_
  obtain ⟨e', he', hrun⟩ := hr e he
  exact ⟨e', he', by rw [hrun, writeNext_eq, he'.getTile]⟩

/-- A command whose row writes a result that the fetch leaves as it was completes with that core step. -/
theorem completes_coreRow {s : State} {c : Instr} (hc : exec c s = onTile t (coreRow t sel run) s) (h : AtInstr t i s.dev)
    (hs : sel (some i) = some x) (hr : ∀ e, Fetched s.dev e → run x e = writeNext t r v e) :
    Completes c s (CoreStep t r v ((getTile t s.dev).pc + 4) s.dev) :=
  completes_onTile h.1 hc (coreRow_step_of_writeNext h hs fun e he => ⟨e, he, hr e he⟩)

/-- A special register reads nothing that a fetch changes. -/
theorem Fetched.specialReg (h : Fetched d e) (t k : Nat) : specialReg t k e = Machine.specialReg t k d := by
  rw [h.1]; rfl

/-- Only the ten indices of Table 6.1 name a special register. -/
theorem lt_of_specialReg {k v : Nat} (h : Machine.specialReg t k d = some v) : k < 10 := by
  by_contra hk
  obtain ⟨n, rfl⟩ := Nat.exists_eq_add_of_le' (Nat.not_lt.1 hk)
  unfold Machine.specialReg at h
  split at h
  · cases h
  · cases h

/-- LDW of a good address whose word can be read loads it. -/
theorem ldwRow_step {r a : BitVec 5} {imm : BitVec 16} (h : AtInstr t (.ldw r a imm) d) {addr place : Nat}
    (haddr : (readG t a.toNat d + imm.signExtend 64 * 8).toNat = addr) (hplace : fetchAddr t d - (getTile t d).pc + addr = place)
    (halign : addr % 8 = 0) (hin : addr < 262144) (hgood : Sparse.get 0 d.mem.imemErr (place / 8) ≤ 1) :
    CoreStep t r.toNat (BitVec.ofNat 64 (leNat (Mem.readN d.mem.imem place 8))) ((getTile t d).pc + 4) d
      (settle (asTile t (ldwRow t) d)) := by
  refine coreRow_step_of_writeNext (x := (r, a, imm)) h rfl fun e he => ?_
  obtain ⟨ok, fetched⟩ := he.check (t := t) hgood
  refine ⟨_, fetched, ?_⟩
  simp only [he.readG, he.fetchAddr, he.getTile, haddr, hplace, halign, hin, ok, and_self, if_true, fetched.imem]

end Sys2Proof.Machine

namespace Sys2Proof.Proofs
open Sys2Proof.Machine

/-- Settles O1: a register read after a write, of the same and of another register. -/
theorem coreRegisterRule : Obligations.CoreRegisterRule := by
  unfold Obligations.CoreRegisterRule
  intro t r v d
  exact ⟨readG_zero t d, writeG_zero t v d, readG_writeG_same t v d, fun u j h => readG_writeG_other v d h⟩

/-- Settles O3: each row is the fetch followed by the write of its result. -/
theorem coreArithmetic : Obligations.CoreArithmetic := by
  unfold Obligations.CoreArithmetic
  intro s t d g next
  refine ⟨fun fn r a b h => completes_coreRow (x := (fn, r, a, b)) rfl h rfl fun e he => ?alu,
    fun r a imm h => completes_coreRow (x := (r, a, imm)) rfl h rfl fun e he => ?addi,
    fun r a imm h => completes_coreRow (x := (r, a, imm)) rfl h rfl fun e he => ?andi,
    fun r a imm h => completes_coreRow (x := (r, a, imm)) rfl h rfl fun e he => ?ori,
    fun r a imm h => completes_coreRow (x := (r, a, imm)) rfl h rfl fun e he => ?xori,
    fun r a n h => completes_coreRow (x := (r, a, n)) rfl h rfl fun e he => ?shli,
    fun r a n h => completes_coreRow (x := (r, a, n)) rfl h rfl fun e he => ?shri,
    fun r a n h => completes_coreRow (x := (r, a, n)) rfl h rfl fun e he => ?sari,
    fun j r a imm h => completes_coreRow (x := (j, r, a, imm)) rfl h rfl fun e he => ?ins,
    fun r a imm h => completes_coreRow (x := (r, a, imm)) rfl h rfl fun e he => ?slti,
    fun r i v h hv => completes_coreRow (x := (r, i)) rfl h (if_pos (lt_of_specialReg hv)) fun e he => ?rsr,
    fun r a imm h halign hin hgood => completes_onTile h.1 rfl (ldwRow_step h rfl rfl halign hin hgood)⟩
  case slti => simp only [he.readG, BitVec.slt_iff_toInt_lt]; rfl
  case rsr =>
    have read : specialReg t i.toNat e = some v := (he.specialReg t _).trans hv
    simp only [read, Option.getD_some]
  all_goals simp only [he.readG]; rfl

end Sys2Proof.Proofs
end

section
/-!
PROOFS. Branches and jumps of the tile core (R137, Table 6.3), and what the trace of its segment leaves (R458).
-/
namespace Sys2Proof.Machine

/-! ## The trace leaves every tile (R451, R458) -/

section
variable (t : Nat) (d : Dev)

theorem countCorrected_tiles (a : Nat) : (countCorrected a d).tiles = d.tiles := by
  unfold countCorrected
  split
  · rw [raise_eq _ _ _ _ (by decide)]
  · rw [raise_eq _ _ _ _ (by decide)]; rfl

theorem writeMeets_tiles (a n : Nat) (p : Nat × Nat) : (writeMeets a n d p).tiles = d.tiles := by
  unfold writeMeets
  split
  · rfl
  · split
    · exact countCorrected_tiles _ _
    · rfl

theorem physWrite_tiles (a : Nat) (bs : Bytes) : (physWrite a bs d).2.tiles = d.tiles := by
  rw [physWrite_eq]
  exact foldl_leaves Dev.tiles (fun e => writeMeets_tiles e a bs.length) _ d

theorem stageRecord_tiles (tenant ring : Nat) (bs : Bytes) : (stageRecord t tenant ring bs d).tiles = d.tiles := by
  unfold stageRecord
  split
  · exact foldl_leaves Dev.tiles (fun e (p : Nat × Bytes) => physWrite_tiles e p.1 p.2) _ d
  · rfl

theorem flushPacket_tiles : (flushPacket t d).tiles = d.tiles := by
  simp only [flushPacket]
  split
  · rfl
  · split
    · rfl
    · exact stageRecord_tiles _ _ _ _ _

theorem putToken_tiles (token : Nat) : (putToken t token d).tiles = d.tiles := by
  simp only [putToken]
  split
  · exact flushPacket_tiles _ _
  · rfl

theorem pushToken_tiles (token : Nat) : (pushToken t token d).tiles = d.tiles := by
  simp only [pushToken]
  split
  · rfl
  · split
    · exact (putToken_tiles _ _ _).trans (putToken_tiles _ _ _)
    · exact putToken_tiles _ _ _

theorem flushBranches_tiles : (flushBranches t d).tiles = d.tiles := by
  simp only [flushBranches]
  split
  · rfl
  · exact pushToken_tiles _ _ _

theorem emitToken_tiles (kind v : Nat) : (emitToken t kind v d).tiles = d.tiles :=
  (pushToken_tiles _ _ _).trans (flushBranches_tiles _ _)

theorem traceBranch_tiles (taken : Bool) : (traceBranch t taken d).tiles = d.tiles := by
  simp only [traceBranch]
  split
  · split
    · exact flushBranches_tiles _ _
    · rfl
  · rfl

theorem traceJump_tiles (target : Nat) : (traceJump t target d).tiles = d.tiles := by
  unfold traceJump
  split
  · exact emitToken_tiles _ _ _ _
  · rfl

theorem traceEnd_tiles : (traceEnd t d).tiles = d.tiles := by
  unfold traceEnd
  split
  · rfl
  · split
    · exact (flushPacket_tiles _ _).trans (emitToken_tiles _ _ _ _)
    · rfl

end

/-! ## Rows that a trace records -/

variable {α : Type} {t r pc : Nat} {v : BitVec 64} {i : CoreInstr} {d e : Dev} {sel : Option CoreInstr → Option α} {x : α}
  {run : α → Dev → Dev}

theorem traceBranch_of_untraced (taken : Bool) (h : tracing t d = false) : traceBranch t taken d = d := by simp [traceBranch, h]

theorem traceJump_of_untraced (target : Nat) (h : tracing t d = false) : traceJump t target d = d := by simp [traceJump, h]

theorem traceEnd_of_untraced (h : tracing t d = false) : traceEnd t d = d := by
  unfold traceEnd
  split
  · rfl
  · simp [h]

theorem tracing_writeG (t u r : Nat) (v : BitVec 64) (d : Dev) : tracing t (writeG u r v d) = tracing t d := by
  have seg : (getTile t (writeG u r v d)).seg = (getTile t d).seg := by
    by_cases hu : t = u
    · subst hu; rw [getTile_writeG]
    · rw [getTile_writeG_other _ _ _ hu]
  rw [tracing, seg, writeG_eq]
  rfl

theorem Fetched.tracing (h : Fetched d e) (t : Nat) : tracing t e = Machine.tracing t d := by
  rw [h.1]; rfl

theorem getTile_congr (h : e.tiles = d.tiles) (u : Nat) : getTile u e = getTile u d := by rw [getTile, getTile, h]

theorem setPc_tiles_congr (t pc : Nat) (h : e.tiles = d.tiles) : (setPc t pc e).tiles = (setPc t pc d).tiles := by
  simp only [setPc, modTile, setTile, getTile, h]

/-- A register write and the move to `pc`, after the fetch, make a core step. -/
theorem coreStep_of_fetched (he : Fetched d e) (t r pc : Nat) (v : BitVec 64) (b : Events) :
    CoreStep t r v pc d (settle (untagged { setPc t pc (writeG t r v e) with ev := b })) := by
  have tile (u : Nat) : getTile u (settle (untagged { setPc t pc (writeG t r v e) with ev := b })) =
      getTile u (setPc t pc (writeG t r v e)) := rfl
  refine ⟨fun j => ?_, ?_, fun u hu => ?_, ?_⟩
  · rw [readG_of_tile (d := writeG t r v e) (by rw [tile, setPc, getTile_modTile_same]), readG_writeG, he.readG]
  · rw [tile, setPc, getTile_modTile_same, getTile_writeG, he.getTile]
  · rw [tile, setPc, getTile_modTile, if_neg hu, getTile_writeG_other _ _ _ hu, he.getTile]
  · rw [setPc, writeG_eq, he.1]
    rfl

/-- A row that makes such a step, beside what its trace records. -/
theorem completes_tracedRow {s : State} {c : Instr} (hc : exec c s = onTile t (coreRow t sel run) s) (h : AtInstr t i s.dev)
    (hs : sel (some i) = some x) (hr : ∀ e, Fetched s.dev e → (run x e).tiles = (setPc t pc (writeG t r v e)).tiles ∧
      (tracing t e = false → run x e = setPc t pc (writeG t r v e))) :
    Completes c s (CoreTracedStep t r v pc s.dev) := by
  refine completes_onTile h.1 hc ?_
  obtain ⟨e, he, b, hrow⟩ := coreRow_at h hs run
  obtain ⟨htiles, plain⟩ := hr e he
  obtain ⟨regs, tile, others, -⟩ := coreStep_of_fetched he t r pc v b
  rw [hrow]
  have same (u : Nat) : getTile u (settle (untagged { run x e with ev := b })) =
      getTile u (settle (untagged { setPc t pc (writeG t r v e) with ev := b })) := getTile_congr htiles u
  refine ⟨fun j => ?_, by rw [same, tile], fun u hu => by rw [same, others u hu], fun hoff => ?_⟩
  · rw [readG_of_tile (congrArg Tile.g (same t)), regs]
  · rw [plain (by rw [he.tracing, hoff])]
    exact (coreStep_of_fetched he t r pc v b).2.2

theorem setPc_writeG_zero (t pc : Nat) (d : Dev) : setPc t pc (writeG t 0 0 d) = setPc t pc d := rfl

/-- A branch records its outcome, then goes to its target or on. -/
theorem branchRow_completes {s : State} {c : Instr} {k : Cond} {a b : BitVec 5} {off : BitVec 16}
    (hc : exec c s = onTile t (branchRow k t) s) (h : AtInstr t (.branch k a b off) s.dev) {taken : Bool}
    (htaken : k.holds (readG t a.toNat s.dev) (readG t b.toNat s.dev) = taken)
    (hgoes : ∀ e, Fetched s.dev e → ∀ f : Dev, f.tiles = e.tiles →
      (if taken then jumpTo t (((getTile t s.dev).pc : Int) + off.toInt * 4) f else advance t f) = setPc t pc f) :
    Completes c s (CoreTracedStep t 0 0 pc s.dev) := by
  refine completes_tracedRow (x := (a, b, off)) hc h (if_pos rfl) fun e he => ?_
  simp only [he.readG, he.getTile, htaken, writeG_zero]
  rw [hgoes e he _ (traceBranch_tiles t e taken)]
  exact ⟨setPc_tiles_congr t pc (traceBranch_tiles t e taken), fun hoff => by rw [traceBranch_of_untraced taken hoff]⟩

theorem jumpTo_of_good {target : Int} (h : targetGood target = true) (t : Nat) (d : Dev) :
    jumpTo t target d = setPc t target.toNat d := if_pos h

theorem branchRow_completes_taken {s : State} {c : Instr} {k : Cond} {a b : BitVec 5} {off : BitVec 16}
    (hc : exec c s = onTile t (branchRow k t) s) (h : AtInstr t (.branch k a b off) s.dev)
    (htaken : k.holds (readG t a.toNat s.dev) (readG t b.toNat s.dev) = true)
    (hgood : targetGood (((getTile t s.dev).pc : Int) + off.toInt * 4) = true) :
    Completes c s (CoreTracedStep t 0 0 (((getTile t s.dev).pc : Int) + off.toInt * 4).toNat s.dev) :=
  branchRow_completes hc h htaken fun _ _ f _ => jumpTo_of_good hgood t f

theorem branchRow_completes_not_taken {s : State} {c : Instr} {k : Cond} {a b : BitVec 5} {off : BitVec 16}
    (hc : exec c s = onTile t (branchRow k t) s) (h : AtInstr t (.branch k a b off) s.dev)
    (htaken : k.holds (readG t a.toNat s.dev) (readG t b.toNat s.dev) = false) :
    Completes c s (CoreTracedStep t 0 0 ((getTile t s.dev).pc + 4) s.dev) :=
  branchRow_completes hc h htaken fun _ he f hf => by
    rw [if_neg (by decide), advance_eq, getTile_congr hf, he.getTile]

theorem Cond.holds_eq (x y : BitVec 64) : Cond.eq.holds x y = true ↔ x = y := beq_iff_eq
theorem Cond.holds_ne (x y : BitVec 64) : Cond.ne.holds x y = true ↔ x ≠ y := bne_iff_ne
theorem Cond.holds_lt (x y : BitVec 64) : Cond.lt.holds x y = true ↔ x.toInt < y.toInt := BitVec.slt_iff_toInt_lt
theorem Cond.holds_ltu (x y : BitVec 64) : Cond.ltu.holds x y = true ↔ x.toNat < y.toNat := BitVec.ult_iff_toNat_lt
theorem Cond.holds_ge (x y : BitVec 64) : Cond.ge.holds x y = true ↔ y.toInt ≤ x.toInt := by
  simp [Cond.holds, BitVec.slt_eq_decide]
theorem Cond.holds_geu (x y : BitVec 64) : Cond.geu.holds x y = true ↔ y.toNat ≤ x.toNat := by
  simp [Cond.holds, BitVec.ult_eq_decide]

/-- A branch row of a condition in the terms of the statement. -/
theorem branchRow_cases {s : State} {c : Instr} {k : Cond} {holds : BitVec 64 → BitVec 64 → Prop}
    (hc : exec c s = onTile t (branchRow k t) s) (hk : ∀ x y, k.holds x y = true ↔ holds x y) (a b : BitVec 5) (off : BitVec 16)
    (h : AtInstr t (.branch k a b off) s.dev) :
    (holds (readG t a.toNat s.dev) (readG t b.toNat s.dev) → targetGood (((getTile t s.dev).pc : Int) + off.toInt * 4) = true →
      Completes c s (CoreTracedStep t 0 0 (((getTile t s.dev).pc : Int) + off.toInt * 4).toNat s.dev)) ∧
    (¬ holds (readG t a.toNat s.dev) (readG t b.toNat s.dev) →
      Completes c s (CoreTracedStep t 0 0 ((getTile t s.dev).pc + 4) s.dev)) :=
  ⟨fun hholds => branchRow_completes_taken hc h ((hk _ _).2 hholds),
   fun hnot => branchRow_completes_not_taken hc h (Bool.eq_false_iff.2 (hnot ∘ (hk _ _).1))⟩

end Sys2Proof.Machine

namespace Sys2Proof.Proofs
open Sys2Proof.Machine

/-- Settles O4: a branch by its condition, a jump by its good target; the trace changes no tile. -/
theorem coreControlFlow : Obligations.CoreControlFlow := by
  unfold Obligations.CoreControlFlow
  intro s t d g pc branches
  refine ⟨branchRow_cases rfl Cond.holds_eq, branchRow_cases rfl Cond.holds_ne, branchRow_cases rfl Cond.holds_lt,
    branchRow_cases rfl Cond.holds_ge, branchRow_cases rfl Cond.holds_ltu, branchRow_cases rfl Cond.holds_geu,
    fun r off h hgood => ?jal, fun r a imm h hgood => ?jalr⟩
  case jal =>
    refine completes_onTile h.1 rfl (coreRow_step (x := (r, off)) h rfl fun e he => ⟨e, he, ?_⟩)
    simp only [he.getTile]
    exact jumpTo_of_good hgood t _
  case jalr =>
    refine completes_tracedRow (x := (r, a, imm)) rfl h rfl fun e he => ?_
    simp only [he.getTile, he.readG]
    rw [if_pos hgood, jumpTo_of_good hgood, Int.toNat_natCast]
    exact ⟨setPc_tiles_congr t _ (traceJump_tiles _ _ _), fun hoff =>
      by rw [traceJump_of_untraced _ ((tracing_writeG t t r.toNat _ e).trans hoff)]⟩

end Sys2Proof.Proofs
end

section
/-!
PROOFS. What holds the core and what lets it go on (R138, R142, R151, R191, R192): an issue, a wait for engines, the end of a
segment and the releases.
-/
namespace Sys2Proof.Machine

/-! ## What a wait may change -/

/-- From `d` to `e` nothing differs but tile `t`, its stall and the watches. -/
def WaitFrame (t : Nat) (d e : Dev) : Prop :=
  e = { d with tiles := e.tiles, tobs := e.tobs, ctr.watches := e.ctr.watches } ∧ ∀ u, u ≠ t → getTile u e = getTile u d

section
variable {t : Nat} {d e f : Dev}

theorem TileFrame.wait (h : TileFrame t d e) : WaitFrame t d e := by
  obtain ⟨frame, others⟩ := h
  exact ⟨by rw [frame], others⟩

theorem WaitFrame.trans (h : WaitFrame t d e) (g : WaitFrame t e f) : WaitFrame t d f := by
  obtain ⟨hframe, hothers⟩ := h
  obtain ⟨gframe, gothers⟩ := g
  exact ⟨by rw [gframe, hframe], fun u hu => (gothers u hu).trans (hothers u hu)⟩

theorem tileFrame_writeG (t r : Nat) (v : BitVec 64) (d : Dev) : TileFrame t d (writeG t r v d) :=
  ⟨writeG_eq t r v d, fun _ hu => getTile_writeG_other r v d hu⟩

theorem tileFrame_advance (t : Nat) (d : Dev) : TileFrame t d (advance t d) := tileFrame_modTile ..

theorem tileFrame_writeNext (t r : Nat) (v : BitVec 64) (d : Dev) : TileFrame t d (writeNext t r v d) :=
  (tileFrame_writeG ..).trans (tileFrame_advance ..)

theorem tileFrame_enqueue (t : Nat) (w : BitVec 128) (snap tenant ctx : Nat) (reel : Option (Nat × Nat)) (local2 : Nat) (d : Dev) :
    TileFrame t d (enqueue t w snap tenant ctx reel local2 d) := tileFrame_modTile t (fun _ => _) d

theorem waitFrame_holdCore (t : Nat) (w : CoreWait) (d : Dev) : WaitFrame t d (holdCore t w d) :=
  ⟨rfl, fun u hu => (tileFrame_modTile t (fun x => { x with wait := w }) d).2 u hu⟩

theorem waitFrame_dropWatch (t : Nat) (w : Waiter) (d : Dev) : WaitFrame t d (dropWatch w d) := ⟨rfl, fun _ _ => rfl⟩

theorem getTile_modTObs (t u : Nat) (f : TileObs → TileObs) (d : Dev) : getTile u (modTObs t f d) = getTile u d := rfl

theorem getTile_holdCore (t : Nat) (w : CoreWait) (d : Dev) : getTile t (holdCore t w d) = { getTile t d with wait := w } :=
  getTile_modTile_same t (fun x => { x with wait := w }) d

theorem getTile_advance (t : Nat) (d : Dev) : getTile t (advance t d) = { getTile t d with pc := (getTile t d).pc + 4 } :=
  getTile_modTile_same t _ d

theorem getTile_writeNext (t r : Nat) (v : BitVec 64) (d : Dev) : getTile t (writeNext t r v d) =
    { getTile t d with pc := (getTile t d).pc + 4, g := (getTile t (writeNext t r v d)).g } := by
  rw [writeNext, getTile_advance, getTile_writeG]

theorem readG_writeNext (t r j : Nat) (v : BitVec 64) (d : Dev) :
    readG t j (writeNext t r v d) = if j = r ∧ r ≠ 0 then v else readG t j d :=
  (readG_of_tile (by rw [writeNext, getTile_advance]) j).trans (readG_writeG t r j v d)

/-- A released core of an untraced segment: the wait and the stall are over. -/
theorem freeCore_of_untraced (h : tracing t d = false) : freeCore t d =
    modTObs t (fun y => { y with stallFrom := none }) (modTile t (fun x => { x with wait := .free }) d) := by
  have off : tracing t (modTObs t (fun y => { y with stallFrom := none }) (modTile t (fun x => { x with wait := .free }) d)) = false := by
    rw [tracing, getTile_modTObs, getTile_modTile_same]
    exact h
  unfold freeCore
  dsimp only
  split
  · rfl
  · simp [traceStall, off]

theorem getTile_freeCore (h : tracing t d = false) : getTile t (freeCore t d) = { getTile t d with wait := .free } := by
  rw [freeCore_of_untraced h, getTile_modTObs, getTile_modTile_same]

theorem waitFrame_freeCore (h : tracing t d = false) : WaitFrame t d (freeCore t d) := by
  rw [freeCore_of_untraced h]
  exact ⟨rfl, fun u hu => (tileFrame_modTile t (fun x => { x with wait := .free }) d).2 u hu⟩

theorem readG_freeCore (h : tracing t d = false) (j : Nat) : readG t j (freeCore t d) = readG t j d :=
  readG_of_tile (by rw [getTile_freeCore h]) j

/-! ## From a row to its command -/

theorem TileFrame.coreFrame (h : TileFrame t e f) (he : Fetched d e) (b : Events) :
    CoreFrame t d (settle (untagged { f with ev := b })) := by
  obtain ⟨frame, others⟩ := h
  refine ⟨fun u hu => (others u hu).trans (he.getTile u), ?_⟩
  rw [frame, he.1]
  rfl

theorem WaitFrame.coreWaitFrame (h : WaitFrame t e f) (he : Fetched d e) (b : Events) :
    CoreWaitFrame t d (settle (untagged { f with ev := b })) := by
  obtain ⟨frame, others⟩ := h
  refine ⟨fun u hu => (others u hu).trans (he.getTile u), ?_⟩
  rw [frame, he.1]
  rfl

theorem fetched_tagWork (l : List (Nat × Nat)) (d : Dev) : Fetched d (tagWork l d) := ⟨rfl, fun _ => Nat.le_refl _⟩

end

section
variable {α : Type} {t : Nat} {i : CoreInstr} {s : State} {c : Instr} {sel : Option CoreInstr → Option α} {x : α}
  {run : α → Dev → Dev} {P : Dev → Prop}

/-- A row at its instruction completes where what it does after the fetch satisfies the claim. -/
theorem completes_coreRow_of_fetched (hc : exec c s = onTile t (coreRow t sel run) s) (h : AtInstr t i s.dev)
    (hs : sel (some i) = some x) (hr : ∀ e, Fetched s.dev e → ∀ b, P (settle (untagged { run x e with ev := b }))) :
    Completes c s P := by
  refine completes_onTile h.1 hc ?_
  obtain ⟨e, he, b, hrow⟩ := coreRow_at h hs run
  rw [hrow]
  exact hr e he b

/-- A row that holds its core makes nothing but that wait. -/
theorem completes_hold {w : CoreWait} (hc : exec c s = onTile t (coreRow t sel run) s) (h : AtInstr t i s.dev)
    (hs : sel (some i) = some x) (hr : ∀ e, Fetched s.dev e → run x e = holdCore t w e) :
    Completes c s (fun d' => getTile t d' = { getTile t s.dev with wait := w } ∧ CoreWaitFrame t s.dev d') := by
  refine completes_coreRow_of_fetched hc h hs fun e he b => ?_
  rw [hr e he]
  refine ⟨?_, (waitFrame_holdCore t w e).coreWaitFrame he b⟩
  rw [getTile_settle, getTile_untagged]
  exact (getTile_holdCore t w e).trans (by rw [he.getTile])

/-- A release completes where what it makes of the device, its work being tagged, satisfies the claim. -/
theorem completes_release (g : Dev → Dev) {f : Dev → Dev} (ht : t < 128) (hc : exec c s = onTile t f s)
    (hf : f (tagWork (segFrames t s.dev) s.dev) = g (tagWork (segFrames t s.dev) s.dev))
    (hr : ∀ e, Fetched s.dev e → P (settle (untagged (g e)))) : Completes c s P := by
  refine completes_onTile ht hc ?_
  rw [asTile, hf]
  exact hr _ (fetched_tagWork _ _)

end

/-! ## Issue (R142) -/

section
variable {t a : Nat} {d : Dev}

/-- The word that an ISSUE of register `a` names. -/
def issuedWord (t a : Nat) (d : Dev) : BitVec 128 := readG t (a + 1) d ++ readG t a d

/-- An ISSUE of an even register whose header and amount are good. -/
def GoodIssue (t a : Nat) (d : Dev) : Prop :=
  a % 2 = 0 ∧ headerGood (issuedWord t a d) = true ∧
    (wEng (issuedWord t a d) = 6 → wOp (issuedWord t a d) = 2 → wField (issuedWord t a d) 66 32 ≠ 0)

/-- The entry that a good ISSUE adds to its queue. -/
def issuedEntry (t a : Nat) (d : Dev) : QWord :=
  { word := issuedWord t a d, snap := if wWctr (issuedWord t a d) = 63 then 0 else (readG t (wWreg (issuedWord t a d)) d).toNat
    tenant := coreTenant t d, ctx := (match (getTile t d).seg with | some g => g.ctx | none => 0), reel := none, local2 := 0
    number := (getTile t d).issued, phase := .queued, status := 0 }

/-- A good ISSUE with room in its queue. -/
def issueGoesOn (t a : Nat) (d : Dev) : Dev :=
  advance t (enqueue t (issuedWord t a d) (issuedEntry t a d).snap (coreTenant t d) (issuedEntry t a d).ctx none 0 d)

section
variable (h : GoodIssue t a d)
include h

theorem issueWord_of_good : issueWord t a d =
    if (queueOf t (wEng (issuedWord t a d)) d).length < queueDepth (wEng (issuedWord t a d)) then issueGoesOn t a d
    else holdCore t (.issueFull a) d := by
  obtain ⟨heven, hgood, hadd⟩ := h
  have odd : ¬ (a % 2 = 1 ∨ headerGood (issuedWord t a d) = false) := by simp [heven, hgood]
  have zero : ¬ (wEng (issuedWord t a d) = 6 ∧ wOp (issuedWord t a d) = 2 ∧ wField (issuedWord t a d) 66 32 = 0) :=
    fun ⟨h6, h2, h0⟩ => hadd h6 h2 h0
  exact (if_neg odd).trans (if_neg zero)

theorem issueWord_of_room (hroom : (queueOf t (wEng (issuedWord t a d)) d).length < queueDepth (wEng (issuedWord t a d))) :
    issueWord t a d = issueGoesOn t a d := (issueWord_of_good h).trans (if_pos hroom)

theorem issueWord_of_full (hfull : queueDepth (wEng (issuedWord t a d)) ≤ (queueOf t (wEng (issuedWord t a d)) d).length) :
    issueWord t a d = holdCore t (.issueFull a) d := (issueWord_of_good h).trans (if_neg (Nat.not_lt.2 hfull))

end

theorem tileFrame_issueGoesOn (t a : Nat) (d : Dev) : TileFrame t d (issueGoesOn t a d) :=
  (tileFrame_enqueue ..).trans (tileFrame_advance ..)

theorem getTile_issueGoesOn (t a : Nat) (d : Dev) : getTile t (issueGoesOn t a d) = { getTile t d with
    pc := (getTile t d).pc + 4, issued := (getTile t d).issued + 1
    queues := Sparse.set [] (getTile t d).queues (wEng (issuedWord t a d))
      (queueOf t (wEng (issuedWord t a d)) d ++ [issuedEntry t a d]) } := by
  rw [issueGoesOn, getTile_advance, enqueue, getTile_setTile_same]
  rfl

theorem queueOf_issueGoesOn (t a k : Nat) (d : Dev) : queueOf t k (issueGoesOn t a d) =
    if k = wEng (issuedWord t a d) then queueOf t k d ++ [issuedEntry t a d] else queueOf t k d := by
  rw [queueOf, getTile_issueGoesOn]
  simp only [Sparse.get_set]
  split
  · subst_vars; rfl
  · rfl

theorem Fetched.issuedWord {e : Dev} (he : Fetched d e) (t a : Nat) : issuedWord t a e = Machine.issuedWord t a d := by
  simp only [Machine.issuedWord, he.readG]

theorem Fetched.issuedEntry {e : Dev} (he : Fetched d e) (t a : Nat) : issuedEntry t a e = Machine.issuedEntry t a d := by
  simp only [Machine.issuedEntry, he.issuedWord, he.readG, coreTenant, he.getTile]

theorem Fetched.queueOf {e : Dev} (he : Fetched d e) (t k : Nat) : queueOf t k e = Machine.queueOf t k d := by
  rw [Machine.queueOf, he.getTile, Machine.queueOf]

theorem Fetched.goodIssue {e : Dev} (he : Fetched d e) (h : GoodIssue t a d) : GoodIssue t a e := by
  rw [GoodIssue, he.issuedWord]
  exact h

theorem Fetched.enginesDone {e : Dev} (he : Fetched d e) (t m : Nat) : enginesDone t m e = Machine.enginesDone t m d := by
  rw [he.1]; rfl

end

/-! ## The end of a segment (R135) -/

theorem getTile_dropWatch_core (u t : Nat) (d : Dev) : getTile u (dropWatch (.core t) d) = getTile u d := rfl

/-- A tile whose segment has ended. -/
def endedTile (x : Tile) : Tile := { x with wait := .free, seg := x.seg.map fun g => { g with ended := true } }

theorem getTile_endSegment (t u : Nat) (d : Dev) : getTile u (endSegment t d) = if u = t then endedTile (getTile t d) else getTile u d :=
  getTile_modTile t u endedTile d

theorem waitFrame_endSegment (t : Nat) (d : Dev) : WaitFrame t d (endSegment t d) :=
  (tileFrame_modTile t endedTile d).wait.trans (waitFrame_dropWatch t (.core t) _)

/-! ## Releases (R138, R151, R191, R192) -/

section
variable {t i m a c r : Nat} {p : Bool} {x : Nat} {d : Dev}

section
variable (hlive : coreLive t d = true)
include hlive

theorem cwaitRelease_of_counter (hwait : (getTile t d).wait = .counter p i x) (hmet : waitMet t p i x d = true) :
    cwaitRelease t d = advance t (freeCore t d) := by
  simp only [cwaitRelease, hlive, hwait, hmet, if_true]

theorem cwaitRelease_of_timed (hwait : (getTile t d).wait = .timed p i x r c) (hmet : waitMet t p i x d = true) :
    cwaitRelease t d = writeNext t r 0 (freeCore t d) := by
  simp only [cwaitRelease, hlive, hwait, hmet, if_true]

theorem cwaittTimeout_of_due (hwait : (getTile t d).wait = .timed p i x r c) (hshort : waitMet t p i x d = false)
    (hdue : c ≤ ccNow d) : cwaittTimeout t d = writeNext t r 1 (dropWatch (.core t) (freeCore t d)) := by
  simp only [cwaittTimeout, hlive, hwait, hshort, hdue, and_self, if_true]

theorem waiteRelease_of_done (hwait : (getTile t d).wait = .engines m) (hdone : enginesDone t m d = true) :
    waiteRelease t d = advance t (freeCore t d) := by
  simp only [waiteRelease, hlive, hwait, hdone, if_true]

theorem issueResume_of_room (hwait : (getTile t d).wait = .issueFull a)
    (hroom : (queueOf t (wEng (issuedWord t a d)) d).length < queueDepth (wEng (issuedWord t a d))) :
    issueResume t d = issueWord t a (freeCore t d) := by
  simp only [issueResume, hlive, hwait, if_true]
  exact if_pos hroom

end

theorem not_watching_dropWatch (w : Waiter) (d : Dev) : watching w (dropWatch w d) = false := by
  simp [watching, dropWatch]

end

/-- A tile whose core goes on with the next instruction. -/
def goneOn (x : Tile) : Tile := { x with wait := .free, pc := x.pc + 4 }

section
variable {t : Nat} {d y f : Dev} (hy : Fetched d y) (hwait : WaitFrame t y f) (hfree : getTile t f = { getTile t d with wait := .free })
include hy hwait hfree

/-- What a released core leaves that goes on with the next instruction. -/
theorem advanced_effect : getTile t (settle (untagged (advance t f))) = goneOn (getTile t d) ∧
    CoreWaitFrame t d (settle (untagged (advance t f))) := by
  refine ⟨?_, (hwait.trans (tileFrame_advance t f).wait).coreWaitFrame hy (advance t f).ev⟩
  rw [getTile_settle, getTile_untagged, getTile_advance, hfree]
  rfl

/-- The same where it writes a register first. -/
theorem written_effect (r : Nat) (v : BitVec 64) :
    (∀ j, readG t j (settle (untagged (writeNext t r v f))) = if j = r ∧ r ≠ 0 then v else readG t j d) ∧
    getTile t (settle (untagged (writeNext t r v f))) =
      { goneOn (getTile t d) with g := (getTile t (settle (untagged (writeNext t r v f)))).g } ∧
    CoreWaitFrame t d (settle (untagged (writeNext t r v f))) := by
  refine ⟨fun j => ?_, ?_, (hwait.trans (tileFrame_writeNext t r v f).wait).coreWaitFrame hy (writeNext t r v f).ev⟩
  · exact (readG_writeNext t r j v f).trans (by rw [readG_of_tile (d := d) (by rw [hfree])])
  · rw [getTile_settle, getTile_untagged, getTile_writeNext, hfree]
    rfl

end

section
variable {t : Nat} {d f : Dev} (hfree : getTile t f = { getTile t d with wait := .free })
include hfree

theorem issuedWord_of_freed (a : Nat) : issuedWord t a f = issuedWord t a d := by
  have regs (j : Nat) : readG t j f = readG t j d := readG_of_tile (by rw [hfree]) j
  simp only [issuedWord, regs]

theorem queueOf_of_freed (k : Nat) : queueOf t k f = queueOf t k d := by rw [queueOf, hfree, queueOf]

theorem issuedEntry_of_freed (a : Nat) : issuedEntry t a f = issuedEntry t a d := by
  have regs (j : Nat) : readG t j f = readG t j d := readG_of_tile (by rw [hfree]) j
  simp only [issuedEntry, issuedWord_of_freed hfree, regs, coreTenant, hfree]

theorem GoodIssue.freed {a : Nat} (h : GoodIssue t a d) : GoodIssue t a f := by
  rw [GoodIssue, issuedWord_of_freed hfree]
  exact h

end

end Sys2Proof.Machine

namespace Sys2Proof.Proofs
open Sys2Proof.Machine

/-- Settles O7: an issue by the room in its queue, a wait for engines by whether they are done, an end by what it leaves. -/
theorem coreIssue : Obligations.CoreIssue := by
  unfold Obligations.CoreIssue
  intro s t d x
  refine ⟨fun a h heven hgood hadd => ⟨fun hroom => ?_, fun hfull => ?_⟩, fun u m h => ⟨fun hdone => ?_, fun hbusy => ?_⟩, fun h => ?_⟩
  · refine completes_coreRow_of_fetched (x := a) rfl h rfl fun e he b => ?_
    rw [issueWord_of_room (he.goodIssue ⟨heven, hgood, hadd⟩) (by rw [he.issuedWord, he.queueOf]; exact hroom)]
    have queue (k : Nat) := queueOf_issueGoesOn t a.toNat k e
    have tile := getTile_issueGoesOn t a.toNat e
    simp only [he.queueOf, he.issuedWord, he.issuedEntry, he.getTile] at queue tile
    refine ⟨⟨issuedEntry t a.toNat d, (queue _).trans (if_pos rfl), rfl, rfl, rfl, rfl⟩,
      fun k hk => (queue k).trans (if_neg hk), ?_, (tileFrame_issueGoesOn ..).coreFrame he b⟩
    rw [getTile_settle, getTile_untagged]
    exact tile ▸ rfl
  · exact completes_hold (x := a) rfl h rfl fun e he =>
      issueWord_of_full (he.goodIssue ⟨heven, hgood, hadd⟩) (by rw [he.issuedWord, he.queueOf]; exact hfull)
  · exact completes_coreRow (x := m) rfl h rfl fun e he => by
      rw [he.enginesDone, if_pos hdone, writeNext, writeG_zero]
  · exact completes_hold (x := m) rfl h rfl fun e he => by
      rw [he.enginesDone, if_neg (Bool.eq_false_iff.1 hbusy)]
  · refine completes_coreRow_of_fetched (x := ()) rfl h rfl fun e he b => ?_
    have tile (u : Nat) : getTile u (endSegment t (traceEnd t e)) = if u = t then endedTile (getTile t d) else getTile u d := by
      simp only [getTile_endSegment, getTile_congr (traceEnd_tiles t e), he.getTile]; rfl
    refine ⟨(tile t).trans (if_pos rfl), fun u hu => (tile u).trans (if_neg hu), fun hoff => ?_⟩
    rw [traceEnd_of_untraced ((he.tracing t).trans hoff)]
    exact (waitFrame_endSegment t e).coreWaitFrame he b

/-- Settles O6: each release by what its core waits for. -/
theorem coreReleases : Obligations.CoreReleases := by
  unfold Obligations.CoreReleases
  intro s t d x ht hlive hoff
  have off (y : Dev) (hy : Fetched d y) : tracing t y = false := (hy.tracing t).trans hoff
  have freed (y : Dev) (hy : Fetched d y) : getTile t (freeCore t y) = { getTile t d with wait := .free } := by
    rw [getTile_freeCore (off y hy), hy.getTile]
  have frame (y : Dev) (hy : Fetched d y) := waitFrame_freeCore (off y hy)
  let tagged := tagWork (segFrames t d) d
  refine ⟨fun p i e hwait hmet => ?counter, fun p i e r c hwait hmet => ?timed, fun p i e r c hwait hshort hdue => ?late,
    fun m hwait hdone => ?engines, fun a hwait heven hgood hadd hroom => ?issue⟩
  case counter =>
    exact completes_release (fun y => advance t (freeCore t y)) ht rfl (cwaitRelease_of_counter (d := tagged) hlive hwait hmet)
      fun y hy => advanced_effect hy (frame y hy) (freed y hy)
  case engines =>
    exact completes_release (fun y => advance t (freeCore t y)) ht rfl (waiteRelease_of_done (d := tagged) hlive hwait hdone)
      fun y hy => advanced_effect hy (frame y hy) (freed y hy)
  case timed =>
    refine completes_release (fun y => writeNext t r 0 (freeCore t y)) ht rfl
      (cwaitRelease_of_timed (d := tagged) hlive hwait hmet) fun y hy => ?_
    obtain ⟨regs, tile, others⟩ := written_effect hy (frame y hy) (freed y hy) r 0
    refine ⟨?_, fun j hj => (regs j).trans (if_neg (hj ·.1)), tile, others⟩
    by_cases hr : r = 0
    · rw [hr]; rfl
    · exact (regs r).trans (if_pos ⟨rfl, hr⟩)
  case late =>
    refine completes_release (fun y => writeNext t r 1 (dropWatch (.core t) (freeCore t y))) ht rfl
      (cwaittTimeout_of_due (d := tagged) hlive hwait hshort hdue) fun y hy => ?_
    obtain ⟨regs, tile, others⟩ := written_effect hy ((frame y hy).trans (waitFrame_dropWatch t (.core t) _))
      ((getTile_dropWatch_core t t _).trans (freed y hy)) r 1
    refine ⟨fun hr => (regs r).trans (if_pos ⟨rfl, hr⟩), fun j hj => (regs j).trans (if_neg (hj ·.1)), ?_, tile, others⟩
    have watches := (tileFrame_writeNext t r 1 (dropWatch (.core t) (freeCore t y))).1
    rw [watches]
    exact not_watching_dropWatch (.core t) (freeCore t y)
  case issue =>
    have good : GoodIssue t a tagged := ⟨heven, hgood, hadd⟩
    have tile := freed tagged (fetched_tagWork _ d)
    refine completes_release (fun y => issueGoesOn t a (freeCore t y)) ht rfl
      ((issueResume_of_room (d := tagged) hlive hwait hroom).trans (issueWord_of_room (good.freed tile)
        (by rw [issuedWord_of_freed tile, queueOf_of_freed tile]; exact hroom))) fun y hy => ?_
    have queue := queueOf_issueGoesOn t a (wEng (issuedWord t a d)) (freeCore t y)
    have tile := getTile_issueGoesOn t a (freeCore t y)
    simp only [queueOf_of_freed (freed y hy), issuedWord_of_freed (freed y hy), issuedEntry_of_freed (freed y hy), if_true] at queue tile
    refine ⟨⟨issuedEntry t a d, queue, rfl, rfl, rfl⟩, ?_,
      ((frame y hy).trans (tileFrame_issueGoesOn t a _).wait).coreWaitFrame hy (issueGoesOn t a (freeCore t y)).ev⟩
    rw [getTile_settle, getTile_untagged, tile, freed y hy]

end Sys2Proof.Proofs
end

section
/-!
PROOFS. The words of the compute engines: configuration words (R144) and compute words of the matrix array and the matrix-vector unit
(R143), at the head of their queue and once they hold their cue.
-/
namespace Sys2Proof.Machine

/-! ## Configuration words (R144) -/

/-- A dispatch changes the queues and the words in execution of its tile. -/
theorem getTile_dispatchHead (t e : Nat) (phase : WordPhase) (d : Dev) : getTile t (dispatchHead t e phase d) = { getTile t d with
    queues := (getTile t (dispatchHead t e phase d)).queues, exec := (getTile t (dispatchHead t e phase d)).exec } := by
  unfold dispatchHead
  split
  · rfl
  · rw [setExec, getTile_modTile_same, dropHead, setQueue, getTile_modTile_same]

section
variable {t e op res : Nat} {q : QWord} {d : Dev}

theorem configWord_of_head (hhead : headOf t e d = some q) (hctx : q.ctx ≠ 1) : configWord t e op res d = configHead t e op res q d := by
  rw [configWord, hhead]
  exact forRank_own hctx _ d

/-- The device once configuration word `q` has written the state of OP `op`. -/
def configured (t e op : Nat) (q : QWord) (d : Dev) : Dev :=
  modTile t (fun x => { x with cfg := Sparse.set 0 x.cfg (cfgKey q.ctx e op) (q.word.extractLsb' 32 96) }) (dispatchHead t e .done d)

section
variable (hop : wOp q.word = op) (hrun : enginesRun t d = true) (hfree : engineFree t e d = true)
include hop hrun hfree

theorem configHead_of_bad_field (hbad : wField q.word res (128 - res) ≠ 0 ∨ cueBad q.word = true) :
    configHead t e op res q d = rejectHead t e 1 evWordField d := by
  rw [configHead, if_pos ⟨hop, hrun, hfree⟩, if_pos hbad, wordField]

variable (hfield : wField q.word res (128 - res) = 0) (hcue : cueBad q.word = false)
include hfield hcue

theorem configHead_of_short (h : CounterShort t q d) : configHead t e op res q d = d := by
  rw [configHead, if_pos ⟨hop, hrun, hfree⟩, if_neg (by simp [hfield, hcue]), headWait_of_short h]

theorem configHead_of_met (h : CounterMet t q d) : configHead t e op res q d = configured t e op q d := by
  rw [configHead, if_pos ⟨hop, hrun, hfree⟩, if_neg (by simp [hfield, hcue]), headWait_of_met h, configured]

end

theorem getTile_configured (t e op : Nat) (q : QWord) (d : Dev) : getTile t (configured t e op q d) = { getTile t d with
    cfg := Sparse.set 0 (getTile t d).cfg (cfgKey q.ctx e op) (q.word.extractLsb' 32 96)
    queues := (getTile t (dispatchHead t e .done d)).queues, exec := (getTile t (dispatchHead t e .done d)).exec } := by
  rw [configured, getTile_modTile_same, getTile_dispatchHead]

theorem configured_rest (t e op : Nat) (q : QWord) (d : Dev) : getTile t (configured t e op q d) = { getTile t d with
    cfg := (getTile t (configured t e op q d)).cfg, queues := (getTile t (configured t e op q d)).queues
    exec := (getTile t (configured t e op q d)).exec } := by
  rw [getTile_configured]

theorem queueOf_configured (t e op : Nat) (q : QWord) (d : Dev) (k : Nat) :
    queueOf t k (configured t e op q d) = queueOf t k (dispatchHead t e .done d) := by
  rw [queueOf, getTile_configured, queueOf]

theorem execOf_configured (t e op : Nat) (q : QWord) (d : Dev) (k : Nat) :
    execOf t k (configured t e op q d) = execOf t k (dispatchHead t e .done d) := by
  rw [execOf, getTile_configured, execOf]

theorem cfg_configured (t e op : Nat) (q : QWord) (d : Dev) (k : Nat) : Sparse.get 0 (getTile t (configured t e op q d)).cfg k =
    if k = cfgKey q.ctx e op then q.word.extractLsb' 32 96 else Sparse.get 0 (getTile t d).cfg k := by
  rw [getTile_configured]
  exact Sparse.get_set 0 _ _ _ _

theorem getTile_configured_other {u : Nat} (hu : u ≠ t) : getTile u (configured t e op q d) = getTile u d := by
  rw [configured, getTile_modTile, if_neg hu, getTile_dispatchHead_other _ hu]

theorem configured_frame (t e op : Nat) (q : QWord) (d : Dev) :
    configured t e op q d = { d with tiles := (configured t e op q d).tiles } := by
  rw [configured, dispatchHead_frame]
  rfl

end

/-- A configuration word at the head of its queue, by its fields and its counter. -/
theorem configWord_cases {s : State} {t e op res : Nat} {q : QWord} {c : Instr} (hc : exec c s = onTile t (configWord t e op res) s)
    (h : AtHead t e q s.dev) (hop : wOp q.word = op) :
    (wField q.word res (128 - res) ≠ 0 ∨ cueBad q.word = true → Answers c s (asTile t (rejectHead t e 1 evWordField) s.dev)) ∧
    (wField q.word res (128 - res) = 0 → cueBad q.word = false →
      (CounterMet t q s.dev → Answers c s (asTile t (configured t e op q) s.dev)) ∧
      (CounterShort t q s.dev → Answers c s (untagged s.dev))) := by
  obtain ⟨ht, hrun, hfree, hhead, hctx⟩ := h
  have taken : configWord t e op res (tagWork (segFrames t s.dev) s.dev) = configHead t e op res q (tagWork (segFrames t s.dev) s.dev) :=
    configWord_of_head hhead hctx
  exact ⟨fun hbad => answers_onTile_of_eq ht hc (taken.trans (configHead_of_bad_field hop hrun hfree hbad)),
    fun hfield hcue => ⟨fun hmet => answers_onTile_of_eq ht hc (taken.trans (configHead_of_met hop hrun hfree hfield hcue hmet)),
      fun hshort => answers_onTile_of_eq (g := id) ht hc (taken.trans (configHead_of_short hop hrun hfree hfield hcue hshort))⟩⟩

theorem Answers.completes {c : Instr} {s : State} {d' : Dev} {P : Dev → Prop} (h : Answers c s d') (hp : P (settle d')) :
    Completes c s P := ⟨settle d', h, hp⟩

/-! ## Compute words (R143) -/

section
variable {t e reserved : Nat} {check : Nat → QWord → Dev → Option Nat} {run : Nat → QWord → Dev → Dev} {q : QWord} {d : Dev}

/-- An engine that is free between words grants none. -/
theorem none_granted_of_free (h : engineFree t e d = true) : (execOf t e d).find? (fun x => x.phase == .granted) = none := by
  rw [List.find?_eq_none]
  intro x hx hgranted
  have done := List.all_eq_true.1 h x hx
  rw [beq_iff_eq] at hgranted
  simp [hgranted] at done

theorem computeRow_of_head (hrun : enginesRun t d = true) (hfree : engineFree t e d = true) (hhead : headOf t e d = some q)
    (hctx : q.ctx ≠ 1) : computeRow e reserved check run t d = computeHead e reserved check t q d := by
  rw [computeRow, hrun, none_granted_of_free hfree, hhead]
  exact forRank_own hctx _ d

theorem computeRow_of_granted (hrun : enginesRun t d = true) (hctx : q.ctx ≠ 1)
    (hgranted : (execOf t e d).find? (fun x => x.phase == .granted) = some q) : computeRow e reserved check run t d =
      if rowsHeld t [1 - e, 2] q d then d else finishWord t e q.number true 0 (run t q d) := by
  rw [computeRow, hrun, hgranted]
  simp only [forRank_own hctx]
  rfl

section
variable (hfree : engineFree t e d = true)
include hfree

theorem computeHead_of_reserved (hop : wOp q.word ≠ 0) (hres : reserved ≤ wOp q.word) :
    computeHead e reserved check t q d = rejectHead t e 1 evWordField d := by
  rw [computeHead, if_pos (by simp [hfree, hres]), if_pos hop, wordField]

variable (hop : wOp q.word = 0)
include hop

theorem computeHead_of_op : computeHead e reserved check t q d =
    match check t q d with
    | some num => rejectHead t e 1 num d
    | none =>
      match headWait t q d with
      | (false, d1) => d1
      | (true, d1) => requestCue t e q (dispatchHead t e .waitCue d1) :=
  (if_pos (by simp [hfree, hop])).trans (if_neg (not_not.2 hop))

theorem computeHead_of_failed {num : Nat} (h : check t q d = some num) : computeHead e reserved check t q d = rejectHead t e 1 num d := by
  rw [computeHead_of_op hfree hop, h]

theorem computeHead_of_short (hcheck : check t q d = none) (h : CounterShort t q d) : computeHead e reserved check t q d = d := by
  rw [computeHead_of_op hfree hop, hcheck, headWait_of_short h]

theorem computeHead_of_met (hcheck : check t q d = none) (h : CounterMet t q d) :
    computeHead e reserved check t q d = requestCue t e q (dispatchHead t e .waitCue d) := by
  rw [computeHead_of_op hfree hop, hcheck, headWait_of_met h]

end

/-- A compute word at the head of its queue, by its OP, its check and its counter; and one that holds its cue. -/
theorem computeRow_cases {s : State} {c : Instr} (hc : exec c s = onTile t (computeRow e reserved check run t) s)
    (hcheck : check t q (tagWork (segFrames t s.dev) s.dev) = check t q s.dev) :
    (AtHead t e q s.dev → reserved ≤ wOp q.word → wOp q.word ≠ 0 → Answers c s (asTile t (rejectHead t e 1 evWordField) s.dev)) ∧
    (AtHead t e q s.dev → wOp q.word = 0 →
      (∀ num, check t q s.dev = some num → Answers c s (asTile t (rejectHead t e 1 num) s.dev)) ∧
      (check t q s.dev = none → CounterShort t q s.dev → Answers c s (untagged s.dev)) ∧
      (check t q s.dev = none → CounterMet t q s.dev →
        Answers c s (asTile t (fun x => requestCue t e q (dispatchHead t e .waitCue x)) s.dev))) ∧
    (t < 128 → enginesRun t s.dev = true → q.ctx ≠ 1 → (execOf t e s.dev).find? (fun x => x.phase == .granted) = some q →
      (rowsHeld t [1 - e, 2] q s.dev = true → Answers c s (untagged s.dev)) ∧
      (rowsHeld t [1 - e, 2] q s.dev = false →
        Answers c s (asTile t (fun x => finishWord t e q.number true 0 (run t q x)) s.dev))) := by
  let tagged := tagWork (segFrames t s.dev) s.dev
  refine ⟨fun h hres hop => ?_, fun h hop => ?_, fun ht hrun hctx hgranted => ?_⟩
  · obtain ⟨ht, hrun, hfree, hhead, hctx⟩ := h
    exact answers_onTile_of_eq ht hc ((computeRow_of_head (d := tagged) hrun hfree hhead hctx).trans (computeHead_of_reserved hfree hop hres))
  · obtain ⟨ht, hrun, hfree, hhead, hctx⟩ := h
    have taken : computeRow e reserved check run t tagged = computeHead e reserved check t q tagged :=
      computeRow_of_head hrun hfree hhead hctx
    exact ⟨fun num hnum => answers_onTile_of_eq ht hc (taken.trans (computeHead_of_failed (d := tagged) hfree hop (hcheck.trans hnum))),
      fun hnone hshort => answers_onTile_of_eq (g := id) ht hc (taken.trans (computeHead_of_short hfree hop (hcheck.trans hnone) hshort)),
      fun hnone hmet => answers_onTile_of_eq ht hc (taken.trans (computeHead_of_met hfree hop (hcheck.trans hnone) hmet))⟩
  · have taken : computeRow e reserved check run t tagged =
        if rowsHeld t [1 - e, 2] q s.dev then tagged else finishWord t e q.number true 0 (run t q tagged) :=
      computeRow_of_granted hrun hctx hgranted
    exact ⟨fun hheld => answers_onTile_of_eq (g := id) ht hc (taken.trans (if_pos hheld)),
      fun hclear => answers_onTile_of_eq ht hc (taken.trans (if_neg (Bool.eq_false_iff.1 hclear)))⟩

end

end Sys2Proof.Machine

namespace Sys2Proof.Proofs
open Sys2Proof.Machine

/-- Settles O15: the six words differ in their engine, OP and reserved bits alone. -/
theorem configurationWords : Obligations.ConfigurationWords := by
  unfold Obligations.ConfigurationWords
  rintro s _ t q rfl config
  have row (c : Instr) (e op res : Nat) (hc : exec c s = onTile t (configWord t e op res) s) : config c e op res := by
    intro hhead hop
    obtain ⟨bad, good⟩ := configWord_cases hc hhead hop
    refine ⟨bad, fun hfield hcue => ?_⟩
    obtain ⟨met, short⟩ := good hfield hcue
    refine ⟨fun hmet => (met hmet).completes ?_, short⟩
    obtain ⟨-, -, -, hhead, -⟩ := hhead
    let tagged := tagWork (segFrames t s.dev) s.dev
    have cfg := cfg_configured t e op q tagged
    refine ⟨(cfg _).trans (if_pos rfl), fun k hk => (cfg k).trans (if_neg hk), ?_, ?_, ?_, fun x hx => getTile_configured_other hx, ?_⟩
    · exact (queueOf_configured t e op q tagged e).trans (queueOf_dispatchHead (d := tagged) .done hhead)
    · exact (execOf_configured t e op q tagged e).trans (execOf_dispatchHead (d := tagged) .done hhead)
    · exact configured_rest t e op q tagged
    · rw [asTile, configured_frame]
      rfl
  exact ⟨row _ 0 1 82 rfl, row _ 0 2 100 rfl, row _ 1 1 100 rfl, row _ 2 2 96 rfl, row _ 2 3 96 rfl, row _ 2 4 100 rfl⟩

/-- Settles O16: the array and the matrix-vector unit differ in their engine, reserved OPs, check and run alone. -/
theorem computeWords : Obligations.ComputeWords := by
  unfold Obligations.ComputeWords
  rintro s _ t q rfl compute
  exact ⟨computeRow_cases rfl rfl, computeRow_cases rfl rfl⟩

end Sys2Proof.Proofs
end

section
/-!
PROOFS. The retirement of an engine word with its signal (R143 step 6, R190, Table 6.5).
-/
namespace Sys2Proof.Machine

/-- The first word of an engine that has done its work. -/
def firstFinished (t e : Nat) (d : Dev) : Option QWord := (execOf t e d).find? fun q => q.phase == .done || q.phase == .failed

/-- The device once word `q` has left execution, before its signal. -/
def retired (t e : Nat) (q : QWord) (d : Dev) : Dev :=
  setExec t e ((execOf t e d).filter fun x => x.number != q.number) (if e = 4 then endReservation t q.number d else d)

section
variable {t e : Nat} {q : QWord} {d : Dev}

theorem wordRetire_of_none (h : firstFinished t e d = none) : wordRetire t e d = d := by
  rw [wordRetire, show (execOf t e d).find? (fun q => q.phase == .done || q.phase == .failed) = none from h]

theorem wordRetire_of_some (h : firstFinished t e d = some q) : wordRetire t e d =
    (fun f => match q.reel with
      | some (r, s) => setDescStatus r s q.status q.code f
      | none => f)
      (if q.phase = .done ∧ t < 128 then forRank (q.ctx == 1) (signalWord t q) (retired t e q d) else retired t e q d) := by
  rw [wordRetire, show (execOf t e d).find? (fun q => q.phase == .done || q.phase == .failed) = some q from h]
  rfl

/-- A finished word that signals nothing: it failed, its SCTR names none, or it is the network interface's. -/
theorem wordRetire_of_silent (h : firstFinished t e d = some q) (hreel : q.reel = none) (hctx : q.ctx ≠ 1)
    (hsilent : q.phase = .failed ∨ wSctr q.word = 63) : wordRetire t e d = retired t e q d := by
  rw [wordRetire_of_some h, hreel]
  dsimp only
  split
  case isFalse => rfl
  case isTrue hdone =>
    have none63 : wSctr q.word = 63 := hsilent.resolve_left (by rw [hdone.1]; decide)
    rw [forRank_own hctx, signalWord, if_pos none63]

theorem wordRetire_of_signal (h : firstFinished t e d = some q) (hreel : q.reel = none) (hctx : q.ctx ≠ 1)
    (hdone : q.phase = .done) (ht : t < 128) : wordRetire t e d = signalWord t q (retired t e q d) := by
  rw [wordRetire_of_some h, hreel]
  dsimp only
  rw [if_pos ⟨hdone, ht⟩, forRank_own hctx]

theorem wordRetire_of_reel {r n : Nat} (h : firstFinished t e d = some q) (hreel : q.reel = some (r, n)) (ht : ¬ t < 128) :
    wordRetire t e d = setDescStatus r n q.status q.code (retired t e q d) := by
  rw [wordRetire_of_some h, hreel]
  dsimp only
  rw [if_neg (ht ·.2)]

/-! ## What a retired word leaves -/

/-- The end of a reservation leaves every field of the tile but the sequencer's own. -/
theorem getTile_endReservation (t number : Nat) (d : Dev) : getTile t (endReservation t number d) = { getTile t d with
    seqs := (getTile t (endReservation t number d)).seqs, seqLast := (getTile t (endReservation t number d)).seqLast } := by
  rw [endReservation, getTile_modTile_same]

theorem tileFrame_retired (t e : Nat) (q : QWord) (d : Dev) : TileFrame t d (retired t e q d) := by
  unfold retired
  refine TileFrame.trans ?_ (tileFrame_modTile t _ _)
  split
  · exact tileFrame_modTile t _ d
  · exact .refl t d

/-- A retired word changes its own engine's words in execution and the sequencer's runs. -/
theorem getTile_retired (t e : Nat) (q : QWord) (d : Dev) : getTile t (retired t e q d) = { getTile t d with
    exec := Sparse.set [] (getTile t d).exec e ((execOf t e d).filter fun x => x.number != q.number)
    seqs := (getTile t (retired t e q d)).seqs, seqLast := (getTile t (retired t e q d)).seqLast } := by
  rw [retired, setExec, getTile_modTile_same]
  split
  · rw [getTile_endReservation]
  · rfl

theorem execOf_retired (t e : Nat) (q : QWord) (d : Dev) (k : Nat) : execOf t k (retired t e q d) =
    if k = e then (execOf t e d).filter fun x => x.number != q.number else execOf t k d := by
  rw [execOf, getTile_retired]
  exact Sparse.get_set [] _ _ _ _

theorem queueOf_retired (t e : Nat) (q : QWord) (d : Dev) (k : Nat) : queueOf t k (retired t e q d) = queueOf t k d := by
  rw [queueOf, getTile_retired, queueOf]

theorem localValue_retired (t e : Nat) (q : QWord) (d : Dev) (i : Nat) : localValue t i (retired t e q d) = localValue t i d := by
  rw [localValue, getTile_retired, localValue]

theorem localPoisoned_retired (t e : Nat) (q : QWord) (d : Dev) (i : Nat) :
    localPoisoned t i (retired t e q d) = localPoisoned t i d := by
  rw [localPoisoned, getTile_retired, localPoisoned]

theorem ctr_retired (t e : Nat) (q : QWord) (d : Dev) : (retired t e q d).ctr = d.ctr := by rw [(tileFrame_retired t e q d).1]

theorem tileFrame_localAdded (t i v : Nat) (d : Dev) : TileFrame t d (localAdded t i v d) := tileFrame_modTile t _ d

theorem getTile_localAdded (t i v : Nat) (d : Dev) : getTile t (localAdded t i v d) = { getTile t d with
    lc := Sparse.set 0 (getTile t d).lc i (BitVec.ofNat 64 (localValue t i d + v)) } := by
  rw [localAdded, getTile_modTile_same]

theorem localValue_localAdded_all {i v : Nat} (h : localValue t i d + v < 2 ^ 64) (j : Nat) :
    localValue t j (localAdded t i v d) = localValue t j d + if j = i then v else 0 := by
  split
  · subst_vars; exact localValue_localAdded h
  · rw [localValue, getTile_localAdded, localValue, Sparse.get_set_other _ _ _ ‹_›, Nat.add_zero]
    rfl

theorem signalWord_of_sound (hsctr : wSctr q.word ≠ 63) (hsound : Sparse.get 0 d.ctr.err (t * 64 + wSctr q.word) = 0)
    (hpoison : localPoisoned t (wSctr q.word) d = false) (hfits : localValue t (wSctr q.word) d + (wSadd q.word + 1) < 2 ^ 64) :
    signalWord t q d = localAdded t (wSctr q.word) (wSadd q.word + 1) d := by
  rw [signalWord, if_neg hsctr, localAdd_of_sound hsound hpoison hfits]

/-- What leaves execution with word `q`: the word alone, of its engine's; every queue and every other tile stay. -/
def Leaves (t e : Nat) (q : QWord) (d d' : Dev) : Prop :=
  (∀ k, execOf t k d' = if k = e then (execOf t e d).filter fun x => x.number != q.number else execOf t k d) ∧
    (∀ k, queueOf t k d' = queueOf t k d) ∧ TileFrame t d d'

theorem leaves_retired (t e : Nat) (q : QWord) (d : Dev) : Leaves t e q d (retired t e q d) :=
  ⟨execOf_retired t e q d, queueOf_retired t e q d, tileFrame_retired t e q d⟩

theorem Leaves.localAdded {f : Dev} (h : Leaves t e q d f) (i v : Nat) : Leaves t e q d (localAdded t i v f) := by
  obtain ⟨exec, queues, frame⟩ := h
  refine ⟨fun k => .trans ?_ (exec k), fun k => .trans ?_ (queues k), frame.trans (tileFrame_localAdded t i v f)⟩
  · rw [execOf, getTile_localAdded, execOf]
  · rw [queueOf, getTile_localAdded, queueOf]

end

end Sys2Proof.Machine

namespace Sys2Proof.Proofs
open Sys2Proof.Machine

/-- Settles O19: a finished word leaves execution, then signals or reports. -/
theorem wordRetirement : Obligations.WordRetirement := by
  unfold Obligations.WordRetirement
  rintro s _ t e rfl ht he first out
  have ok : (decide (t ≤ 128) && decide (e < 7)) = true := by simp [ht, he]
  have left (q : QWord) (f : Dev) (h : Leaves t e q s.dev f) : out q (settle f) := by
    obtain ⟨exec, queues, frame, others⟩ := h
    refine ⟨fun _ => (exec e).trans (if_pos rfl), fun k hk => (exec k).trans (if_neg hk), queues, others, ?_⟩
    rw [frame]
    rfl
  refine ⟨fun hnone => answers_onDev ok rfl (wordRetire_of_none hnone), fun q hq hreel hctx => ⟨fun hsilent => ?_,
    fun hdone ht hsctr hsound hpoison hfits => ?_⟩, fun q r n hq hreel ht he4 => ?_⟩
  · refine (answers_onDev ok rfl (wordRetire_of_silent hq hreel hctx hsilent)).completes ?_
    exact ⟨left q _ (leaves_retired t e q s.dev), localValue_retired t e q s.dev⟩
  · have fits : localValue t (wSctr q.word) (retired t e q s.dev) + (wSadd q.word + 1) < 2 ^ 64 := by
      rw [localValue_retired]
      exact hfits
    refine (answers_onDev ok rfl ((wordRetire_of_signal hq hreel hctx hdone ht).trans (signalWord_of_sound hsctr
      (by rw [ctr_retired]; exact hsound) (by rw [localPoisoned_retired]; exact hpoison) fits))).completes ?_
    refine ⟨left q _ ((leaves_retired t e q s.dev).localAdded _ _), fun i => ?_⟩
    have value := localValue_localAdded_all fits i
    rw [localValue_retired] at value
    exact value
  · refine answers_onDev ok rfl ((wordRetire_of_reel hq hreel (by omega)).trans ?_)
    rw [retired, if_neg he4]

end Sys2Proof.Proofs
end

section
/-!
PROOFS. The finish of a segment (R135) and the switch of a stalled core to its other rank context (R331).
-/
namespace Sys2Proof.Machine

section
variable {t : Nat} {g : Segment} {d : Dev}

/-- The segment of a rank context that has ended and whose words have all retired. -/
def endedSegment (t ctx : Nat) (d : Dev) : Option Segment :=
  match (ctxOf (getTile t d) ctx).seg with
  | some g => if g.ended && ctxDone t ctx 127 d then some g else none
  | none => none

theorem segmentFinished_eq (t : Nat) (d : Dev) : segmentFinished t d =
    match endedSegment t (getTile t d).runCtx d with
    | some g => finishSegment t g d
    | none =>
      match endedSegment t (1 - (getTile t d).runCtx) d with
      | some g => finishSegment t g d
      | none => d := rfl

theorem ctxOf_running (x : Tile) : ctxOf x x.runCtx = { seg := x.seg, nextSegs := x.nextSegs, pc := x.pc, wait := x.wait, g := x.g } :=
  if_pos rfl

theorem endedSegment_of_ended {ctx : Nat} (hseg : (ctxOf (getTile t d) ctx).seg = some g) (hended : g.ended = true)
    (hdone : ctxDone t ctx 127 d = true) : endedSegment t ctx d = some g := by
  simp [endedSegment, hseg, hended, hdone]

theorem endedSegment_of_going {ctx : Nat} (h : ∀ g, (ctxOf (getTile t d) ctx).seg = some g → g.ended = false) :
    endedSegment t ctx d = none := by
  unfold endedSegment
  split
  · simp [h _ ‹_›]
  · rfl

/-- A context is the running one or the other one. -/
theorem ctxOf_seg (x : Tile) (ctx : Nat) : (ctxOf x ctx).seg = x.seg ∨ (ctxOf x ctx).seg = x.other.seg := by
  unfold ctxOf
  split
  · exact .inl rfl
  · exact .inr rfl

theorem segmentFinished_of_none (hseg : ∀ g, (getTile t d).seg = some g → g.ended = false)
    (hother : ∀ g, (getTile t d).other.seg = some g → g.ended = false) : segmentFinished t d = d := by
  have going (ctx : Nat) : endedSegment t ctx d = none := endedSegment_of_going fun g hg => by
    rcases ctxOf_seg (getTile t d) ctx with hrun | hwaits
    · exact hseg g (hrun.symm.trans hg)
    · exact hother g (hwaits.symm.trans hg)
  rw [segmentFinished_eq, going, going]

/-! ## A segment that nothing observes, mirrors or waits behind -/

theorem watchEvaluation_of_unobserved (h : g.observed = false) : watchEvaluation t g d = d := by
  simp [watchEvaluation, h]

theorem emitActivity_of_unobserved (h : g.observed = false) : emitActivity t g d = d := by
  simp [emitActivity, h]

theorem sendSnapshot_of_unmirrored (h : mirroring d = false) : sendSnapshot t g d = d := by
  simp [sendSnapshot, mirrorsCtx, h]

theorem nextSegment_of_none_waiting {ctx : Nat} (h : (ctxOf (getTile t d) ctx).nextSegs = []) : nextSegment t ctx d = d := by
  simp only [nextSegment, h]
  split
  · rename_i hnext; cases hnext
  · rfl

/-- A tile whose running context holds no segment. -/
def vacated (x : Tile) : Tile := { x with seg := none, wait := .free }

theorem modCtx_running {f : CoreCtx → CoreCtx} (h : g.ctx = (getTile t d).runCtx) :
    modCtx t g.ctx f d = setTile t (withCtx (getTile t d) (getTile t d).runCtx (f (ctxOf (getTile t d) (getTile t d).runCtx))) d := by
  rw [h]
  rfl

theorem finishSegment_of_plain (hctx : g.ctx = (getTile t d).runCtx) (hobs : g.observed = false) (hmirror : mirroring d = false)
    (hnext : (getTile t d).nextSegs = []) : finishSegment t g d = modTile t vacated d := by
  have vacates : modCtx t g.ctx (fun c => { c with seg := none, wait := .free }) d = modTile t vacated d := by
    rw [modCtx_running hctx, withCtx, if_pos rfl, ctxOf_running]
    rfl
  have waiting : (ctxOf (getTile t (modTile t vacated d)) g.ctx).nextSegs = [] := by
    rw [getTile_modTile_same, hctx]
    exact (congrArg CoreCtx.nextSegs (ctxOf_running (vacated (getTile t d)))).trans hnext
  rw [finishSegment, watchEvaluation_of_unobserved hobs, emitActivity_of_unobserved hobs]
  rw [sendSnapshot_of_unmirrored hmirror, vacates, nextSegment_of_none_waiting waiting]

/-! ## The switch between rank contexts (R331) -/

theorem contextSwitch_of_ready (hstate : d.twin.state = 5 ∨ d.twin.state = 6) (hstalled : ctxStalled t d = true)
    (hready : ctxReady t d = true) (hfatal : d.fatal = false) : contextSwitch t d = swapCtx t d :=
  if_pos ⟨hstate, hstalled, hready, hfatal⟩

theorem contextSwitch_of_other_state (h5 : d.twin.state ≠ 5) (h6 : d.twin.state ≠ 6) : contextSwitch t d = d :=
  if_neg fun h => h.1.elim h5 h6

/-- A tile whose rank contexts have changed places. -/
def swapped (x : Tile) : Tile := { x with
  runCtx := 1 - x.runCtx, seg := x.other.seg, nextSegs := x.other.nextSegs, pc := x.other.pc, wait := x.other.wait, g := x.other.g
  other := { seg := x.seg, nextSegs := x.nextSegs, pc := x.pc, wait := x.wait, g := x.g } }

theorem getTile_swapCtx (t u : Nat) (d : Dev) : getTile u (swapCtx t d) = if u = t then swapped (getTile t d) else getTile u d :=
  getTile_modTile t u swapped d

theorem swapCtx_effect (t : Nat) (d : Dev) : getTile t (swapCtx t d) = swapped (getTile t d) ∧
    (∀ u, u ≠ t → getTile u (swapCtx t d) = getTile u d) ∧ (swapCtx t d).mem = d.mem ∧ (swapCtx t d).runs = d.runs ∧
    (swapCtx t d).twin.state = d.twin.state :=
  ⟨(getTile_swapCtx t t d).trans (if_pos rfl), fun u hu => (getTile_swapCtx t u d).trans (if_neg hu), rfl, rfl, rfl⟩

end

end Sys2Proof.Machine

namespace Sys2Proof.Proofs
open Sys2Proof.Machine

/-- Settles O24: a plain finish vacates the running context; a switch swaps the two contexts of its tile. -/
theorem segmentsFinish : Obligations.SegmentsFinish := by
  unfold Obligations.SegmentsFinish
  rintro s _ t rfl ht x
  let tagged := tagWork (segFrames t s.dev) s.dev
  refine ⟨fun g hseg hended hctx hdone hobs hmirror hnext => ?_, fun hseg hother => ?_, fun hstate hstalled hready hfatal => ?_,
    fun h5 h6 => ?_⟩
  · have ended : endedSegment t x.runCtx tagged = some g :=
      endedSegment_of_ended ((congrArg CoreCtx.seg (ctxOf_running x)).trans hseg) hended hdone
    have finish : segmentFinished t tagged = modTile t vacated tagged := by
      rw [segmentFinished_eq, show endedSegment t (getTile t tagged).runCtx tagged = some g from ended]
      exact finishSegment_of_plain (d := tagged) hctx hobs hmirror hnext
    obtain ⟨rest, others⟩ := tileFrame_modTile t vacated tagged
    have tile := getTile_modTile_same t vacated tagged
    refine completes_onTile ht rfl ?_
    rw [asTile, finish]
    generalize modTile t vacated tagged = e at rest others tile ⊢
    exact ⟨tile, others, congrArg (fun e => settle (untagged e)) rest⟩
  · exact answers_onTile_idle ht rfl (segmentFinished_of_none (d := tagged) hseg hother)
  · obtain ⟨tile, others, mem, runs, twin⟩ := swapCtx_effect t tagged
    refine completes_onTile ht rfl ?_
    rw [asTile, contextSwitch_of_ready (d := tagged) hstate hstalled hready hfatal]
    generalize swapCtx t tagged = e at tile others mem runs twin ⊢
    exact ⟨tile, others, mem, runs, twin⟩
  · have stays : contextSwitch t tagged = tagged := contextSwitch_of_other_state h5 h6
    exact answers_onTile_idle ht rfl stays

end Sys2Proof.Proofs
end

section
/-!
PROOFS. What the device reads of a tenant's space does not depend on the run frames that the mirror records of the work in hand
carry: every read commutes with `tagWork`, and the programs and contexts it finds are those of the untagged device.
-/
namespace Sys2Proof.Machine

/-- A result's device tagged, beside its answer; a read's, beside its answer and bytes; and a walk's. -/
def tagPair {α : Type} (l : List (Nat × Nat)) (r : α × Dev) : α × Dev := (r.1, tagWork l r.2)
def tagRead {α β : Type} (l : List (Nat × Nat)) (r : α × β × Dev) : α × β × Dev := (r.1, r.2.1, tagWork l r.2.2)
def Walked.tag (l : List (Nat × Nat)) (w : Walked) : Walked := { w with dev := tagWork l w.dev }

/-- A function applied to a choice, branch by branch. -/
theorem apply_ite_of_eq {α β : Type} (g : α → β) {c : Prop} [Decidable c] {a b : α} {a' b' : β} (ha : g a = a') (hb : g b = b') :
    g (if c then a else b) = if c then a' else b' := by
  rw [apply_ite g, ha, hb]

section
variable (l : List (Nat × Nat)) (d : Dev)

theorem tagWork_foldl {α : Type} {f : Dev → α → Dev} (h : ∀ e x, tagWork l (f e x) = f (tagWork l e) x) (xs : List α) :
    tagWork l (xs.foldl f d) = xs.foldl f (tagWork l d) :=
  (List.foldl_hom (tagWork l) fun e x => (h e x).symm).symm

/-! ## Events, records and physical memory -/

theorem tagWork_latchAlert (e : Event) : tagWork l (latchAlert e d) = latchAlert e (tagWork l d) := apply_ite_of_eq _ rfl rfl

theorem tagWork_raiseEvent (e : Event) : tagWork l (raiseEvent e d) = raiseEvent e (tagWork l d) := by
  unfold raiseEvent
  rw [← tagWork_latchAlert]
  exact apply_ite_of_eq _ rfl rfl

theorem tagWork_faultRun (cls num src t detail : Nat) :
    tagWork l (faultRun cls num src t d detail) = faultRun cls num src t (tagWork l d) detail :=
  apply_ite_of_eq _ (congrArg (setRun t _) (tagWork_raiseEvent l d _)) (tagWork_raiseEvent l d _)

theorem tagWork_countCorrected (a : Nat) : tagWork l (countCorrected a d) = countCorrected a (tagWork l d) :=
  apply_ite_of_eq _ (tagWork_raiseEvent l _ _) (tagWork_raiseEvent l _ _)

theorem tagWork_countUncorrectable (a : Nat) : tagWork l (countUncorrectable a d) = countUncorrectable a (tagWork l d) :=
  apply_ite_of_eq _ rfl rfl

theorem tagRead_physRead (a n : Nat) : tagRead l (physRead a n d) = physRead a n (tagWork l d) := by
  refine congrArg (fun e => ((physRead a n d).1, (physRead a n d).2.1, e)) (tagWork_foldl l d (fun e p => ?_) _)
  exact apply_ite_of_eq _ (tagWork_countCorrected l (setErr p.1 0 e) _) rfl

theorem tagRead_tableRead (a : Nat) : tagRead l (tableRead a d) = tableRead a (tagWork l d) := by
  unfold tableRead
  rw [← tagRead_physRead]
  exact congrArg (fun e => (leNat (physRead a 8 d).1, (physRead a 8 d).2.1, e)) (apply_ite_of_eq _ (tagWork_countUncorrectable l _ _) rfl)

theorem tagWork_mirrorSend (m : MirrorRec) : tagWork l (mirrorSend m d) = mirrorSend m (tagWork l d) :=
  apply_ite_of_eq _ rfl (apply_ite_of_eq _ rfl (tagWork_raiseEvent l _ _))

/-! ## The walk and the caches (R169 to R172) -/

theorem tag_walk3 (t va e2 : Nat) (upper : List Cached) (clean : Bool) :
    (walk3 t va e2 upper clean d).tag l = walk3 t va e2 upper clean (tagWork l d) := by
  simp only [walk3, ← tagRead_tableRead, tagRead]
  rfl

theorem tag_walk2 (t va e1 : Nat) (upper : List Cached) (clean : Bool) :
    (walk2 t va e1 upper clean d).tag l = walk2 t va e1 upper clean (tagWork l d) := by
  simp only [walk2, ← tagRead_tableRead, tagRead]
  exact apply_ite_of_eq _ rfl (apply_ite_of_eq _ rfl (apply_ite_of_eq _ rfl (apply_ite_of_eq _ rfl (tag_walk3 l _ _ _ _ _ _))))

theorem tag_walk1 (t va : Nat) : (walk1 t va d).tag l = walk1 t va (tagWork l d) := by
  simp only [walk1, ← tagRead_tableRead, tagRead]
  exact apply_ite_of_eq _ rfl (apply_ite_of_eq _ rfl (apply_ite_of_eq _ rfl (tag_walk2 l _ _ _ _ _ _)))

theorem tagPair_cacheFill (size : Nat) (x : Cached) (c : List Cached) :
    tagPair l (cacheFill size x c d) = cacheFill size x c (tagWork l d) :=
  apply_ite_of_eq _ rfl (apply_ite_of_eq _ rfl rfl)

theorem tagWork_fillTlb (w : Nat) (x : Cached) : tagWork l (fillTlb w x d) = fillTlb w x (tagWork l d) := by
  simp only [fillTlb, ← tagPair_cacheFill]
  rfl

theorem tagWork_fillWalks (die : Nat) (x : Cached) : tagWork l (fillWalks die x d) = fillWalks die x (tagWork l d) := by
  unfold fillWalks
  rw [← tagPair_cacheFill]
  rfl

theorem tagPair_stillHeld {fresh : Cached → Bool} {evict : Cached → Dev → Dev}
    (h : ∀ x d, tagWork l (evict x d) = evict x (tagWork l d)) (held : List Cached) :
    tagPair l (stillHeld fresh evict held d) = stillHeld fresh evict held (tagWork l d) := by
  induction held generalizing d with
  | nil => rfl
  | cons x held ih => exact apply_ite_of_eq _ rfl (apply_ite_of_eq _ rfl ((ih _).trans (congrArg (stillHeld fresh evict held) (h x _))))

theorem tagPair_tlbHit (w t va : Nat) (fresh : Cached → Bool) :
    tagPair l (tlbHit w t va fresh d) = tlbHit w t va fresh (tagWork l d) :=
  tagPair_stillHeld l d (by intros; rfl) _

theorem tagPair_walkHit (die bits t va : Nat) (fresh : Cached → Bool) :
    tagPair l (walkHit die bits t va fresh d) = walkHit die bits t va fresh (tagWork l d) :=
  tagPair_stillHeld l d (by intros; rfl) _

theorem tag_cachedWalk (die t va : Nat) (fresh : Cached → Bool) :
    (cachedWalk die t va fresh d).tag l = cachedWalk die t va fresh (tagWork l d) := by
  simp only [cachedWalk, ← tagPair_walkHit, tagPair]
  cases (walkHit die 21 t va fresh d).1 with
  | some x => exact tag_walk3 l _ _ _ _ _ _
  | none =>
    cases (walkHit die 34 t va fresh (walkHit die 21 t va fresh d).2).1 with
    | some x => exact tag_walk2 l _ _ _ _ _ _
    | none => exact tag_walk1 l _ _ _

/-! A translation cut where it looks the address up: in its TLB, in its die's, and in the tables. -/

/-- The caches once a walk has found leaf `x` through the entries `upper`. -/
def fillCaches (w : Nat) (x : Cached) (upper : List Cached) (d : Dev) : Dev :=
  let d1 := upper.foldl (fun d y => fillWalks (tlbDie w) y d) d
  fillTlb w x (if w < 128 then fillTlb (dieTlb (w / 64)) x d1 else d1)

/-- What a completed walk gives. -/
def walkedPlace (w t va : Nat) (write : Bool) (r : Walked) : Place × Dev :=
  let p := placeOf t va write r.leaf r.dev
  match p, r.leaf with
  | .bad _, _ => (p, r.dev)
  | _, .error _ => (p, r.dev)
  | _, .ok x => (p, fillCaches w x r.upper r.dev)

/-- What the die's TLB gives, and the walk where it holds nothing. -/
def diePlace (w t va : Nat) (write : Bool) (now : Walked) (g : Option Cached × Dev) : Place × Dev :=
  match g.1 with
  | some x =>
    let p := leafPlace t va x.word x.bits write g.2
    (p, match p with | .bad _ => g.2 | _ => fillTlb w x g.2)
  | none => walkedPlace w t va write (cachedWalk (tlbDie w) t va (fun x => now.clean && now.upper.contains x) g.2)

/-- Whether the tables bear a leaf out. -/
def Walked.bears (now : Walked) (x : Cached) : Bool := now.clean && (match now.leaf with | .ok y => x == y | .error _ => false)

/-- What the access's own TLB gives, and the die's where it holds nothing. -/
def tlbPlace (w t va : Nat) (write : Bool) (now : Walked) (h : Option Cached × Dev) : Place × Dev :=
  match h.1 with
  | some x => (leafPlace t va x.word x.bits write h.2, h.2)
  | none => diePlace w t va write now (if w < 128 then tlbHit (dieTlb (w / 64)) t va now.bears h.2 else (none, h.2))

theorem translate_eq (w t va : Nat) (write : Bool) : translate w t va write d =
    tlbPlace w t va write (walk1 t va d) (tlbHit w t va (walk1 t va d).bears d) := rfl

theorem tagWork_fillCaches (w : Nat) (x : Cached) (upper : List Cached) :
    tagWork l (fillCaches w x upper d) = fillCaches w x upper (tagWork l d) := by
  have walks := tagWork_foldl l d (fun e y => tagWork_fillWalks l e (tlbDie w) y) upper
  refine (tagWork_fillTlb l _ w x).trans (congrArg (fillTlb w x) (apply_ite_of_eq _ ?_ walks))
  exact (tagWork_fillTlb l _ _ x).trans (congrArg (fillTlb _ x) walks)

theorem tagPair_walkedPlace (w t va : Nat) (write : Bool) (r : Walked) :
    tagPair l (walkedPlace w t va write r) = walkedPlace w t va write (r.tag l) := by
  have placed : placeOf t va write r.leaf (tagWork l r.dev) = placeOf t va write r.leaf r.dev := rfl
  simp only [walkedPlace, Walked.tag, placed]
  cases placeOf t va write r.leaf r.dev with
  | bad m => rfl
  | host a =>
    cases r.leaf with
    | error m => rfl
    | ok x => exact congrArg (Prod.mk _) (tagWork_fillCaches l _ w x _)
  | dev a =>
    cases r.leaf with
    | error m => rfl
    | ok x => exact congrArg (Prod.mk _) (tagWork_fillCaches l _ w x _)

theorem tagPair_diePlace (w t va : Nat) (write : Bool) (now : Walked) (g : Option Cached × Dev) :
    tagPair l (diePlace w t va write now g) = diePlace w t va write now (tagPair l g) := by
  obtain ⟨held, e⟩ := g
  cases held with
  | none => exact (tagPair_walkedPlace l w t va write _).trans (congrArg (walkedPlace w t va write) (tag_cachedWalk l _ _ _ _ _))
  | some x =>
    have placed : leafPlace t va x.word x.bits write (tagWork l e) = leafPlace t va x.word x.bits write e := rfl
    simp only [diePlace, tagPair, placed]
    cases leafPlace t va x.word x.bits write e with
    | bad m => rfl
    | host a => exact congrArg (Prod.mk _) (tagWork_fillTlb l e w x)
    | dev a => exact congrArg (Prod.mk _) (tagWork_fillTlb l e w x)

theorem tagPair_tlbPlace (w t va : Nat) (write : Bool) (now : Walked) (h : Option Cached × Dev) :
    tagPair l (tlbPlace w t va write now h) = tlbPlace w t va write now (tagPair l h) := by
  obtain ⟨held, e⟩ := h
  cases held with
  | some x => rfl
  | none =>
    exact (tagPair_diePlace l w t va write now _).trans
      (congrArg (diePlace w t va write now) (apply_ite_of_eq _ (tagPair_tlbHit l e _ t va now.bears) rfl))

theorem tagPair_translate (w t va : Nat) (write : Bool) :
    tagPair l (translate w t va write d) = translate w t va write (tagWork l d) := by
  rw [translate_eq, translate_eq, ← tag_walk1, tagPair_tlbPlace, tagPair_tlbHit]
  rfl

theorem tagPair_place (w t ctx va : Nat) (write : Bool) :
    tagPair l (place w t ctx va write d) = place w t ctx va write (tagWork l d) := by
  refine apply_ite_of_eq _ rfl (apply_ite_of_eq _ (tagPair_translate l d w t va write) ?_)
  have declared : partnerRegions t (tagWork l d) = partnerRegions t d := rfl
  rw [declared]
  cases (partnerRegions t d).find? fun r => r.covers va with
  | none => rfl
  | some r =>
    have kept : storeAddr t r.index (va - r.base) (tagWork l d) = storeAddr t r.index (va - r.base) d := rfl
    simp only [kept]
    cases storeAddr t r.index (va - r.base) d <;> rfl

/-! ## Reads of a tenant's space (R422, R323) -/

theorem tagRead_hostFetch (fn addr n : Nat) : tagRead l (hostFetch fn addr n d) = hostFetch fn addr n (tagWork l d) := by
  refine apply_ite_of_eq _ rfl ?_
  have asked : (tagWork l d).pcie = d.pcie := rfl
  simp only [asked]
  cases d.pcie.reads.find? fun r => r.fn == fn && r.addr == addr && r.len == n with
  | none => rfl
  | some r =>
    cases hdone : r.done with
    | none => simp only [hdone]; rfl
    | some good => simp only [hdone]; exact apply_ite_of_eq _ rfl rfl

theorem tagWork_askRepair (t va pa : Nat) : tagWork l (askRepair t va pa d) = askRepair t va pa (tagWork l d) := by
  refine apply_ite_of_eq _ rfl ?_
  have region : regionAt t va (tagWork l d) = regionAt t va d := rfl
  rw [region]
  cases regionAt t va d with
  | none => rfl
  | some r => exact tagWork_mirrorSend l _ _

theorem tagPair_meetUe (t va pa n : Nat) : tagPair l (meetUe t va pa n d) = meetUe t va pa n (tagWork l d) := by
  refine apply_ite_of_eq _ ?_ ?_
  · refine congrArg (Prod.mk _) (tagWork_foldl l d (fun e p => ?_) _)
    exact tagWork_askRepair l e t _ _
  · exact congrArg (Prod.mk _) ((tagWork_faultRun l _ _ _ _ _ _).trans
      (congrArg (fun e => faultRun _ _ _ _ e _) (tagWork_countUncorrectable l d _)))

theorem tagRead_readChunk (w t ctx va n : Nat) : tagRead l (readChunk w t ctx va n d) = readChunk w t ctx va n (tagWork l d) := by
  unfold readChunk
  rw [← tagPair_place]
  obtain ⟨placed, e⟩ := place w t ctx va false d
  cases placed with
  | bad m => rfl
  | host a => exact tagRead_hostFetch l e _ _ _
  | dev pa =>
    simp only [tagPair, ← tagRead_physRead]
    refine apply_ite_of_eq _ ?_ rfl
    simp only [← tagPair_meetUe, tagRead]
    rfl

theorem tagRead_peekChunk (w t ctx va n : Nat) : tagRead l (peekChunk w t ctx va n d) = peekChunk w t ctx va n (tagWork l d) := by
  unfold peekChunk
  rw [← tagPair_place, ← tagRead_readChunk]
  obtain ⟨placed, e⟩ := place w t ctx va false d
  cases placed with
  | host a => exact apply_ite_of_eq _ rfl rfl
  | bad m => rfl
  | dev pa => rfl

theorem tagRead_vaPeek (w t ctx va n : Nat) : tagRead l (vaPeek w t ctx va n d) = vaPeek w t ctx va n (tagWork l d) := by
  refine (List.foldl_hom (tagRead l) fun acc c => ?_).symm
  obtain ⟨met, bs, e⟩ := acc
  have chunk : peekChunk w t ctx c.1 c.2 (tagWork l e) = tagRead l (peekChunk w t ctx c.1 c.2 e) := (tagRead_peekChunk l e ..).symm
  cases met <;> simp only [tagRead, chunk]

/-! ## Programs and contexts -/

theorem vaPeek_tagWork_met (w t ctx va n : Nat) : (vaPeek w t ctx va n (tagWork l d)).1 = (vaPeek w t ctx va n d).1 := by
  rw [← tagRead_vaPeek]
  rfl

theorem vaPeek_tagWork_bytes (w t ctx va n : Nat) : (vaPeek w t ctx va n (tagWork l d)).2.1 = (vaPeek w t ctx va n d).2.1 := by
  rw [← tagRead_vaPeek]
  rfl

theorem tagRead_frameEntryOf (t ctx r : Nat) : tagRead l (frameEntryOf t ctx r d) = frameEntryOf t ctx r (tagWork l d) := by
  have con : conOf t ctx (tagWork l d) = conOf t ctx d := rfl
  simp only [frameEntryOf, con]
  cases (conOf t ctx d).entryIndex r with
  | none => rfl
  | some i => exact tagRead_vaPeek l d ..

theorem programBody_tagWork (t ctx i : Nat) : programBody t ctx i (tagWork l d) = programBody t ctx i d := by
  have con : conOf t ctx (tagWork l d) = conOf t ctx d := rfl
  simp only [programBody, con, vaPeek_tagWork_met, vaPeek_tagWork_bytes]

theorem programAt_tagWork (t ctx r : Nat) : programAt t ctx r (tagWork l d) = programAt t ctx r d := by
  simp only [programAt, ← tagRead_frameEntryOf, tagRead, programBody_tagWork]

theorem livePrograms_tagWork (t : Nat) : livePrograms t (tagWork l d) = livePrograms t d := by
  have run : getRun t (tagWork l d) = getRun t d := rfl
  simp only [livePrograms, run, vaPeek_tagWork_met, vaPeek_tagWork_bytes]

theorem liveCtx_tagWork (t x : Nat) : liveCtx t x (tagWork l d) = liveCtx t x d := by
  simp only [liveCtx, livePrograms_tagWork, programBody_tagWork]

/-- Whether a hand-in is taken does not depend on the tag either. -/
theorem handInCheck_tagWork (t ctx cctx cseg total dfmt : Nat) (index chain : Bool) :
    handInCheck t ctx cctx cseg total dfmt index chain (tagWork l d) = handInCheck t ctx cctx cseg total dfmt index chain d := by
  simp only [handInCheck, liveCtx_tagWork]
  rfl

end

end Sys2Proof.Machine
end

section
/-!
PROOFS. The words of the output stage (R95, R104, R146) and of the vector engine (R130, R147) at the head of their queue.
-/
namespace Sys2Proof.Machine

/-! ## Output words -/

section
variable {t op : Nat} {q : QWord} {d : Dev}

theorem outputRow_of_head (hrun : enginesRun t d = true) (hhead : headOf t 2 d = some q) (hctx : q.ctx ≠ 1)
    (hidle : (execOf t 2 d).find? (fun x => x.phase == .running) = none) : outputRow op t d = outputHead op t q d := by
  rw [outputRow, hrun, hidle, hhead]
  exact forRank_own hctx _ d

/-- The fields a word of OP `op` keeps 0 are 0: it is not rejected with WORD_FIELD. -/
def OutputGood (op : Nat) (w : BitVec 128) : Prop := wField w 114 14 = 0 ∧ (op = 1 → wField w 92 5 = 0) ∧ cueBad w = false

section
variable (hop : wOp q.word = op) (hfree : engineFree t 2 d = true)
include hop hfree

theorem outputHead_of_bad_field (h : ¬ OutputGood op q.word) : outputHead op t q d = rejectHead t 2 1 evWordField d := by
  rw [outputHead, if_pos ⟨.inl hop, hfree⟩, if_pos, wordField]
  refine .inr (Decidable.byContradiction fun hnone => h ?_)
  rw [not_or, not_or, not_not, not_and, not_not] at hnone
  exact ⟨hnone.1, hnone.2.1, Bool.eq_false_iff.2 hnone.2.2⟩

variable (hle : op ≤ 1) (hgood : OutputGood op q.word)
include hle hgood

theorem outputHead_of_good : outputHead op t q d =
    if outputBad t q d then rejectHead t 2 1 evOutputConfig d
    else if conflict t (outRanges t q d).flatten [(oFirst q.word, oM q.word)] d then rejectHead t 2 1 evRnnConflict d
    else
      match headWait t q d with
      | (false, d1) => d1
      | (true, d1) =>
        if rowsHeld t [0, 1] q d1 then d1
        else if op = 0 then finishWord t 2 q.number true 0 (outputRun t q (dispatchHead t 2 .running d1))
        else
          match handInCheck q.tenant q.ctx (oCctx q.word) (oCseg q.word) (oM q.word * oRowBytes q.word) (oDfmt q.word) (oIndex q.word)
              false d1 with
          | .ok => fusedRun t q (dispatchHead t 2 .running d1)
          | .config => rejectHead t 2 1 evOutputConfig d1
          | h => handInEvent h evOutputConfig (srcNi 0) q.tenant (oCctx q.word) (oCseg q.word) (dropHead t 2 d1) := by
  obtain ⟨hreserved, hfused, hcue⟩ := hgood
  refine (if_pos ⟨.inl hop, hfree⟩).trans (if_neg ?_)
  rw [not_or, not_or, not_or, not_and, not_not, not_not]
  exact ⟨by omega, hreserved, hfused, Bool.eq_false_iff.1 hcue⟩

theorem outputHead_of_outputBad (h : outputBad t q d = true) : outputHead op t q d = rejectHead t 2 1 evOutputConfig d := by
  rw [outputHead_of_good hop hfree hle hgood, if_pos h]

variable (hfits : outputBad t q d = false)
include hfits

theorem outputHead_of_conflict (h : conflict t (outRanges t q d).flatten [(oFirst q.word, oM q.word)] d = true) :
    outputHead op t q d = rejectHead t 2 1 evRnnConflict d := by
  rw [outputHead_of_good hop hfree hle hgood, if_neg (Bool.eq_false_iff.1 hfits), if_pos h]

variable (hclear : conflict t (outRanges t q d).flatten [(oFirst q.word, oM q.word)] d = false)
include hclear

/-- A word stays whose counter is short or whose rows an earlier word has yet to commit. -/
theorem outputHead_of_held (h : CounterShort t q d ∨ CounterMet t q d ∧ rowsHeld t [0, 1] q d = true) : outputHead op t q d = d := by
  rw [outputHead_of_good hop hfree hle hgood, if_neg (Bool.eq_false_iff.1 hfits), if_neg (Bool.eq_false_iff.1 hclear)]
  obtain hshort | ⟨hmet, hheld⟩ := h
  · rw [headWait_of_short hshort]
  · rw [headWait_of_met hmet]
    exact if_pos hheld

variable (hmet : CounterMet t q d) (hrows : rowsHeld t [0, 1] q d = false)
include hmet hrows

theorem outputHead_of_scratch (h : op = 0) :
    outputHead op t q d = finishWord t 2 q.number true 0 (outputRun t q (dispatchHead t 2 .running d)) := by
  rw [outputHead_of_good hop hfree hle hgood, if_neg (Bool.eq_false_iff.1 hfits), if_neg (Bool.eq_false_iff.1 hclear), headWait_of_met hmet]
  exact (if_neg (Bool.eq_false_iff.1 hrows)).trans (if_pos h)

theorem outputHead_of_fused (h : op = 1) (htaken : handInCheck q.tenant q.ctx (oCctx q.word) (oCseg q.word)
    (oM q.word * oRowBytes q.word) (oDfmt q.word) (oIndex q.word) false d = .ok) :
    outputHead op t q d = fusedRun t q (dispatchHead t 2 .running d) := by
  rw [outputHead_of_good hop hfree hle hgood, if_neg (Bool.eq_false_iff.1 hfits), if_neg (Bool.eq_false_iff.1 hclear), headWait_of_met hmet]
  refine (if_neg (Bool.eq_false_iff.1 hrows)).trans ((if_neg (by omega)).trans ?_)
  rw [htaken]

end
end

/-- An output word at the head of its queue, by its fields, its conditions, its conflicts, its counter and its rows. -/
theorem outputRow_cases {s : State} {t op : Nat} {q : QWord} {c : Instr} (hc : exec c s = onTile t (outputRow op t) s) (hle : op ≤ 1)
    (h : AtHead t 2 q s.dev) (hop : wOp q.word = op) (hidle : (execOf t 2 s.dev).find? (fun x => x.phase == .running) = none) :
    (¬ OutputGood op q.word → Answers c s (asTile t (rejectHead t 2 1 evWordField) s.dev)) ∧
    (OutputGood op q.word → outputBad t q s.dev = true → Answers c s (asTile t (rejectHead t 2 1 evOutputConfig) s.dev)) ∧
    (OutputGood op q.word → outputBad t q s.dev = false →
      conflict t (outRanges t q s.dev).flatten [(oFirst q.word, oM q.word)] s.dev = true →
      Answers c s (asTile t (rejectHead t 2 1 evRnnConflict) s.dev)) ∧
    (OutputGood op q.word → outputBad t q s.dev = false →
      conflict t (outRanges t q s.dev).flatten [(oFirst q.word, oM q.word)] s.dev = false →
      (CounterShort t q s.dev ∨ CounterMet t q s.dev ∧ rowsHeld t [0, 1] q s.dev = true → Answers c s (untagged s.dev)) ∧
      (CounterMet t q s.dev → rowsHeld t [0, 1] q s.dev = false →
        (op = 0 → Answers c s
          (asTile t (fun x => finishWord t 2 q.number true 0 (outputRun t q (dispatchHead t 2 .running x))) s.dev)) ∧
        (op = 1 → handInCheck q.tenant q.ctx (oCctx q.word) (oCseg q.word) (oM q.word * oRowBytes q.word) (oDfmt q.word)
            (oIndex q.word) false s.dev = .ok →
          Answers c s (asTile t (fun x => fusedRun t q (dispatchHead t 2 .running x)) s.dev)))) := by
  obtain ⟨ht, hrun, hfree, hhead, hctx⟩ := h
  let tagged := tagWork (segFrames t s.dev) s.dev
  have taken : outputRow op t tagged = outputHead op t q tagged := outputRow_of_head hrun hhead hctx hidle
  have hfree : engineFree t 2 tagged = true := hfree
  refine ⟨fun hbad => answers_onTile_of_eq ht hc (taken.trans (outputHead_of_bad_field hop hfree hbad)),
    fun hgood hbad => answers_onTile_of_eq ht hc (taken.trans (outputHead_of_outputBad hop hfree hle hgood hbad)),
    fun hgood hfits hconf => answers_onTile_of_eq ht hc (taken.trans (outputHead_of_conflict hop hfree hle hgood hfits hconf)),
    fun hgood hfits hclear => ⟨fun hheld => ?_, fun hmet hrows => ⟨fun hscratch => ?_, fun hfused htaken => ?_⟩⟩⟩
  · exact answers_onTile_of_eq (g := id) ht hc (taken.trans (outputHead_of_held hop hfree hle hgood hfits hclear hheld))
  · exact answers_onTile_of_eq ht hc (taken.trans (outputHead_of_scratch hop hfree hle hgood hfits hclear hmet hrows hscratch))
  · have htaken := (handInCheck_tagWork (segFrames t s.dev) s.dev ..).trans htaken
    exact answers_onTile_of_eq ht hc (taken.trans (outputHead_of_fused hop hfree hle hgood hfits hclear hmet hrows hfused htaken))

/-! ## Vector words -/

section
variable {t op : Nat} {run : Nat → QWord → Dev → Dev} {q : QWord} {d : Dev}

theorem vectorRow_of_head (hrun : enginesRun t d = true) (hhead : headOf t 3 d = some q) (hctx : q.ctx ≠ 1) :
    vectorRow op run t d = vectorHead op run t q d := by
  rw [vectorRow, hrun, hhead]
  exact forRank_own hctx _ d

section
variable (hop : wOp q.word = op) (hfree : engineFree t 3 d = true)
include hop hfree

theorem vectorHead_of_bad_field (h : wField q.word 121 7 ≠ 0 ∨ cueBad q.word = true) :
    vectorHead op run t q d = rejectHead t 3 1 evWordField d := by
  rw [vectorHead, if_pos ⟨.inl hop, hfree⟩, if_pos (.inr h), wordField]

variable (hle : op ≤ 8) (hfield : wField q.word 121 7 = 0) (hcue : cueBad q.word = false)
include hle hfield hcue

theorem vectorHead_of_good : vectorHead op run t q d =
    if vectorBad q.word then rejectHead t 3 1 evVectorConfig d
    else if conflict t (vecRanges q.word) [] d then rejectHead t 3 1 evRnnConflict d
    else
      match headWait t q d with
      | (false, d1) => d1
      | (true, d1) => finishWord t 3 q.number true 0 (run t q (dispatchHead t 3 .running d1)) := by
  refine (if_pos ⟨.inl hop, hfree⟩).trans (if_neg ?_)
  rw [not_or, not_or, not_not]
  exact ⟨by omega, hfield, Bool.eq_false_iff.1 hcue⟩

theorem vectorHead_of_vectorBad (h : vectorBad q.word = true) : vectorHead op run t q d = rejectHead t 3 1 evVectorConfig d := by
  rw [vectorHead_of_good hop hfree hle hfield hcue, if_pos h]

variable (hfits : vectorBad q.word = false)
include hfits

theorem vectorHead_of_conflict (h : conflict t (vecRanges q.word) [] d = true) :
    vectorHead op run t q d = rejectHead t 3 1 evRnnConflict d := by
  rw [vectorHead_of_good hop hfree hle hfield hcue, if_neg (Bool.eq_false_iff.1 hfits), if_pos h]

variable (hclear : conflict t (vecRanges q.word) [] d = false)
include hclear

theorem vectorHead_of_short (h : CounterShort t q d) : vectorHead op run t q d = d := by
  rw [vectorHead_of_good hop hfree hle hfield hcue, if_neg (Bool.eq_false_iff.1 hfits), if_neg (Bool.eq_false_iff.1 hclear),
    headWait_of_short h]

theorem vectorHead_of_met (h : CounterMet t q d) :
    vectorHead op run t q d = finishWord t 3 q.number true 0 (run t q (dispatchHead t 3 .running d)) := by
  rw [vectorHead_of_good hop hfree hle hfield hcue, if_neg (Bool.eq_false_iff.1 hfits), if_neg (Bool.eq_false_iff.1 hclear),
    headWait_of_met h]

end
end

/-- A vector word at the head of its queue, by its fields, its conditions, its conflicts and its counter. -/
theorem vectorRow_cases {s : State} {t op : Nat} {run : Nat → QWord → Dev → Dev} {q : QWord} {c : Instr}
    (hc : exec c s = onTile t (vectorRow op run t) s) (hle : op ≤ 8) (h : AtHead t 3 q s.dev) (hop : wOp q.word = op) :
    (wField q.word 121 7 ≠ 0 ∨ cueBad q.word = true → Answers c s (asTile t (rejectHead t 3 1 evWordField) s.dev)) ∧
    (wField q.word 121 7 = 0 → cueBad q.word = false →
      (vectorBad q.word = true → Answers c s (asTile t (rejectHead t 3 1 evVectorConfig) s.dev)) ∧
      (vectorBad q.word = false → conflict t (vecRanges q.word) [] s.dev = true →
        Answers c s (asTile t (rejectHead t 3 1 evRnnConflict) s.dev)) ∧
      (vectorBad q.word = false → conflict t (vecRanges q.word) [] s.dev = false →
        (CounterShort t q s.dev → Answers c s (untagged s.dev)) ∧
        (CounterMet t q s.dev →
          Answers c s (asTile t (fun x => finishWord t 3 q.number true 0 (run t q (dispatchHead t 3 .running x))) s.dev)))) := by
  obtain ⟨ht, hrun, hfree, hhead, hctx⟩ := h
  let tagged := tagWork (segFrames t s.dev) s.dev
  have taken : vectorRow op run t tagged = vectorHead op run t q tagged := vectorRow_of_head hrun hhead hctx
  have hfree : engineFree t 3 tagged = true := hfree
  refine ⟨fun hbad => answers_onTile_of_eq ht hc (taken.trans (vectorHead_of_bad_field hop hfree hbad)), fun hfield hcue =>
    ⟨fun hbad => answers_onTile_of_eq ht hc (taken.trans (vectorHead_of_vectorBad hop hfree hle hfield hcue hbad)),
    fun hfits hconf => answers_onTile_of_eq ht hc (taken.trans (vectorHead_of_conflict hop hfree hle hfield hcue hfits hconf)),
    fun hfits hclear => ⟨fun hshort => ?_, fun hmet => ?_⟩⟩⟩
  · exact answers_onTile_of_eq (g := id) ht hc (taken.trans (vectorHead_of_short hop hfree hle hfield hcue hfits hclear hshort))
  · exact answers_onTile_of_eq ht hc (taken.trans (vectorHead_of_met hop hfree hle hfield hcue hfits hclear hmet))

end Sys2Proof.Machine

namespace Sys2Proof.Proofs
open Sys2Proof.Machine

/-- Settles O17: the two output words differ in their OP alone, the nine vector words in their OP and run. -/
theorem outputAndVectorWords : Obligations.OutputAndVectorWords := by
  unfold Obligations.OutputAndVectorWords
  rintro s _ t q rfl w output vector
  have outputs (c : Instr) (op : Nat) (hc : exec c s = onTile t (outputRow op t) s) (hle : op ≤ 1) : output c op :=
    fun hhead hop hidle => outputRow_cases hc hle hhead hop hidle
  have vectors (c : Instr) (op : Nat) (run : Nat → QWord → Dev → Dev) (hc : exec c s = onTile t (vectorRow op run t) s)
      (hle : op ≤ 8) : vector c op (run t q) :=
    fun hhead hop => vectorRow_cases hc hle hhead hop
  exact ⟨outputs _ 0 rfl (by decide), outputs _ 1 rfl (by decide), vectors _ 0 _ rfl (by decide), vectors _ 1 _ rfl (by decide),
    vectors _ 2 _ rfl (by decide), vectors _ 3 _ rfl (by decide), vectors _ 4 _ rfl (by decide), vectors _ 5 _ rfl (by decide),
    vectors _ 6 _ rfl (by decide), vectors _ 7 _ rfl (by decide), vectors _ 8 _ rfl (by decide)⟩

end Sys2Proof.Proofs
end

section
/-!
PROOFS. The words of the network interface (R143, R148): tracked operations, with the entry that one takes (R251 to R254), and
the start of a chain (R304).
-/
namespace Sys2Proof.Machine

/-! ## What a dispatch leaves of the remote transactions before it takes its entry -/

section
variable (d : Dev)

theorem rankLookup_rem (t rank : Nat) : (rankLookup t rank d).2.rem = d.rem := by
  unfold rankLookup
  split
  · rfl
  · extract_lets e w
    split
    · dsimp only
      split <;> rfl
    · split <;> rfl

theorem vaFetch_rem (w t ctx va n : Nat) : (vaFetch w t ctx va n d).2.2.rem = d.rem := by
  unfold vaFetch
  extract_lets r
  split <;> exact vaRead_rem d ..

theorem readPeer_rem (t ctx peer : Nat) : (readPeer t ctx peer d).2.2.rem = d.rem := vaFetch_rem d ..

theorem scratchRead_rem {t off n : Nat} {r : Bytes × Bool × Dev} (h : scratchRead t off n d = some r) : r.2.2.rem = d.rem := by
  unfold scratchRead at h
  split at h
  · cases h
    exact physRead_rem d ..
  · cases h

theorem raiseMet_rem (m : Met) (src t : Nat) : (raiseMet m src t d).rem = d.rem := by
  unfold raiseMet
  split
  · exact faultRun_rem d ..
  · exact faultRun_rem d ..
  · exact faultRun_rem d ..
  · rfl

theorem readSource_rem (x : Track) (ctx : Nat) : (readSource x ctx d).2.2.rem = d.rem := by
  unfold readSource
  split
  · rfl
  · split
    · split
      · rfl
      · rename_i h
        have read := scratchRead_rem d h
        split
        · exact (faultRun_rem ..).trans read
        · exact read
    · extract_lets r
      have read : r.2.2.rem = d.rem := vaFetch_rem d ..
      split
      · exact read
      · exact read
      · exact (raiseMet_rem ..).trans read

theorem physWrite_rem (a : Nat) (bs : Bytes) : (physWrite a bs d).2.rem = d.rem := by
  refine foldl_rem id (fun e p => ?_) _ d
  dsimp only [id]
  split
  · rfl
  · split
    · exact countCorrected_rem _ _
    · rfl

theorem mirrorWrite_rem (t ctx va : Nat) (keep : Bool) (bs : Bytes) : (mirrorWrite t ctx va keep bs d).rem = d.rem := by
  unfold mirrorWrite
  split
  · split
    · rfl
    · exact foldl_rem id (fun _ _ => mirrorSend_rem _ _) _ d
  · rfl

theorem hostWrite_rem (fn addr : Nat) (bs : Bytes) : (hostWrite fn addr bs d).rem = d.rem := by
  unfold hostWrite
  split <;> rfl

theorem writeChunk_rem (w t ctx va : Nat) (keep : Bool) (bs : Bytes) : (writeChunk w t ctx va keep bs d).2.rem = d.rem := by
  have placed : (place w t ctx va true d).2.rem = d.rem := place_rem d ..
  unfold writeChunk
  split <;> rename_i hplace <;> rw [hplace] at placed
  · exact placed
  · exact (hostWrite_rem ..).trans placed
  · extract_lets partly r d2 m
    have written : d2.rem = d.rem := (mirrorWrite_rem ..).trans ((physWrite_rem ..).trans placed)
    split
    · exact (meetUe_rem ..).trans placed
    · split
      · exact (meetUe_rem ..).trans written
      · exact written

theorem vaWrite_rem (w t ctx va : Nat) (keep : Bool) (bs : Bytes) : (vaWrite w t ctx va keep bs d).2.rem = d.rem := by
  refine foldl_rem (fun acc : Met × Dev => acc.2) (fun acc c => ?_) _ _
  dsimp only
  split
  · exact writeChunk_rem ..
  · exact writeChunk_rem ..
  · rfl

theorem writeNextSeq_rem (t ctx peer next : Nat) : (writeNextSeq t ctx peer next d).2.rem = d.rem := vaWrite_rem d ..

theorem sendAttempt_rem (tag : Nat) : (sendAttempt tag d).rem = d.rem := foldl_rem id (by intros; rfl) _ d

end

/-! ## Tracked operations (R251 to R254) -/

section
variable {x : Track} {ctx : Nat} {d d1 : Dev}

theorem dispatchOp_of_invalid (h : rankLookup x.tenant x.rank d = (.invalid, d1)) : (dispatchOp x ctx d).1 = .notSent 7 := by
  rw [dispatchOp, h]

theorem dispatchOp_of_miss (h : rankLookup x.tenant x.rank d = (.miss, d1)) : (dispatchOp x ctx d).1 = .wait := by
  rw [dispatchOp, h]

section
variable {c : Nat} (h : rankLookup x.tenant x.rank d = (.coord c, d1))
include h

theorem dispatchOp_of_put_open (hadd : x.kind = 2) (hopen : putsOpen x.origin x.tenant x.rank d1 = true) :
    dispatchOp x ctx d = (.wait, d1) := by
  rw [dispatchOp, h]
  exact if_pos ⟨hadd, hopen⟩

theorem dispatchOp_of_put_failed (hadd : x.kind = 2) (hopen : putsOpen x.origin x.tenant x.rank d1 = false)
    (hfailed : putFailed x.origin x.tenant x.rank d1 = true) : dispatchOp x ctx d = (.notSent 9, d1) := by
  rw [dispatchOp, h]
  exact (if_neg (by simp [hopen])).trans (if_pos ⟨hadd, hfailed⟩)

theorem dispatchOp_of_full (hother : x.kind ≠ 2)
    (hfull : 16384 ≤ entriesUsed d1 ∨ tenantGet x.tenant 0x33 d1 ≤ tenantEntries x.tenant d1) : dispatchOp x ctx d = (.wait, d1) := by
  rw [dispatchOp, h]
  exact (if_neg (by simp [hother])).trans ((if_neg (by simp [hother])).trans (if_pos hfull))

end

/-- The lowest free entry depends on the entries alone. -/
theorem freeTag_congr {e : Dev} (h : e.rem = d.rem) : freeTag e = freeTag d := by
  simp only [freeTag, getTrack, h]

theorem freeTag_spec {tag : Nat} (h : freeTag d = some tag) : (getTrack tag d).state = .free ∧ tag < 16384 := by
  obtain ⟨hfree, hmem, -⟩ := List.find?_range_eq_some.1 h
  exact ⟨beq_iff_eq.1 hfree, List.mem_range.1 hmem⟩

/-- An operation that is sent has taken the lowest free entry of the entries that it found, and its packets leave. -/
theorem dispatchOp_sent {d' : Dev} (h : dispatchOp x ctx d = (.sent, d')) : ∃ e tag seq count bs, e.rem = d.rem ∧
    freeTag d = some tag ∧ d' = sendAttempt tag (setTrack tag { x with
      state := .send, seq := seq, count := count, attempt := 0, data := bs } e) := by
  have looked := rankLookup_rem d x.tenant x.rank
  unfold dispatchOp at h
  split at h
  · cases h
  · cases h
  rename_i c d1 hlook
  rw [hlook] at looked
  split at h
  · cases h
  split at h
  · cases h
  split at h
  · cases h
  split at h
  · cases h
  have peer := readPeer_rem d1 x.tenant ctx x.rank
  split at h
  · cases h
  rename_i m p d2 _ hpeer
  rw [hpeer] at peer
  split at h
  case isFalse => cases h
  extract_lets n at h
  split at h
  · cases h
  have source := readSource_rem d2 x ctx
  split at h
  case h_2 r _ d3 hnot _ =>
    cases h
    exact absurd rfl hnot
  rename_i bs d3 hsource
  rw [hsource] at source
  have numbered := writeNextSeq_rem d3 x.tenant ctx x.rank ((p.next + n) % 2 ^ 32)
  split at h
  · cases h
  rename_i m' d4 _ hnumbered
  rw [hnumbered] at numbered
  split at h
  case isFalse => cases h
  split at h
  · cases h
  rename_i tag hfree
  cases h
  have kept : d4.rem = d.rem := numbered.trans (source.trans (peer.trans looked))
  exact ⟨d4, tag, p.next, n, bs, kept, (freeTag_congr kept).symm.trans hfree, rfl⟩

/-- The entry of an operation that is sent, and the others (R251, R252). -/
theorem getTrack_of_sent {d' : Dev} (h : dispatchOp x ctx d = (.sent, d')) : ∃ tag, freeTag d = some tag ∧
    (getTrack tag d').state = .send ∧ (getTrack tag d').attempt = 0 ∧ (getTrack tag d').tenant = x.tenant ∧
    (getTrack tag d').rank = x.rank ∧ (getTrack tag d').kind = x.kind ∧
    (∀ u, u ≠ tag → getTrack u d' = getTrack u d) ∧ (getTrack tag d).state = .free ∧ tag < 16384 := by
  obtain ⟨e, tag, seq, count, bs, kept, hfree, rfl⟩ := dispatchOp_sent h
  obtain ⟨was_free, in_range⟩ := freeTag_spec hfree
  generalize hg : ({ x with state := .send, seq := seq, count := count, attempt := 0, data := bs } : Track) = g
  have entry (u : Nat) : getTrack u (sendAttempt tag (setTrack tag g e)) = getTrack u (setTrack tag g e) :=
    getTrack_congr (congrArg Remote.track (sendAttempt_rem _ tag)) u
  have own : getTrack tag (sendAttempt tag (setTrack tag g e)) = g := (entry tag).trans (getTrack_setTrack_same tag g e)
  refine ⟨tag, hfree, ?_, ?_, ?_, ?_, ?_, fun u hu => ?_, was_free, in_range⟩
  · rw [own, ← hg]
  · rw [own, ← hg]
  · rw [own, ← hg]
  · rw [own, ← hg]
  · rw [own, ← hg]
  · exact (entry u).trans ((Sparse.get_set_other (α := Track) {} e.rem.track g hu).trans (getTrack_congr (congrArg Remote.track kept) u))

end

/-! ## Network-interface words (R143, R148) -/

section
variable {t op : Nat} {q : QWord} {d : Dev}

/-- The row of the words of an OP below 3. -/
theorem exec_niWord {c : Instr} (hc : (op = 0 ∧ c = .niPut t) ∨ (op = 1 ∧ c = .niGet t) ∨ (op = 2 ∧ c = .niCounterAdd t))
    (s : State) :
    exec c s = onDev (niOk t) (asTile t (niWord op t)) s := by
  rcases hc with ⟨rfl, rfl⟩ | ⟨rfl, rfl⟩ | ⟨rfl, rfl⟩ <;> rfl

/-- A row of a network interface answers what its effect comes to on the device that it tags. -/
theorem answers_onNi {f : Dev → Dev} {s : State} {c : Instr} {d' : Dev} (ht : t ≤ 128)
    (hc : exec c s = onDev (niOk t) (asTile t f) s) (h : f (tagWork (segFrames t s.dev) s.dev) = d') : Answers c s (untagged d') :=
  answers_onDev (by simp [niOk, ht]) hc (congrArg (tagWork []) h)

theorem niWord_of_head (hhead : headOf t 6 d = some q) (hctx : q.ctx ≠ 1) : niWord op t d = niHead op t q d := by
  rw [niWord, hhead]
  exact forRank_own hctx _ d

/-- A word touches nothing that a sequencer word has reserved. -/
def NiQuiet (t : Nat) (q : QWord) (d : Dev) : Prop := wOp q.word = 2 ∨ q.reel.isSome = true ∨
  conflict t [(wField q.word 52 17 * 64, (wField q.word 117 11 + 1) * 64)] [] d = false

theorem not_niQuiet_iff : ¬ NiQuiet t q d ↔ wOp q.word ≠ 2 ∧ q.reel.isNone = true ∧
    conflict t [(wField q.word 52 17 * 64, (wField q.word 117 11 + 1) * 64)] [] d = true := by
  rw [NiQuiet, not_or, not_or, Bool.not_eq_false, Bool.not_eq_true, Option.isSome_eq_false_iff]

/-- What the operation of the head comes to once its counter is reached. -/
def niDispatched (t : Nat) (q : QWord) (d : Dev) : Dev :=
  let x := withReelLocal q (wordOp t q d)
  match dispatchOp x q.ctx d with
  | (.wait, d2) => d2
  | (.sent, d2) => dispatchHead t 6 .running d2
  | (.notSent n, d2) => reportOp x.origin x.tenant x.rank n 0 (dispatchHead t 6 .running d2)

section
variable (hop : wOp q.word = op) (hrun : enginesRun t d = true)
include hop hrun

theorem niHead_of_bad_field (h : niFieldBad q.word = true) : niHead op t q d = rejectHead t 6 1 evWordField d := by
  rw [niHead, if_pos ⟨.inl hop, hrun⟩, if_pos h, wordField]

variable (hgood : niFieldBad q.word = false)
include hgood

theorem niHead_of_conflict (h : ¬ NiQuiet t q d) : niHead op t q d = rejectHead t 6 1 evRnnConflict d := by
  rw [niHead, if_pos ⟨.inl hop, hrun⟩, if_neg (Bool.eq_false_iff.1 hgood), if_pos (not_niQuiet_iff.1 h)]

variable (hquiet : NiQuiet t q d)
include hquiet

theorem niHead_of_short (h : CounterShort t q d) : niHead op t q d = d := by
  rw [niHead, if_pos ⟨.inl hop, hrun⟩, if_neg (Bool.eq_false_iff.1 hgood), if_neg (mt not_niQuiet_iff.2 (not_not.2 hquiet)),
    headWait_of_short h]

variable (hmet : CounterMet t q d)
include hmet

theorem niHead_of_met : niHead op t q d = niDispatched t q d := by
  rw [niHead, if_pos ⟨.inl hop, hrun⟩, if_neg (Bool.eq_false_iff.1 hgood), if_neg (mt not_niQuiet_iff.2 (not_not.2 hquiet)),
    headWait_of_met hmet]
  rfl

theorem niHead_of_sent {e : Dev} (h : dispatchOp (withReelLocal q (wordOp t q d)) q.ctx d = (.sent, e)) :
    niHead op t q d = dispatchHead t 6 .running e := by
  rw [niHead_of_met hop hrun hgood hquiet hmet, niDispatched, h]

theorem niHead_of_wait {e : Dev} (h : dispatchOp (withReelLocal q (wordOp t q d)) q.ctx d = (.wait, e)) :
    niHead op t q d = e := by
  rw [niHead_of_met hop hrun hgood hquiet hmet, niDispatched, h]

theorem niHead_of_notSent {e : Dev} {n : Nat} (h : dispatchOp (withReelLocal q (wordOp t q d)) q.ctx d = (.notSent n, e)) :
    niHead op t q d = reportOp (withReelLocal q (wordOp t q d)).origin (withReelLocal q (wordOp t q d)).tenant
      (withReelLocal q (wordOp t q d)).rank n 0 (dispatchHead t 6 .running e) := by
  rw [niHead_of_met hop hrun hgood hquiet hmet, niDispatched, h]

end
end

/-! ## Start-chain words (R304) -/

section
variable {t : Nat} {q : QWord} {d : Dev}

theorem niStartChain_of_head (hhead : headOf t 6 d = some q) (hctx : q.ctx ≠ 1) : niStartChain t d = startChainHead t q d := by
  rw [niStartChain, hhead]
  exact forRank_own hctx _ d

/-- A start-chain word of the running rank, its fields good and its counter reached, by its chain. -/
theorem startChainHead_of_met (hop : wOp q.word = 3) (hrun : enginesRun t d = true) (hgood : niFieldBad q.word = false)
    (hmet : CounterMet t q d) (hctx : q.ctx = 0) {program : Option (Body × Bytes)}
    (hprogram : programAt q.tenant 0 (getRun q.tenant d).index d = program) :
    (program = none → startChainHead t q d = rejectHead t 6 1 evChainConfig d) ∧
    (∀ body bs, program = some (body, bs) → bodyChains bs body.slots ≤ wField q.word 44 16 →
      startChainHead t q d = rejectHead t 6 1 evChainConfig d) ∧
    (∀ body bs, program = some (body, bs) → wField q.word 44 16 < bodyChains bs body.slots → d.coll.chains.length < 256 →
      startChainHead t q d = startChain q.tenant (ctxRank q.tenant 0 d) body (chainAt bs body.slots (wField q.word 44 16))
        (wField q.word 32 12) (getRun q.tenant d).index false (some (t, q.number)) (dispatchHead t 6 .running d)) := by
  rw [startChainHead, if_pos ⟨.inl hop, hrun⟩, if_neg (Bool.eq_false_iff.1 hgood), headWait_of_met hmet]
  simp only [hctx, if_pos, hprogram]
  refine ⟨fun hnone => ?_, fun body bs hsome hpast => ?_, fun body bs hsome hin hroom => ?_⟩
  · simp only [hnone]
  · simp only [hsome, if_pos hpast]
  · simp only [hsome, if_neg (Nat.not_le.2 hin), if_neg (Nat.not_le.2 hroom)]

end

end Sys2Proof.Machine

namespace Sys2Proof.Proofs
open Sys2Proof.Machine

/-- Settles O23: words at the head of the queue of a network interface, then the dispatch of an operation alone. -/
theorem networkWords : Obligations.NetworkWords := by
  unfold Obligations.NetworkWords
  refine ⟨?_, fun x ctx d => ⟨fun d1 h => dispatchOp_of_invalid h, fun d1 h => dispatchOp_of_miss h, fun c d1 h =>
    ⟨dispatchOp_of_put_open h, dispatchOp_of_put_failed h, dispatchOp_of_full h⟩, fun d' h => getTrack_of_sent h⟩⟩
  rintro s _ t q rfl ht hrun hhead hctx
  let tagged := tagWork (segFrames t s.dev) s.dev
  have hrun : enginesRun t tagged = true := hrun
  refine ⟨fun op c hc hop => ?_, fun _ hown hop hgood hmet => ?_⟩
  · have row {d' : Dev} (h : niHead op t q tagged = d') : Answers c s (untagged d') :=
      answers_onNi ht (exec_niWord hc s) ((niWord_of_head (d := tagged) hhead hctx).trans h)
    exact ⟨fun hbad => row (niHead_of_bad_field hop hrun hbad),
      fun hgood hloud => row (niHead_of_conflict hop hrun hgood hloud),
      fun hgood hquiet hshort => row (d' := tagged) (niHead_of_short hop hrun hgood hquiet hshort),
      fun hgood hquiet hmet => ⟨fun d2 h => row (niHead_of_sent hop hrun hgood hquiet hmet h),
        fun d2 h => row (niHead_of_wait hop hrun hgood hquiet hmet h),
        fun d2 n h => row (niHead_of_notSent hop hrun hgood hquiet hmet h)⟩⟩
  · have row {d' : Dev} (h : startChainHead t q tagged = d') : Answers (.niStartChain t) s (untagged d') :=
      answers_onNi ht rfl ((niStartChain_of_head (d := tagged) hhead hctx).trans h)
    obtain ⟨none, past, starts⟩ := startChainHead_of_met (d := tagged) hop hrun hgood hmet hown
      (programAt_tagWork (segFrames t s.dev) s.dev ..)
    exact ⟨fun h => row (none h), fun body bs h hpast => row (past body bs h hpast),
      fun body bs h hin hroom => row (starts body bs h hin hroom)⟩

end Sys2Proof.Proofs
end
